-- ==== Sys2Proof/Word.lean ====
section
/-! DEFINITION. The plain data types every other file uses: a byte, a string of bytes and a sparse table by number. -/
namespace Sys2Proof

/-- One byte (R6: the unit of every field layout). -/
abbrev Byte := BitVec 8

/-- A string of bytes, lowest address first (R6: little-endian). -/
abbrev Bytes := List Byte

/-- A sparse table: (number, item) pairs with strictly rising numbers. -/
abbrev Tbl (α : Type) := List (Nat × α)

end Sys2Proof
end

