-- ==== Sys2Proof/Syntax.lean ====
section
/-! DEFINITION. The commands of the block (one constructor per row of the opcode table) and the items they carry. -/
namespace Sys2Proof

/-- A fabric packet: the 40 B header of R354 and its payload. LENGTH is the payload's length. `rsvd` stands for all
reserved header bits together: not zero makes the packet malformed (R9, R356). `host` is the requester identity of
R41 (a holder record of R121), `meta` its meta value and `poison` its poison bit: the header of R354 has no field
for them, and they travel with the packet (log 30, DESIGN CHOICE). `more` holds the further stretches of a chunk write that has been put
together from its packets (R297, R361): no packet on its way has any. -/
structure Packet where
  opcode : Nat := 0
  dest : Nat := 0
  src : Nat := 0
  tag : Nat := 0
  dir : Nat := 0
  dl : Bool := false
  fwd : Bool := false
  twin : Bool := false
  wpt : Bool := false
  pga : Nat := 0
  partition : Nat := 0
  waypoint : Nat := 0
  hops : Nat := 0
  seq : Nat := 0
  wgen : Nat := 0
  status : Nat := 0
  view : Nat := 0
  aux : Nat := 0
  payload : Bytes := []
  rsvd : Nat := 0
  host : Nat := 0
  mval : Nat := 0
  poison : Bool := false
  more : List (Nat × Nat × Bytes) := []   -- further stretches: PGA, offset through a view, bytes
  deriving DecidableEq, Repr

/-- A link flit (R369, R370). LENGTH is the payload's length; `crc` is the CRC field, `fecBad` how many codewords that
overlap the flit the PHY marks as uncorrectable (R371, R396). `side` carries, for each packet that ends in the flit, the items the header of R354
has no field for (log 30, DESIGN CHOICE). -/
structure Flit where
  ftype : Nat := 0
  vc : Nat := 0
  seq : Nat := 0
  ack : Nat := 0
  nak : Bool := false
  cvc : Nat := 0
  credit : Nat := 0
  first : Nat := 255
  rsvd : Nat := 0
  payload : Bytes := []           -- the LENGTH bytes in use
  pad : Bytes := []               -- payload bytes beyond LENGTH, as far as they are not 0 (R371)
  crc : Nat := 0
  fecBad : Nat := 0
  side : List (Nat × Nat × Bool) := []
  deriving DecidableEq, Repr

/-- What a NAND target shows at a reset (R212, R214, R239): its parameter page, whether it answers every command of R212, whether its
training succeeds, and the factory bad marks by group index, as a mask of plane blocks. The default is the reference geometry (log 86, DESIGN CHOICE). -/
structure TargetPage where
  data : Nat := 16384             -- page data area
  spare : Nat := 1152             -- page spare area
  planes : Nat := 4               -- planes per LUN, with multi-plane read and program
  pages : Nat := 1024             -- pages per block
  luns : Nat := 1
  groups : Nat := 14901           -- groups of the target
  commands : Bool := true
  trained : Bool := true
  bad : List (Nat × Nat) := []
  deriving DecidableEq, Repr

/-- What a read of a flash unit brings (R217, R229, R230). `steps` gives for codeword k how it decoded: 0 at the normal read, j from 1 to 8
at the j-th shifted read, 9 at step 3, 10 at step 4, above not at all; one not given decoded at once. `errors` is the worst corrected bit
count of a codeword; `altered` names sub-blocks whose content is not what was written. -/
structure UnitRead where
  steps : List Nat := []
  errors : Nat := 0
  altered : List Nat := []
  deriving DecidableEq, Repr

/-- The header of a request in Nasidom (R521): its session and request number, its VERSION, and the reserved bits of header and body (bits 31:26
of offset 8; byte 3 of a SUBSCRIBE body, R526), which are 0 in a request that is not malformed (R9). -/
structure Ask where
  sid : Nat := 0
  req : Nat := 0
  version : Nat := 1
  reserved : Nat := 0
  deriving DecidableEq, Repr

/-- An M2S request as a host sends it on a port (R86): logical device, host address, the host's tag, SnpType
(0 No-Op, 1 SnpData, 2 SnpCur, 3 SnpInv) and meta value (0 none, 1 I, 2 S, 3 E); `linkErrors` is how many correctable link errors the port
met while it received the message (R114). -/
structure M2S where
  port : Nat := 0
  ld : Nat := 0
  hpa : Nat := 0
  tag : Nat := 0
  snp : Nat := 0
  mval : Nat := 0
  linkErrors : Nat := 0
  deriving DecidableEq, Repr


/-- An HDM decoder as the host commits it (R93): base and size of the host address range, the decoder's DPA base,
interleave ways and granule, position, and whether it locks on commit. -/
structure DecoderArg where
  base : Nat := 0
  size : Nat := 0
  dpa : Nat := 0
  ways : Nat := 1
  gran : Nat := 256
  pos : Nat := 0
  lock : Bool := false
  commit : Bool := true
  deriving DecidableEq, Repr

/-- What a DTLS handshake shows of its client (R517, R518, R479): whether the handshake verified at all, the public-key SHA-512
digest of the certificate its chain ends at, and that of the client's own certificate. -/
structure Cert where
  valid : Bool := true
  root : Bytes := []
  digest : Bytes := []
  deriving DecidableEq, Repr


/-- What a lead asks its partner to allocate at the attach of a range (R400): where it lies, its partition, its REFS and, for a
window, its record in the layout of R316. -/
structure FollowArg where
  base : Nat := 0
  length : Nat := 0
  part : Nat := 0
  refs : Nat := 0
  window : Bool := false
  record : Bytes := []
  deriving DecidableEq, Repr
/-- The commands: one constructor per row of the opcode table, in its order; the docstring gives the row's mnemonic
and rule, and the operands carry what comes from outside the node (NOTES.md, Operands). -/
inductive Instr where
  -- 01 Controller organisation
  /-- ROOT_PLL_LOCK_LOSS (R27) -/
  | rootPllLockLoss
  /-- RING_INJECT (R31) -/
  | ringInject (src dst line : Nat) (isReq : Bool)
  /-- RING_EJECT (R31) -/
  | ringEject (stop : Nat)
  -- 02 Pool address space
  /-- PGA_GRANT (R57) -/
  | pgaGrant (q : Ask) (arg : Bytes)
  /-- RESERVE_TIMEOUT (R58) -/
  | reserveTimeout (entry : Nat)
  /-- GRANT_CLEAR_DONE (R59) -/
  | grantClearDone (entry : Nat)
  /-- DC_ACCEPT_TIMEOUT (R96) -/
  | dcAcceptTimeout (entry : Nat)
  /-- PGA_REVOKE (R97) -/
  | pgaRevoke (q : Ask) (entry : Nat)
  /-- PGA_REVOKE_FORCED (R98) -/
  | pgaRevokeForced (q : Ask) (entry : Nat)
  /-- DC_RELEASE_TIMEOUT (R97) -/
  | dcReleaseTimeout (entry : Nat)
  /-- REVOKE_RECALL_RESEND (R63) -/
  | revokeRecallResend (entry : Nat)
  /-- REVOKE_COMPLETE (R65) -/
  | revokeComplete (entry : Nat)
  /-- PGA_MIGRATE (R74) -/
  | pgaMigrate (q : Ask) (entry coord : Nat)
  /-- MIGRATE_COPY_DONE (R74) -/
  | migrateCopyDone (entry : Nat)
  /-- PGA_REBIND (R74) -/
  | pgaRebind (q : Ask) (old new length : Nat)
  /-- DRAIN_WINDOW_EXPIRY (R75) -/
  | drainWindowExpiry (entry : Nat)
  /-- RESERVE (R358) -/
  | reserve (p : Packet)
  /-- UNREFERENCE (R66) -/
  | unreference (p : Packet)
  /-- REBIND_NOTICE (R74) -/
  | rebindNotice (p : Packet)
  /-- WINDOW_BIND (R311) -/
  | windowBind (p : Packet)
  /-- MIGRATE_RESERVE (R358) -/
  | migrateReserve (p : Packet)
  /-- MIGRATE_HANDOVER (R74) -/
  | migrateHandover (p : Packet)
  /-- MIGRATE_RELEASE (R578) -/
  | migrateRelease (p : Packet)
  /-- PURGE (R111) -/
  | purge (p : Packet)
  /-- REVOKE_RECALL (R63) -/
  | revokeRecall (p : Packet)
  -- 03 CXL ports
  /-- PERST_DEASSERT (R109) -/
  | perstDeassert (port : Nat)
  /-- PERST_ASSERT (R109) -/
  | perstAssert (port : Nat)
  /-- CXL_PORT_RESET (R109) -/
  | cxlPortReset (q : Ask) (port value : Nat)
  /-- PORT_TRAINED (R108) -/
  | portTrained (port rate width : Nat)
  /-- CXL_TRAINING_FAILS (R109) -/
  | cxlTrainingFails (port cause : Nat)
  /-- CXL_LINK_DOWN (R109) -/
  | cxlLinkDown (port : Nat)
  /-- PORT_RESET_DONE (R109) -/
  | portResetDone (port : Nat)
  /-- PURGE_RESEND (R111) -/
  | purgeResend (port : Nat)
  /-- PURGE_WAIT_TIMEOUT (R111) -/
  | purgeWaitTimeout (id : Nat)
  /-- MEM_RD (R119) -/
  | memRd (m : M2S) (upset : Nat)
  /-- MEM_RD_DATA (R119) -/
  | memRdData (m : M2S)
  /-- MEM_INV (R119) -/
  | memInv (m : M2S)
  /-- MEM_INV_NT (R119) -/
  | memInvNt (m : M2S)
  /-- MEM_SPEC_RD (R87) -/
  | memSpecRd (m : M2S)
  /-- MEM_CLN_EVCT (R119) -/
  | memClnEvct (m : M2S)
  /-- MEM_WR (R119) -/
  | memWr (m : M2S) (data : Bytes) (poison : Bool)
  /-- MEM_WR_PTL (R205) -/
  | memWrPtl (m : M2S) (data : Bytes) (be : Nat) (poison : Bool)
  /-- UNSUPPORTED_M2S (R86) -/
  | unsupportedM2s (m : M2S)
  /-- BIRSP (R86, R119): kind 0 BIRspI, 1 BIRspS, 2 BIRspE, 3 to 5 their block forms; `low` names the line of a block that the response to
  one line is for -/
  | birsp (port ld bitag kind low : Nat)
  /-- BICONFLICT (R131) -/
  | biconflict (port ld bitag : Nat) (done : Bool)
  /-- BI_DECODER_PROGRAM (R92) -/
  | biDecoderProgram (port ld : Nat) (biId : Option Nat)
  /-- HDM_DECODER_COMMIT (R93) -/
  | hdmDecoderCommit (port ld index : Nat) (d : DecoderArg)
  /-- GPF (R81) -/
  | gpf (port : Nat)
  /-- VIRAL (R82) -/
  | viral (port : Nat)
  /-- IDENTIFY (R99) -/
  | identify (port ld : Nat)
  /-- BACKGROUND_OPERATION_STATUS (R99) -/
  | backgroundOperationStatus (port ld : Nat)
  /-- GET_EVENT_RECORDS (R101) -/
  | getEventRecords (port ld log : Nat)
  /-- CLEAR_EVENT_RECORDS (R101) -/
  | clearEventRecords (port ld log : Nat) (all : Bool) (handles : List Nat)
  /-- GET_EVENT_INTERRUPT_POLICY (R99) -/
  | getEventInterruptPolicy (port ld : Nat)
  /-- SET_EVENT_INTERRUPT_POLICY (R99) -/
  | setEventInterruptPolicy (port ld : Nat) (policy : Bytes)
  /-- GET_TIMESTAMP (R99) -/
  | getTimestamp (port ld : Nat)
  /-- SET_TIMESTAMP (R99) -/
  | setTimestamp (port ld stamp : Nat)
  /-- GET_SUPPORTED_LOGS (R99) -/
  | getSupportedLogs (port ld : Nat)
  /-- GET_LOG (R99) -/
  | getLog (port ld : Nat) (uuid : Bytes) (offset length : Nat)
  /-- IDENTIFY_MEMORY_DEVICE (R99) -/
  | identifyMemoryDevice (port ld : Nat)
  /-- GET_PARTITION_INFO (R99) -/
  | getPartitionInfo (port ld : Nat)
  /-- GET_HEALTH_INFO (R99) -/
  | getHealthInfo (port ld : Nat)
  /-- GET_POISON_LIST (R100) -/
  | getPoisonList (port ld dpa length : Nat) (remote : List Nat)
  /-- INJECT_POISON (R99) -/
  | injectPoison (port ld dpa : Nat)
  /-- CLEAR_POISON (R99) -/
  | clearPoison (port ld dpa : Nat) (data : Bytes)
  /-- GET_DYNAMIC_CAPACITY_CONFIGURATION (R95) -/
  | getDynamicCapacityConfiguration (port ld count start : Nat)
  /-- GET_DYNAMIC_CAPACITY_EXTENT_LIST (R99) -/
  | getDynamicCapacityExtentList (port ld count start : Nat)
  /-- ADD_DYNAMIC_CAPACITY_RESPONSE (R96) -/
  | addDynamicCapacityResponse (port ld : Nat) (extents : List (Nat × Nat))
  /-- RELEASE_DYNAMIC_CAPACITY (R97) -/
  | releaseDynamicCapacity (port ld : Nat) (extents : List (Nat × Nat))
  /-- UNSUPPORTED_MAILBOX (R99) -/
  | unsupportedMailbox (port ld opcode : Nat)
  /-- SQ_TAIL (R275) -/
  | sqTail (port ld page value : Nat) (aligned : Bool)
  /-- CQ_HEAD (R279) -/
  | cqHead (port ld page value : Nat) (aligned : Bool)
  /-- ALERT_LATCH_CLEAR (R107) -/
  | alertLatchClear (value : Nat)
  /-- SAFE_THROTTLE (R444) -/
  | safeThrottle (value : Nat)
  /-- CXL_REGION_LENGTH (R95) -/
  | cxlRegionLength (q : Ask) (port ld : Nat) (lengths : List Nat)
  /-- CXL_PORT_BIFURCATE (R84) -/
  | cxlPortBifurcate (q : Ask) (port value : Nat)
  -- 04 Coherence Ledger
  /-- RECALL_TIMEOUT (R135) -/
  | recallTimeout (rid : Nat)
  /-- PROXY_RECALL_TIMEOUT (R132) -/
  | proxyRecallTimeout (pid : Nat)
  /-- RECALL_BACKSTOP_TIMEOUT (R133) -/
  | recallBackstopTimeout (rid : Nat)
  /-- ACK_TIMEOUT (R125) -/
  | ackTimeout (txn : Nat)
  /-- CHANNEL_FENCED (R143) -/
  | channelFenced (slice channel : Nat)
  /-- LDG_CHANNEL_READMIT (R144) -/
  | ldgChannelReadmit (q : Ask) (slice value : Nat)
  /-- AUTO_READMIT (R144) -/
  | autoReadmit (slice : Nat)
  /-- SLICE_STOP (R145) -/
  | sliceStop (slice : Nat)
  /-- LDG_CLEAR_POISON (R149) -/
  | ldgClearPoison (q : Ask) (pga : Nat)
  /-- LEDGER_SCAN_DONE (R596) -/
  | ledgerScanDone (slice set : Nat)
  -- 05 Tiering and streams
  /-- CAR_MODE_NEXT (R151) -/
  | carModeNext (q : Ask) (value : Nat)
  /-- FILL_ARRIVES (R159) -/
  | fillArrives (block : Nat) (found : UnitRead)
  /-- WRITE_BACK_DONE (R159) -/
  | writeBackDone (block : Nat)
  /-- DIRTY_HIGH (R165) -/
  | dirtyHigh
  /-- STAGE_HOLD_EXPIRY (R164) -/
  | stageHoldExpiry (block : Nat)
  /-- CAR_COMMIT (R167) -/
  | carCommit (q : Ask) (pga length recallOp : Nat)
  /-- COMMIT_COMPLETE (R167) -/
  | commitComplete (id : Nat)
  /-- CAR_STREAM_ALLOC (R171) -/
  | carStreamAlloc (q : Ask)
  /-- CAR_STREAM (R171) -/
  | carStream (q : Ask) (record : Bytes)
  /-- STREAM_START (R174) -/
  | streamStart (q : Ask)
  /-- STREAM_STOP (R171) -/
  | streamStop (q : Ask)
  /-- STREAM_REWIND (R171) -/
  | streamRewind (q : Ask)
  /-- STREAM_FREE (R171) -/
  | streamFree (q : Ask)
  /-- SEGMENT_LIST_FETCH (R172) -/
  | segmentListFetch (stream : Nat)
  /-- STAGE_RETRY (R174) -/
  | stageRetry (stream block : Nat)
  -- 06 DRAM controller
  /-- REFRESH_DUE (R189) -/
  | refreshDue (stack : Nat)
  /-- TEMPERATURE_READ (R190) -/
  | temperatureRead (stack : Nat) (temp : Int)
  /-- LEVEL_CHANGE_DONE (R192) -/
  | levelChangeDone (stack : Nat)
  /-- RETRAINING_PAUSE (R195) -/
  | retrainingPause (stack pc steps : Nat)
  /-- HBM_STACK_DRAIN (R198) -/
  | hbmStackDrain (q : Ask) (stack : Nat)
  /-- HBM_STACK_RELEASE (R198) -/
  | hbmStackRelease (q : Ask) (stack : Nat)
  /-- HBM_RETRAIN_STACK (R199) -/
  | hbmRetrainStack (q : Ask) (stack value : Nat)
  /-- RETRAINING_DONE (R199) -/
  | retrainingDone (stack : Nat)
  /-- PATROL_SCRUB (R207) -/
  | patrolScrub (stack line : Nat) (found : List (Nat × Nat))
  -- 07 Flash storekeeper
  /-- PROGRAM_DONE (R224) -/
  | programDone (prog bad : Nat)
  /-- ERASE_DONE (R235) -/
  | eraseDone (group bad : Nat)
  /-- JOURNAL_RECORD_DURABLE (R225) -/
  | journalRecordDurable (seq : Nat)
  /-- CHECKPOINT_ROUND_START (R226) -/
  | checkpointRoundStart
  /-- CHECKPOINT_ROUND_COMPLETE (R226) -/
  | checkpointRoundComplete
  /-- TARGET_FAILURE (R231) -/
  | targetFailure (target : Nat)
  /-- OPERATION_RESUME (R233) -/
  | operationResume (lun : Nat)
  /-- RELOCATION_DONE (R234) -/
  | relocationDone (prog bad : Nat) (found : UnitRead)
  /-- GARBAGE_COLLECTION (R235) -/
  | garbageCollection
  /-- FLASH_PATROL (R238) -/
  | flashPatrol (unit : Nat) (found : UnitRead)
  /-- STK_FORMAT (R242) -/
  | stkFormat (q : Ask) (value : Nat)
  -- 08 Tally book
  /-- TRANSLATION_COMPLETION (R256) -/
  | translationCompletion (id status addr size perms : Nat)
  /-- XLATE_TIMEOUT (R256) -/
  | xlateTimeout (id : Nat)
  /-- INVALIDATE_REQUEST (R258) -/
  | invalidateRequest (port ld itag : Nat) (pasid : Option Nat) (addr length : Nat)
  /-- TLB_INVALIDATE (R257) -/
  | tlbInvalidate (q : Ask) (ctx cva length : Nat)
  /-- ENGINE_INVALIDATE_ACK (R258) -/
  | engineInvalidateAck (id quad : Nat)
  /-- PAGE_GROUP_RESPONSE (R263) -/
  | pageGroupResponse (index code pasid : Nat)
  /-- FAULT_TIMEOUT (R263) -/
  | faultTimeout (index : Nat)
  /-- PORT_DOWN_FAULT_TIMEOUT (R263) -/
  | portDownFaultTimeout (index : Nat)
  /-- PRI_ENABLE (R264) -/
  | priEnable (port ld allocation : Nat)
  -- 09 Clerks and command queues
  /-- CONTEXT_ASSIGN (R272) -/
  | contextAssign (q : Ask) (part : Nat)
  /-- CONTEXT_RELEASE (R272) -/
  | contextRelease (q : Ask)
  /-- CLE_CONTEXT (R273) -/
  | cleContext (q : Ask) (record : Bytes)
  /-- BIND (R274) -/
  | bind (q : Ask)
  /-- UNBIND (R275) -/
  | unbind (q : Ask)
  /-- RESUME (R275) -/
  | resume (q : Ask)
  /-- CONTEXT_RESET (R276) -/
  | contextReset (q : Ask)
  /-- UNBIND_COMPLETE (R275) -/
  | unbindComplete (ctx : Nat)
  /-- CONTEXT_RESET_COMPLETE (R276) -/
  | contextResetComplete (ctx : Nat)
  /-- DESCRIPTOR_FETCH (R281) -/
  | descriptorFetch (ctx : Nat)
  /-- CHUNK_ISSUE (R298) -/
  | chunkIssue (chunk quad : Nat) (upset : Nat)
  /-- LEAVE_REQUEST (R296) -/
  | leaveRequest (chunk gen : Nat)
  /-- CHUNK_RESULT (R298) -/
  | chunkResult (chunk gen : Nat)
  /-- CHUNK_ERROR (R298) -/
  | chunkError (chunk gen err : Nat)
  /-- CHUNK_TIMEOUT (R298) -/
  | chunkTimeout (chunk : Nat)
  /-- LOST_TIMEOUT (R299) -/
  | lostTimeout (n : Nat) (counter : Bool)
  /-- KEEPALIVE_SEND (R299) -/
  | keepaliveSend
  /-- JOB_COMPLETE (R302) -/
  | jobComplete (job : Nat)
  /-- CHUNK_WRITE (R297) -/
  | chunkWrite (p : Packet)
  /-- ATOMIC (R291) -/
  | atomic (p : Packet)
  /-- APPEND (R293) -/
  | append (p : Packet)
  /-- COMMIT (R294) -/
  | commit (p : Packet)
  -- 10 Accumulating windows
  /-- WIN_GRANT (R310) -/
  | winGrant (q : Ask) (arg : Bytes)
  /-- WIN_BIND (R311) -/
  | winBind (q : Ask) (arg : Bytes)
  /-- CONTRIB (R330) -/
  | contrib (p : Packet) (upset : Nat)
  /-- CONTRIB_TIMEOUT (R325) -/
  | contribTimeout (home seq : Nat)
  /-- RELEASE_RESEND (R325) -/
  | releaseResend (home seq : Nat)
  /-- RELEASE (R325) -/
  | release (p : Packet)
  /-- WIN_REARM (R329) -/
  | winRearm (q : Ask) (expected : Nat)
  /-- GENERATION (R329) -/
  | generation (p : Packet)
  /-- REARM_TIMEOUT (R329) -/
  | rearmTimeout (entry : Nat)
  -- 11 Marsata fabric
  /-- MAR_NODE_COORD (R336) -/
  | marNodeCoord (q : Ask) (value : Nat)
  /-- MAR_RING_SIZE (R336) -/
  | marRingSize (q : Ask) (value : Nat)
  /-- MAR_PORT_ENABLE (R385) -/
  | marPortEnable (q : Ask) (port value : Nat)
  /-- MAR_ROUTE (R351) -/
  | marRoute (q : Ask) (value : Nat)
  /-- MAR_ROUTE_RESET (R351) -/
  | marRouteReset (q : Ask) (value : Nat)
  /-- PACKET_ROUTE (R341) -/
  | packetRoute (port : Option Nat) (p : Packet) (upset : Nat)
  /-- TRANSIT_REINJECT (R348) -/
  | transitReinject
  /-- TRANSIT_ACK (R352) -/
  | transitAck (p : Packet)
  /-- SPILL_SEND (R344) -/
  | spillSend
  /-- FAULT (R346) -/
  | fault (p : Packet)
  /-- FAULT_NOTICE_REPEAT (R346) -/
  | faultNoticeRepeat
  /-- TAG_ALLOCATE (R360) -/
  | tagAllocate
  /-- TAG_QUARANTINE_END (R360) -/
  | tagQuarantineEnd (tag : Nat)
  /-- CHUNK_WRITE_DISCARD (R361) -/
  | chunkWriteDiscard (src tag : Nat)
  /-- READ (R356) -/
  | read (p : Packet)
  /-- WRITE (R356) -/
  | write (p : Packet)
  /-- CLEAN_EVICT (R356) -/
  | cleanEvict (p : Packet)
  /-- STAGE (R174) -/
  | stage (p : Packet)
  /-- RECALL (R132) -/
  | recallOp (p : Packet)
  /-- RECALL_RSP (R132) -/
  | recallRsp (p : Packet)
  /-- DATA (R393) -/
  | data (p : Packet)
  /-- DONE (R393) -/
  | done (p : Packet)
  /-- ACK (R124) -/
  | ack (p : Packet)
  /-- PROBE (R134) -/
  | probe (p : Packet) (done : Bool)
  /-- ANSWER (R134) -/
  | answer (p : Packet)
  /-- KEEPALIVE (R299) -/
  | keepalive (p : Packet)
  /-- COUNT (R356) -/
  | count (p : Packet)
  -- 12 Link layer
  /-- DATA_FLIT (R378) -/
  | dataFlit (port : Nat) (f : Flit)
  /-- CONTROL_FLIT (R380) -/
  | controlFlit (port : Nat) (f : Flit)
  /-- ACK_REPORT (R379) -/
  | ackReport (port : Nat)
  /-- NAK_RESEND (R381) -/
  | nakResend (port : Nat)
  /-- REPLAY_TIMEOUT (R382) -/
  | replayTimeout (port : Nat)
  /-- DEAD_TIME (R383) -/
  | deadTime (port : Nat) (lockLost : Bool)
  /-- PHY_TRAINED (R385): with what training found of the lanes, their order and a mask of the 32 lanes' polarity (R624) -/
  | phyTrained (port : Nat) (reversed : Bool) (polarity : Nat)
  /-- TRAINING_FAILS (R385) -/
  | trainingFails (port : Nat)
  /-- OFFER (R388) -/
  | offer (port : Nat) (f : Flit)
  /-- ACCEPT (R388) -/
  | accept (port : Nat) (f : Flit)
  /-- OFFER_RESEND (R388) -/
  | offerResend (port : Nat)
  /-- LNK_RETRY_INTERVAL (R385) -/
  | lnkRetryInterval (port : Nat)
  /-- LNK_REINJECT_EXPIRED (R390) -/
  | lnkReinjectExpired
  /-- ACCEPTANCE_PASS (R392) -/
  | acceptancePass
  -- 13 Twin pairs
  /-- TWN_ATTACH (R400) -/
  | twnAttach (q : Ask) (entry answer : Nat) (follow : Option FollowArg)
  /-- TWN_DETACH (R402) -/
  | twnDetach (q : Ask) (entry keep : Nat)
  /-- TWN_SWAP (R424) -/
  | twnSwap (q : Ask) (verify : Nat)
  /-- HEARTBEAT_SEND (R399) -/
  | heartbeatSend
  /-- HEARTBEAT (R399) -/
  | heartbeat (p : Packet)
  /-- PARTNER_TIMEOUT (R416) -/
  | partnerTimeout
  /-- STAMP (R408) -/
  | stamp (p : Packet)
  /-- BODY_WAIT_TIMEOUT (R410) -/
  | bodyWaitTimeout (order : Nat)
  /-- PATCH (R410) -/
  | patch (p : Packet)
  /-- STALE_REPORT (R411) -/
  | staleReport (p : Packet)
  /-- RESILVER_UNIT (R425) -/
  | resilverUnit
  /-- RESILVER_META (R358) -/
  | resilverMeta (p : Packet)
  /-- SECOND_TIMEOUT (R414) -/
  | secondTimeout (tag : Nat)
  /-- COMPARE_WINDOW_EXPIRY (R414) -/
  | compareWindowExpiry (tag : Nat)
  -- 14 Weigh-house
  /-- SCHEDULER_SELECT (R435) -/
  | schedulerSelect (sched : Nat)
  /-- REFILL (R436) -/
  | refill
  /-- WHEEL_SLOT (R439) -/
  | wheelSlot (sched cls : Nat)
  /-- GATE_ENTRY (R440) -/
  | gateEntry (sched : Nat)
  /-- WGH_BURST (R437) -/
  | wghBurst (q : Ask) (cls value : Nat)
  /-- WGH_OVERHEAD (R437) -/
  | wghOverhead (q : Ask) (cls value : Nat)
  /-- WGH_GATE_LIST (R442) -/
  | wghGateList (q : Ask) (list : Bytes)
  /-- WGH_SAFE_CLEAR (R444) -/
  | wghSafeClear (q : Ask) (value : Nat)
  -- 15 Security and partitions
  /-- PARTITION_CREATE (R465) -/
  | partitionCreate (q : Ask) (part : Nat)
  /-- PARTITION_ROTATE (R461) -/
  | partitionRotate (q : Ask) (part : Nat)
  /-- PARTITION_SWEEP (R467) -/
  | partitionSweep (q : Ask) (part : Nat)
  /-- KEY_RECORD_TABLE_DURABLE (R455) -/
  | keyRecordTableDurable
  /-- REKEY_WRITE (R462) -/
  | rekeyWrite (part line : Nat)
  /-- REKEY_DONE (R463) -/
  | rekeyDone (part : Nat)
  /-- SWEEP_STEP_DONE (R467) -/
  | sweepStepDone (part : Nat)
  /-- LCK_LD_PARTITION (R450) -/
  | lckLdPartition (q : Ask) (port ld value : Nat)
  /-- LCK_TENANT_CRED (R479) -/
  | lckTenantCred (q : Ask) (part : Nat) (digest : Bytes)
  /-- LCK_ATTEST (R478) -/
  | lckAttest (q : Ask) (nonce : Bytes)
  /-- GET_VERSION (R472) -/
  | getVersion (port ld : Nat)
  /-- GET_CAPABILITIES (R472) -/
  | getCapabilities (port ld : Nat)
  /-- NEGOTIATE_ALGORITHMS (R472) -/
  | negotiateAlgorithms (port ld : Nat)
  /-- GET_DIGESTS (R472) -/
  | getDigests (port ld : Nat)
  /-- GET_CERTIFICATE (R477) -/
  | getCertificate (port ld offset length : Nat)
  /-- CHALLENGE (R473) -/
  | challenge (port ld slot : Nat) (nonce : Bytes)
  /-- GET_MEASUREMENTS (R559) -/
  | getMeasurements (port ld index : Nat) (nonce : Bytes)
  /-- KEY_EXCHANGE (R472) -/
  | keyExchange (port ld : Nat) (random : Bytes)
  /-- FINISH (R472) -/
  | finish (port ld session : Nat)
  /-- KEY_UPDATE (R472) -/
  | keyUpdate (port ld session op : Nat)
  /-- SPDM_HEARTBEAT (R472) -/
  | spdmHeartbeat (port ld session : Nat)
  /-- END_SESSION (R472) -/
  | endSession (port ld session : Nat)
  /-- CHUNK_SEND (R472) -/
  | chunkSend (port ld seq : Nat) (last : Bool) (part : Bytes)
  /-- CHUNK_GET (R472) -/
  | chunkGet (port ld seq : Nat)
  /-- QUERY (R472) -/
  | query (port ld session : Nat)
  /-- KEY_PROG (R472) -/
  | keyProg (port ld session stream : Nat)
  /-- K_SET_GO (R473) -/
  | kSetGo (port ld session stream : Nat)
  /-- K_SET_STOP (R475) -/
  | kSetStop (port ld session stream : Nat)
  /-- GET_TDISP_VERSION (R472) -/
  | getTdispVersion (port ld session : Nat)
  /-- GET_TDISP_CAPABILITIES (R472) -/
  | getTdispCapabilities (port ld session : Nat)
  /-- LOCK_INTERFACE_REQUEST (R474) -/
  | lockInterfaceRequest (port ld session : Nat)
  /-- GET_DEVICE_INTERFACE_REPORT (R473) -/
  | getDeviceInterfaceReport (port ld session offset length : Nat)
  /-- GET_DEVICE_INTERFACE_STATE (R472) -/
  | getDeviceInterfaceState (port ld session : Nat)
  /-- START_INTERFACE_REQUEST (R475) -/
  | startInterfaceRequest (port ld session nonce : Nat)
  /-- STOP_INTERFACE_REQUEST (R475) -/
  | stopInterfaceRequest (port ld session : Nat)
  /-- LOCKED_REGISTER_WRITE (R475) -/
  | lockedRegisterWrite (port ld : Nat)
  /-- IDE_INTEGRITY_FAILURE (R475) -/
  | ideIntegrityFailure (port ld stream : Nat)
  -- 16 Interrupts and events
  /-- COALESCE_TIMER (R485) -/
  | coalesceTimer (ctx : Nat)
  /-- HOLDOFF_END (R489) -/
  | holdoffEnd (port ld group : Nat)
  /-- MASK_CLEAR (R490) -/
  | maskClear (port ld vector : Nat) (entry : Option (Nat × Nat))
  /-- IRQ_GLOBAL_DISABLE (R491) -/
  | irqGlobalDisable (q : Ask) (value : Nat)
  /-- IRQ_CQ_COALESCE (R486) -/
  | irqCqCoalesce (q : Ask) (count time : Nat)
  /-- CLAIM (R495) -/
  | claim (core : Nat)
  /-- EOI (R496) -/
  | eoi (core source : Nat)
  /-- EVENT_WRITE (R500) -/
  | eventWrite
  -- 17 Sahtin and Nasidom
  /-- FRAME_RECEIVED (R508) -/
  | frameReceived (frame : Bytes) (fcsOk : Bool)
  /-- BANK_RELEASE (R515) -/
  | bankRelease
  /-- OVERRUN (R516) -/
  | overrun
  /-- DTLS_HANDSHAKE (R517) -/
  | dtlsHandshake (cert : Cert)
  /-- SESSION_IDLE_TIMEOUT (R519) -/
  | sessionIdleTimeout (sid : Nat)
  /-- NASIDOM_READ (R523) -/
  | nasidomRead (q : Ask) (index sub offset : Nat)
  /-- NASIDOM_WRITE (R524) -/
  | nasidomWrite (q : Ask) (index sub offset : Nat) (last : Bool) (part : Bytes)
  /-- SUBSCRIBE_ADD (R502) -/
  | subscribeAdd (q : Ask) (slot low high severity start : Nat)
  /-- SUBSCRIBE_REMOVE (R526) -/
  | subscribeRemove (q : Ask) (slot : Nat)
  /-- SUBSCRIBE_ACKNOWLEDGE (R527) -/
  | subscribeAcknowledge (q : Ask) (slot seq : Nat)
  /-- SUMMARY (R528) -/
  | summary (q : Ask)
  /-- NOTICE_RESEND (R527) -/
  | noticeResend (sid : Nat)
  /-- RDMA_QP_OPEN (R509) -/
  | rdmaQpOpen (q : Ask) (remoteAddr remoteQp mtu : Nat)
  /-- RDMA_QP_CLOSE (R509) -/
  | rdmaQpClose (q : Ask) (qp : Nat)
  /-- RDMA_REGION_REGISTER (R509) -/
  | rdmaRegionRegister (q : Ask) (base length part perms : Nat)
  /-- RDMA_REGION_REMOVE (R509) -/
  | rdmaRegionRemove (q : Ask) (rkey : Nat)
  /-- SAH_DRAIN (R512) -/
  | sahDrain (q : Ask) (pga length qp addr rkey : Nat)
  /-- RDMA_WRITE (R511) -/
  | rdmaWrite (qp rkey va : Nat) (data : Bytes)
  /-- RDMA_READ (R510) -/
  | rdmaRead (qp rkey va length : Nat)
  /-- DRAIN_ACKNOWLEDGED (R512) -/
  | drainAcknowledged (drain bytes : Nat) (ok : Bool)
  /-- LOOP_TICK (R534) -/
  | loopTick (power : Nat) (temps : List Int)
  /-- THERMAL_COMPARE (R535) -/
  | thermalCompare (temps : List Int)
  /-- STORED_WRITE_COMPLETE (R543) -/
  | storedWriteComplete
  -- 18 Dictionary map
  /-- SAH_ALERT_CLEAR (R548) -/
  | sahAlertClear (q : Ask) (value : Nat)
  /-- FW_HOST_DECLARE (R551) -/
  | fwHostDeclare (q : Ask) (major minor : Nat) (name : Bytes)
  /-- SAH_WALL_TIME (R580) -/
  | sahWallTime (q : Ask) (value : Nat)
  -- 19 Firmware
  /-- FW_STAGE_DATA (R561) -/
  | fwStageData (q : Ask) (data : Bytes)
  /-- FW_UPDATE_VERIFY (R561) -/
  | fwUpdateVerify (q : Ask)
  /-- FW_UPDATE_ACTIVATE (R562) -/
  | fwUpdateActivate (q : Ask)
  /-- FW_UPDATE_COMMIT (R565) -/
  | fwUpdateCommit (q : Ask)
  /-- FW_UPDATE_REVERT (R565) -/
  | fwUpdateRevert (q : Ask)
  /-- FW_UPDATE_COMMIT_SVN (R565) -/
  | fwUpdateCommitSvn (q : Ask)
  /-- FW_RESTART (R567) -/
  | fwRestart (q : Ask) (value : Nat)
  /-- WATCHDOG (R567) -/
  | watchdog (core : Nat)
  /-- HANDOFF_TIMER_EXPIRY (R564) -/
  | handoffTimerExpiry
  /-- ROOT_OF_TRUST_WATCHDOG (R560) -/
  | rootOfTrustWatchdog
  /-- SAHTIN_UE_TRAP (R601) -/
  | sahtinUeTrap (core place : Nat)
  -- 20 Reset and recovery
  /-- NODE_RESET_N_ASSERT (R622) -/
  | nodeResetNAssert (width : Nat)
  /-- NODE_RESET_N_RELEASE (R575) -/
  | nodeResetNRelease
  /-- COLD_TRAINING_DONE (R199) -/
  | coldTrainingDone (stack : Nat) (ok : Bool) (repaired marks : List (Nat × Nat))
  /-- MEMORY_BIST_DONE (R577) -/
  | memoryBistDone (repaired : List Nat) (marks : List (Nat × Nat)) (failed : List Nat) (checker : Nat)
  /-- MAP_LOAD_DONE (R243) -/
  | mapLoadDone (found : List (Nat × TargetPage)) (lost torn : List Nat)
  /-- START_UP_HOLD_END (R581) -/
  | startUpHoldEnd
  /-- NODE_RECOVER_N (R622) -/
  | nodeRecoverN (low : Bool) (width : Nat)
  /-- NODE_RECOVERY_END (R583) -/
  | nodeRecoveryEnd (trained : Bool) (untrained programmed : List Nat)
  /-- TST_NODE_RECOVER (R583) -/
  | tstNodeRecover (q : Ask) (value : Nat)
  /-- TST_COLD_RESET (R573) -/
  | tstColdReset (q : Ask) (value : Nat)
  /-- TST_SLICE_RESET (R574) -/
  | tstSliceReset (q : Ask) (quad : Nat)
  /-- TST_STACK_BIST (R589) -/
  | tstStackBist (q : Ask) (stack value failures : Nat)
  /-- TST_QUAD_BIST (R589) -/
  | tstQuadBist (q : Ask) (quad : Nat) (passed : Bool)
  /-- TST_CXL_HOLD (R590) -/
  | tstCxlHold (q : Ask) (port : Nat)
  /-- TST_CXL_HOLD_RELEASE (R590) -/
  | tstCxlHoldRelease (q : Ask) (port : Nat)
  /-- TST_CXL_MARGIN (R589) -/
  | tstCxlMargin (q : Ask) (port value failures : Nat)
  /-- TST_LINK_MARGIN (R589) -/
  | tstLinkMargin (q : Ask) (port value failures : Nat)
  /-- TST_NAND_CHANNEL (R589) -/
  | tstNandChannel (q : Ask) (channel value failures : Nat)
  /-- QUAD_HANG (R582) -/
  | quadHang (quad : Nat)
  /-- STACK_CONTROLLER_HANG (R582) -/
  | stackControllerHang (stack pc : Nat)
  /-- RING_STOP_HANG (R582) -/
  | ringStopHang (stop : Nat)
  /-- REQUEST_TIMEOUT (R588) -/
  | requestTimeout (tag : Nat)
  /-- TAG_HOLD_EXPIRY (R588) -/
  | tagHoldExpiry (tag : Nat)
  -- 21 Errors
  /-- CE_WINDOW_END (R595) -/
  | ceWindowEnd
  -- 22 Package
  /-- VDD_AUX_FALL (R619) -/
  | vddAuxFall
  /-- EXTEST (R628) -/
  | extest (shift : Nat) (sampled : Nat)
  /-- SAMPLE_PRELOAD (R628) -/
  | samplePreload (shift : Nat) (sampled : Nat)
  /-- IDCODE (R629) -/
  | idcode
  /-- USERCODE (R629) -/
  | usercode
  /-- CLAMP (R628) -/
  | clamp
  /-- HIGHZ (R628) -/
  | highz
  /-- EXTEST_PULSE (R631) -/
  | extestPulse (shift : Nat) (idles : Nat)
  /-- EXTEST_TRAIN (R631) -/
  | extestTrain (shift : Nat) (ticks : Nat)
  /-- BYPASS (R628) -/
  | bypass (opcode : Nat)
  -- Rows that the table lists last
  /-- ROOT_PLL_RELOCK (R27) -/
  | rootPllRelock
  /-- WATCHDOG_KICK (R567) -/
  | watchdogKick (core : Nat)
  /-- SAHTIN_RESTART_DONE (R567) -/
  | sahtinRestartDone
  /-- ROOT_OF_TRUST_RESTART_DONE (R560) -/
  | rootOfTrustRestartDone
  /-- ATS_ENABLE (R250) -/
  | atsEnable (port ld : Nat) (enable : Bool) (stu : Nat)
  /-- REJOIN_HISTORY (R423) -/
  | rejoinHistory (p : Packet)
  /-- DETACH_WAIT_EXPIRY (R402) -/
  | detachWaitExpiry (entry : Nat)
  /-- SOURCE_CONFIG_WRITE (R494) -/
  | sourceConfigWrite (core source value : Nat)
  /-- VDD_AUX_RISE (R616) -/
  | vddAuxRise
  deriving DecidableEq, Repr

end Sys2Proof
end

