-- ==== Sys2Proof/Config.lean ====
section
/-! DEFINITION. What the spec leaves open: constants without a body, so that no proof can lean on a value.
Each is named in the assumption log. -/
namespace Sys2Proof

/-- A value nothing fixes: random seeds, nonces, keys, tie breaks, undefined bytes (log 5, DESIGN CHOICE). Applied to a counter of the state. -/
opaque Config.fresh : Nat → Nat

/-- The Ledger set hash of R122: slice-local line number to set. -/
opaque Config.ledgerSet : Nat → Nat

/-- The frame set hash of R155: block number to set. -/
opaque Config.frameSet : Nat → Nat

/-- The Tally-book set hash of R253. -/
opaque Config.tallySet : Nat → Nat

/-- Fused identity: serial number characters (R544), MAC address (R538). -/
opaque Config.serial : Nat → Nat
opaque Config.mac : Nat

/-- The 16 bytes of the vendor event UUID (R102), which the spec does not print. -/
opaque Config.vendorUuid : Nat → Nat

/-- Whether a block form of BISnp is used where one may be (R86; log 127, DESIGN CHOICE). -/
opaque Config.blockSnoop : Nat → Bool

/-- Byte i of the CDAT of a logical device (R79; log 126, PRESUMED). -/
opaque Config.cdat : Nat → Nat → Nat

/-- A byte of the extended security capability of a logical device (R103; log 126, PRESUMED): logical device, offset. -/
opaque Config.extSecurity : Nat → Nat → Nat

/-- A digest or signature over a transcript: (kind, input) to a number (R472 to R478, R559). -/
opaque Config.digest : Nat → Nat → Nat

/-- Whether an image's signature, signing-key digest and body digest hold (R557), for the bytes of its slot. -/
opaque Config.signed : List (Nat × BitVec 8) → Bool

/-- Check symbol `i` of a codeword of R200, from its symbols 0 to 8 (log 116, DESIGN CHOICE). -/
opaque Config.checkSymbol : List Nat → Nat → Nat

/-- A key of a partition's key set, from the seed, the partition, the epoch and which key (R453: HKDF over the device root secret), and the
standard functions the keys are used in: AES-256 of a 128-bit block, GHASH of bytes, AES-256-XTS of a sub-block under a tweak (R219,
R457, R458; log 116, DESIGN CHOICE). -/
opaque Config.keySet : Nat → Nat → Nat → Nat → Nat
opaque Config.aes : Nat → Nat → Nat
opaque Config.ghash : Nat → Bytes → Nat
opaque Config.xts : Nat → Nat → Bytes → Bytes

/-- The 260 B of parity of a flash codeword, from its data (R217; log 116, DESIGN CHOICE). -/
opaque Config.parity : Bytes → Nat

/-- What training a stack finds (R191, R199): a value of a timing set, from stack, level and which value (log 115, DESIGN CHOICE). -/
opaque Config.trained : Nat → Nat → Nat → Nat

/-- Where the Ledger's tables, the overflow pool and the lending book lie in DRAM above the lendable range (R122, R146, R55): the value of
critical word `w` when the node cold boots (log 117, DESIGN CHOICE). -/
opaque Config.critBase : Nat → Nat

/-- Request-buffer credits of a stop of the on-die ring (R31), which the spec does not number. -/
opaque Config.stopCredits : Nat → Nat

/-- Whether MemSpecRd is dropped (R87: the controller may drop it). -/
opaque Config.dropSpec : Nat → Bool

/-- Sign and payload of a NaN result (R71, R290, R317), which the spec leaves open (log 6, DESIGN CHOICE). -/
opaque Config.nanBits : Nat → Nat

end Sys2Proof
end

