-- ==== Sys2Proof/Machine/Bits.lean ====
section
/-! DEFINITION. Bit fields, byte order (R6) and saturating counters. -/
namespace Sys2Proof.Machine

/-- Bits `lo + w − 1 : lo` of `n` (R6: bit 0 is the least significant). -/
def bits (n lo w : Nat) : Nat := n / 2 ^ lo % 2 ^ w

/-- `n` with bits `lo + w − 1 : lo` replaced by the low `w` bits of `v`. -/
def putBits (n lo w v : Nat) : Nat :=
  n % 2 ^ lo + 2 ^ lo * (v % 2 ^ w) + 2 ^ (lo + w) * (n / 2 ^ (lo + w))

/-- Bit `i` of `n`. -/
def bitOf (n i : Nat) : Bool := n / 2 ^ i % 2 == 1

/-- `n` with bit `i` set. -/
def setBit (n i : Nat) : Nat := if bitOf n i then n else n + 2 ^ i

/-- `n` with bit `i` cleared. -/
def clearBit (n i : Nat) : Nat := if bitOf n i then n - 2 ^ i else n

/-- A Boolean as the number 0 or 1. -/
def b2n (b : Bool) : Nat := if b then 1 else 0

/-- How many of the low `w` bits of `n` are 1. -/
def popCount : Nat → Nat → Nat
  | 0, _ => 0
  | w + 1, n => n % 2 + popCount w (n / 2)

/-- The low `w` bytes of `n`, little-endian (R6). -/
def toLE : Nat → Nat → Bytes
  | 0, _ => []
  | w + 1, n => BitVec.ofNat 8 n :: toLE w (n / 256)

/-- The number a string of bytes spells, little-endian (R6). -/
def fromLE : Bytes → Nat
  | [] => 0
  | b :: bs => b.toNat + 256 * fromLE bs

/-- The unsigned field of `w` bytes at byte offset `off`. -/
def leAt (b : Bytes) (off w : Nat) : Nat := fromLE ((b.drop off).take w)

/-- `n` zero bytes. -/
def zeros (n : Nat) : Bytes := List.replicate n 0

/-- Fields packed from bit 0 upward, given as (width in bits, value) pairs. -/
def packBits : List (Nat × Nat) → Nat
  | [] => 0
  | (w, v) :: fs => v % 2 ^ w + 2 ^ w * packBits fs

/-- A record of fields given in order as (width in bytes, value), little-endian and packed (R540). -/
def packLE : List (Nat × Nat) → Bytes
  | [] => []
  | (w, v) :: fs => toLE w v ++ packLE fs

/-- The line merge of R206 and R354: byte `i` of `new` where bit `i` of `be` is set, else byte `i` of `old`. -/
def mergeBytes : Bytes → Bytes → Nat → Bytes
  | o :: os, n :: ns, be => (if be % 2 = 1 then n else o) :: mergeBytes os ns (be / 2)
  | os, [], _ => os
  | [], _, _ => []

/-- All 64 byte enables of a full-line write (R356). -/
def fullBE : Nat := 2 ^ 64 - 1

/-- The least multiple of `m` that is at least `n`. -/
def roundUp (n m : Nat) : Nat := (n + m - 1) / m * m

end Sys2Proof.Machine
end

