-- ==== Sys2Proof/Machine/Numbers.lean ====
section
/-! DEFINITION. Element formats, rounding and conversion (R71, R287, R288, R290, R291, R317 to R319). Every number is handled
exactly, as a sign, a mantissa and a power of two. -/
namespace Sys2Proof.Machine

/-- A value: a NaN that came from a bit pattern, an infinity, or (−1)^neg × m × 2^e. -/
inductive Num where
  | nan (src : Nat)
  | inf (neg : Bool)
  | fin (neg : Bool) (m : Nat) (e : Int)
  deriving DecidableEq, Repr

/-- A float format: exponent and mantissa widths, bias, and its kind: 0 IEEE infinities and NaNs, 1 a NaN at the top code
only (E4M3), 2 no special codes (MX elements of 6 and 4 bits). -/
structure Fmt where
  ebits : Nat
  mbits : Nat
  bias : Nat
  kind : Nat
  deriving DecidableEq, Repr

def fp32 : Fmt := ⟨8, 23, 127, 0⟩
def fp16 : Fmt := ⟨5, 10, 15, 0⟩
def bf16 : Fmt := ⟨8, 7, 127, 0⟩
def e4m3 : Fmt := ⟨4, 3, 7, 1⟩
def e5m2 : Fmt := ⟨5, 2, 15, 0⟩
def e3m2 : Fmt := ⟨3, 2, 3, 2⟩
def e2m3 : Fmt := ⟨2, 3, 1, 2⟩
def e2m1 : Fmt := ⟨2, 1, 1, 2⟩

/-- Bits of one element. -/
def Fmt.width (f : Fmt) : Nat := 1 + f.ebits + f.mbits

/-- The largest finite code, sign apart. -/
def Fmt.maxCode (f : Fmt) : Nat :=
  if f.kind = 0 then (2 ^ f.ebits - 1) * 2 ^ f.mbits - 1
  else if f.kind = 1 then 2 ^ (f.ebits + f.mbits) - 2 else 2 ^ (f.ebits + f.mbits) - 1

/-- The exponent of the largest finite value (emax of R71). -/
def Fmt.emax (f : Fmt) : Int := (f.maxCode / 2 ^ f.mbits : Nat) - (f.bias : Int)

/-- The value of a code. -/
def Fmt.decode (f : Fmt) (w : Nat) : Num :=
  let neg := bitOf w (f.ebits + f.mbits)
  let ex := bits w f.mbits f.ebits
  let man := bits w 0 f.mbits
  if f.kind = 0 && ex == 2 ^ f.ebits - 1 then
    if man = 0 then .inf neg else .nan w
  else if f.kind = 1 && bits w 0 (f.ebits + f.mbits) == 2 ^ (f.ebits + f.mbits) - 1 then .nan w
  else if ex = 0 then .fin neg man (1 - (f.bias : Int) - f.mbits)
  else .fin neg (man + 2 ^ f.mbits) ((ex : Int) - f.bias - f.mbits)

/-- `m × 2^e` in units of `2^q`, rounded to nearest with ties to even, or toward zero. -/
def roundAt (rtz : Bool) (m : Nat) (e q : Int) : Nat :=
  if q ≤ e then m * 2 ^ (e - q).toNat
  else
    let d := 2 ^ (q - e).toNat
    let r := m % d
    if !rtz && (decide (d < 2 * r) || (2 * r == d && m / d % 2 == 1)) then m / d + 1 else m / d

/-- The exponent of the leading bit. -/
def leadExp (m : Nat) (e : Int) : Int := (Nat.log2 m : Int) + e

/-- A result with what R290 counts: it overflowed or saturated, or became NaN. -/
structure Enc where
  code : Nat
  counted : Bool := false
  deriving DecidableEq, Repr

/-- The code of a NaN result: quiet, with sign and payload left open (log 6, DESIGN CHOICE). -/
def Fmt.nanCode (f : Fmt) (src : Nat) : Nat :=
  let b := Config.nanBits src
  if f.kind = 0 then
    b % 2 * 2 ^ (f.ebits + f.mbits) + (2 ^ f.ebits - 1) * 2 ^ f.mbits + 2 ^ (f.mbits - 1) + b / 2 % 2 ^ (f.mbits - 1)
  else b % 2 * 2 ^ (f.ebits + f.mbits) + (2 ^ (f.ebits + f.mbits) - 1)

/-- A value rounded into a format (R71, R290). On overflow an IEEE format gives infinity, or its largest finite value
under RTZ or SAT; the other formats saturate. An infinity stays one where the format has it; in E4M3 it becomes NaN. -/
def Fmt.encode (f : Fmt) (rtz sat : Bool) (x : Num) : Enc :=
  let sign (neg : Bool) := b2n neg * 2 ^ (f.ebits + f.mbits)
  match x with
  | .nan src => ⟨f.nanCode src, false⟩
  | .inf neg =>
    if f.kind = 0 then ⟨sign neg + (2 ^ f.ebits - 1) * 2 ^ f.mbits, false⟩
    else if f.kind = 1 then ⟨f.nanCode (b2n neg), true⟩
    else ⟨sign neg + f.maxCode, true⟩
  | .fin neg m e =>
    if m = 0 then ⟨sign neg, false⟩
    else
      let ex := max (leadExp m e) (1 - (f.bias : Int))
      let r := roundAt rtz m e (ex - f.mbits)
      let code := (ex + f.bias - 1).toNat * 2 ^ f.mbits + r
      if f.maxCode < code then
        if f.kind = 0 && !rtz && !sat then ⟨sign neg + (2 ^ f.ebits - 1) * 2 ^ f.mbits, true⟩
        else ⟨sign neg + f.maxCode, true⟩
      else ⟨sign neg + code, false⟩

/-- A value times a power of two. -/
def Num.scale (x : Num) (k : Int) : Num :=
  match x with
  | .fin neg m e => .fin neg m (e + k)
  | y => y

/-! ### Integers -/

/-- A `w`-bit code as a two's-complement integer. -/
def signed (w c : Nat) : Int := if c < 2 ^ (w - 1) then c else (c : Int) - 2 ^ w

/-- An integer's `w`-bit code. -/
def wrap (w : Nat) (n : Int) : Nat := (n % 2 ^ w).toNat

def Num.ofInt (n : Int) : Num := .fin (decide (n < 0)) n.natAbs 0

/-- An integer saturated to `w` bits, signed. -/
def saturate (w : Nat) (n : Int) : Enc :=
  if n < -2 ^ (w - 1) then ⟨wrap w (-2 ^ (w - 1)), true⟩
  else if 2 ^ (w - 1) - 1 < n then ⟨wrap w (2 ^ (w - 1) - 1), true⟩
  else ⟨wrap w n, false⟩

/-- A value rounded to an integer of `w` bits, saturating; NaN gives 0 and counts (R290). -/
def toInteger (w : Nat) (rtz : Bool) (x : Num) : Enc :=
  match x with
  | .nan _ => ⟨0, true⟩
  | .inf neg => ⟨(saturate w (if neg then -2 ^ w else 2 ^ w)).code, true⟩
  | .fin neg m e =>
    let n := roundAt rtz m e 0
    saturate w (if neg then -(n : Int) else n)

/-! ### Packed elements and MX blocks -/

/-- The elements of `w` bits of a packed area, lowest first (R288). -/
def unpack (w n : Nat) (b : Bytes) : List Nat := (List.range n).map fun i => bits (fromLE b) (i * w) w

/-- Elements of `w` bits packed into bytes. -/
def repack (w : Nat) (l : List Nat) : Bytes := toLE (l.length * w / 8) (packBits (l.map fun c => (w, c)))

/-- The element format of an MX format code of R287 (6 to 10). -/
def mxElement (code : Nat) : Fmt :=
  if code = 6 then e4m3 else if code = 7 then e5m2 else if code = 8 then e3m2 else if code = 9 then e2m3 else e2m1

/-- An MX block's 32 values (R71): element × 2^(scale − 127); scale 0xFF makes each a NaN. -/
def mxDecode (f : Fmt) (codes : List Nat) (scale : Nat) : List Num :=
  codes.map fun c => if scale = 0xFF then .nan c else (f.decode c).scale ((scale : Int) - 127)

def Num.isNan : Num → Bool
  | .nan _ => true
  | _ => false

def Num.isFinite : Num → Bool
  | .fin _ _ _ => true
  | _ => false

/-- The E8M0 scale of a block (R71). -/
def mxScale (f : Fmt) (xs : List Num) : Nat :=
  if xs.any (fun x => !x.isFinite) then 0xFF
  else
    let tops := xs.filterMap fun x => match x with
      | .fin _ m e => if m = 0 then none else some (leadExp m e)
      | _ => none
    match tops with
    | [] => 127
    | t :: ts =>
      let s := (ts.foldl max t) - f.emax + 127
      if s < 0 then 0 else if 254 < s then 254 else s.toNat

/-- A block of 32 values stored in an MX format: the scale byte and the elements with their counts (R71, R290). -/
def mxEncode (f : Fmt) (rtz : Bool) (xs : List Num) : Nat × List Enc :=
  let s := mxScale f xs
  (s, xs.map fun x =>
    if s = 0xFF then
      ⟨match x with
        | .fin _ _ _ => (f.encode rtz true (x.scale (127 - (s : Int)))).code
        | .inf neg => Config.nanBits (b2n neg) % 2 ^ f.width
        | .nan src => Config.nanBits src % 2 ^ f.width, !x.isNan⟩
    else f.encode rtz true (x.scale (127 - (s : Int))))

/-! ### Conversion between format codes (R287, R290) -/

def floatFmt (code : Nat) : Option Fmt :=
  match code with
  | 1 => some fp32 | 2 => some fp16 | 3 => some bf16 | 4 => some e4m3 | 5 => some e5m2
  | _ => none

def intWidth (code : Nat) : Option Nat :=
  match code with
  | 11 => some 8 | 12 => some 32 | 13 => some 64
  | _ => none

def isMx (code : Nat) : Bool := decide (6 ≤ code) && decide (code ≤ 10)

/-- Bits of one element of a format code. -/
def elemBits (code : Nat) : Nat :=
  match code with
  | 1 => 32 | 2 => 16 | 3 => 16 | 4 => 8 | 5 => 8 | 6 => 8 | 7 => 8 | 8 => 6 | 9 => 6 | 10 => 4 | 11 => 8 | 12 => 32
  | 13 => 64 | 14 => 32 | 15 => 64
  | _ => 8

/-- The value of one element of a float or integer format. -/
def elemValue (code c : Nat) : Num :=
  match floatFmt code with
  | some f => f.decode c
  | none => Num.ofInt (signed (elemBits code) c)

/-- One element converted to a format that is not MX. -/
def elemEncode (code : Nat) (rtz sat : Bool) (x : Num) : Enc :=
  match floatFmt code with
  | some f => f.encode rtz sat x
  | none => toInteger (elemBits code) rtz x

/-! ### FP32 arithmetic (R291, R317) -/

/-- An exact value as an integer times a power of two. -/
def dyadic (x : Num) : Int × Int :=
  match x with
  | .fin neg m e => (if neg then -(m : Int) else m, e)
  | _ => (0, 0)

/-- The exact sum of two such values. -/
def dyAdd (a b : Int × Int) : Int × Int :=
  let e := min a.2 b.2
  (a.1 * 2 ^ (a.2 - e).toNat + b.1 * 2 ^ (b.2 - e).toNat, e)

def ofDyadic (a : Int × Int) : Num := .fin (decide (a.1 < 0)) a.1.natAbs a.2

/-- The IEEE 754 sum of two FP32 codes, rounded as R290. -/
def fp32Add (a b : Nat) (rtz sat : Bool) : Nat :=
  match fp32.decode a, fp32.decode b with
  | .nan _, _ => fp32.nanCode (a * 2 ^ 32 + b)
  | _, .nan _ => fp32.nanCode (a * 2 ^ 32 + b)
  | .inf x, .inf y => if x = y then a else fp32.nanCode (a * 2 ^ 32 + b)
  | .inf _, _ => a
  | _, .inf _ => b
  | .fin nx mx ex, .fin ny my ey =>
    let s := dyAdd (dyadic (.fin nx mx ex)) (dyadic (.fin ny my ey))
    if s.1 = 0 then (if nx && ny then 2 ^ 31 else 0) else (fp32.encode rtz sat (ofDyadic s)).code

/-- A finite FP32 code's place in the order, −0 just below +0. -/
def fp32Key (c : Nat) : Int := if bitOf c 31 then -(bits c 0 31 : Int) - 1 else c

/-- minimumNumber and maximumNumber of IEEE 754-2019: a NaN gives way to a number. -/
def fp32MinMax (isMax : Bool) (a b : Nat) : Nat :=
  let na := (fp32.decode a).isNan
  let nb := (fp32.decode b).isNan
  if na && nb then fp32.nanCode (a * 2 ^ 32 + b)
  else if na then b else if nb then a
  else if (fp32Key a ≤ fp32Key b) = isMax then b else a

/-- The exponent of ulp (R317): of a normal value, its exponent − 23; of a subnormal or zero, −149. -/
def ulpExp (c : Nat) : Int := if bits c 23 8 = 0 then -149 else (bits c 23 8 : Int) - 150

/-- `n × 2^e` rounded to the nearest integer, ties to even. -/
def nearestInt (n : Int) (e : Int) : Int :=
  let r := roundAt false n.natAbs e 0
  if n < 0 then -(r : Int) else r

/-- The exact value T of a float window's element state (R317): sum code and compensation. -/
def stateValue (s : Nat) (m : Int) : Int × Int :=
  dyAdd (dyadic (fp32.decode s)) (m, ulpExp s - 31)

/-- R317: one contribution element `x`, an FP32 code, applied to the state. -/
def accumulate (s : Nat) (m : Int) (x : Nat) : Nat × Int :=
  if !(fp32.decode s).isFinite || !(fp32.decode x).isFinite then (fp32Add s x false false, 0)
  else
    let v := dyAdd (stateValue s m) (dyadic (fp32.decode x))
    if v.1 = 0 then (0, 0)
    else
      let s' := (fp32.encode false false (ofDyadic v)).code
      if !(fp32.decode s').isFinite then (s', 0)
      else
        let d := dyAdd v (-(dyadic (fp32.decode s')).1, (dyadic (fp32.decode s')).2)
        (s', nearestInt d.1 (d.2 + 31 - ulpExp s'))

/-! ### Conversion views (R68 to R72) -/

/-- Stored element bytes per presented line, the scale byte excluded (R68). -/
def viewBytes (view : Nat) : Nat :=
  match view with
  | 0 => 64 | 1 => 128 | 2 => 128 | 3 => 32 | 4 => 32 | 5 => 32 | 6 => 32 | 7 => 24 | 8 => 24 | 9 => 16
  | _ => 64

/-- Whether a view is an MX view (R69). -/
def viewMx (view : Nat) : Bool := decide (5 ≤ view) && decide (view ≤ 9)

/-- The format code of the stored and of the presented elements. -/
def viewStored (view : Nat) : Nat :=
  match view with
  | 1 => 1 | 2 => 1 | 3 => 3 | 4 => 4 | 5 => 6 | 6 => 7 | 7 => 8 | 8 => 9 | 9 => 10
  | _ => 0
def viewShown (view : Nat) : Nat :=
  match view with
  | 1 => 3 | 2 => 2 | 3 => 1
  | _ => 3

/-- The presented length of an extent is a multiple of this (R68). -/
def viewMultiple (view : Nat) : Nat :=
  if view = 3 || view = 4 then 128 * 2 ^ 20 else if viewMx view then 4 * 2 ^ 30 else 64 * 2 ^ 20

/-- `stored_offset` of R49. -/
def storedOffset (view x : Nat) : Nat := x * viewBytes view / 64

/-- The stored length of a presented length (R68, R69). -/
def storedLength (view p : Nat) : Nat := storedOffset view p + (if viewMx view then p / 64 else 0)

/-- A presented line from its stored bytes and its scale byte (R71, loads). -/
def presentLine (view : Nat) (stored : Bytes) (scale : Nat) : Bytes :=
  if view = 0 then stored
  else
    let w := elemBits (viewStored view)
    let n := stored.length * 8 / w
    let vals := if viewMx view then mxDecode (mxElement (viewStored view)) (unpack w n stored) scale
      else (unpack w n stored).map (elemValue (viewStored view))
    repack (elemBits (viewShown view)) (vals.map fun x => (elemEncode (viewShown view) false false x).code)

/-- The stored bytes and scale of a full presented line (R71, stores). -/
def storeLine (view : Nat) (shown : Bytes) : Bytes × Nat :=
  if view = 0 then (shown, 0)
  else
    let w := elemBits (viewShown view)
    let vals := (unpack w (512 / w) shown).map (elemValue (viewShown view))
    if viewMx view then
      let r := mxEncode (mxElement (viewStored view)) false vals
      (repack (elemBits (viewStored view)) (r.2.map (·.code)), r.1)
    else (repack (elemBits (viewStored view)) (vals.map fun x => (elemEncode (viewStored view) false false x).code), 0)

/-- The byte enables of presented element `i` of `k` bytes. -/
def elemEnabled (be k i : Nat) : Bool := bits be (i * k) k != 0

/-- R72: a partial store through a view, from the stored bytes and scale to the new ones. Views 1 to 4 leave untouched
elements as they are; an MX block is converted whole. -/
def mergeView (view : Nat) (stored : Bytes) (scale : Nat) (data : Bytes) (be : Nat) : Bytes × Nat :=
  if view = 0 then (mergeBytes stored data be, 0)
  else
    let merged := mergeBytes (presentLine view stored scale) data be
    if viewMx view then storeLine view merged
    else
      let ws := elemBits (viewStored view)
      let old := unpack ws (stored.length * 8 / ws) stored
      let new := unpack ws (stored.length * 8 / ws) (storeLine view merged).1
      let k := elemBits (viewShown view) / 8
      (repack ws ((List.range old.length).map fun i =>
        if elemEnabled be k i then new.getD i 0 else old.getD i 0), 0)

end Sys2Proof.Machine
end

