-- ==== Sys2Proof/Machine/State.lean ====
section
/-! DEFINITION. The state of the block: everything the spec gives the node, as plain data, and the state after reset. -/
namespace Sys2Proof.Machine

/-- Faults of the block: none. The spec gives every command an effect (NOTES.md, Stops). The type is closed and empty
of reasons but for `stopped`, which no meaning raises: SAFE. -/
inductive Fault where
  | stopped
  deriving DecidableEq, Repr

/-- Refusals: `notModelled` is the answer of an arm of `exec` that has no meaning yet: SAFE. -/
inductive Refusal where
  | notModelled (mnemonic : String)
  deriving DecidableEq, Repr

/-! ### Memory requests at a home -/

/-- The kinds a home sorts requests into (R116), with the window accesses of R313 and R322 among the writes. -/
inductive MKind where
  | readShared | readOwn | invalidate | readCurrent | write | cleanEvict | engineRead | engineWrite
  deriving DecidableEq, Repr

/-- What an engine wants its access for; `a`, `b`, `c` name the record that waits for it. -/
inductive EngKind where
  | chunkRead | chunkWrite | descriptor | record | counter | rankList | segList | notify | migrate | resilver
  | clearPoison | atomic | append | drain | rdma | sweep | contrib | commit | poisonOp | logHead
  deriving DecidableEq, Repr

/-- The waiting record of an engine access. -/
structure EngRef where
  kind : EngKind := .chunkRead
  a : Nat := 0
  b : Nat := 0
  c : Nat := 0
  deriving DecidableEq, Repr

/-- Who a request is answered to: a host on a port of this node (the number of its record in `cxl.reqs`), a host
behind another node, an engine of this node, or an engine of another node (R41, R124). -/
inductive Who where
  | host (id : Nat)
  | node (coord tag : Nat)
  | engine (ref : EngRef)
  | nodeEngine (coord tag : Nat)
  deriving DecidableEq, Repr

/-- A memory request at its home (R116). `lines` counts the stored lines of an engine access; `holder` is the holder
record of R121 of a host requester; `wgen`, `seq` and `src` belong to a contribution (R322). -/
structure MReq where
  kind : MKind := .engineRead
  who : Who := .engine {}
  holder : Nat := 0
  dpa : Nat := 0
  lines : Nat := 1
  part : Nat := 0
  view : Nat := 0
  data : Bytes := []
  be : Nat := 0
  mval : Nat := 0
  poison : Bool := false
  contrib : Bool := false
  src : Nat := 0
  seq : Nat := 0
  wgen : Nat := 0
  twin : Bool := false
  fwd : Bool := false
  noRsp : Bool := false
  op : Nat := 0                   -- 0 plain; 1 ATOMIC, 2 APPEND, 3 an add of 1, 4 zeros and poison cleared, 5 a resilver unit's read, 6 a copied block
  aux : Nat := 0
  more : List (Nat × Nat × Bytes × Nat) := []   -- further stretches of a chunk write (R297): DPA, lines, bytes, byte enables
  deriving DecidableEq, Repr

/-- The stretches of a request, each as a request of its own (R297). -/
def MReq.stretches (r : MReq) : List MReq :=
  { r with more := [] } :: r.more.map fun x => { r with dpa := x.1, lines := x.2.1, data := x.2.2.1, be := x.2.2.2, more := [] }

/-- A home's answer to a memory request: STATUS of R357, the state granted (0 none, 1 shared, 2 owned), data, poison
and the window generation (R331). -/
structure MRsp where
  status : Nat := 0
  granted : Nat := 0
  data : Bytes := []
  wgen : Nat := 0
  role : Nat := 0
  cause : Nat := 0                -- 9 where a home of this node is sweeping (R466)
  deriving DecidableEq, Repr

/-! ### What the node sends -/

/-- Everything the node sends or drives outward, newest first in `State.out`. -/
inductive Emit where
  /-- a packet handed to this node's own Porter or homes (R341 eject) -/
  | ejected (p : Packet)
  /-- a flit on a fabric port (R369) -/
  | flit (port : Nat) (f : Flit)
  /-- S2M NDR: 0 Cmp, 1 Cmp-S, 2 Cmp-E, 3 BI-ConflictAck, with DevLoad (R86, R91) -/
  | ndr (port ld tag kind devLoad : Nat)
  /-- S2M DRS: MemData with or without poison (R86) -/
  | drs (port ld tag : Nat) (data : Bytes) (poison : Bool) (devLoad : Nat)
  /-- S2M BISnp: 0 Cur, 1 Data, 2 Inv; addressed with the BI-ID (R86, R92); a block form is for 2 or 4 lines from the address -/
  | bisnp (port ld biId kind pga bitag lines : Nat)
  /-- mailbox response: return code and payload (R99) -/
  | mailbox (port ld code : Nat) (payload : Bytes)
  /-- an MSI-X message, with the address and data of its vector (R483, R103) -/
  | msix (port ld vector addr data : Nat)
  /-- a register read's value (R104, R107) or a TDISP, DOE or SPDM answer -/
  | spdm (port ld code : Nat) (payload : Bytes)
  /-- a Nasidom response (R521): STATUS, TOTAL and the body; MORE is set where TOTAL lies beyond the request's OFFSET and the body -/
  | nasidom (sid req status total : Nat) (body : Bytes)
  /-- a Nasidom notice (R527): KIND, REQ_ID, and for a completion its entry (index × 256 + subindex) and STATUS; body -/
  | notice (sid kind req entry status : Nat) (body : Bytes)
  /-- a DTLS handshake's outcome (R517) -/
  | dtls (sid : Nat) (accepted : Bool)
  /-- an RDMA message to a remote queue pair (R507, R509 to R512): 0 ack, 1 read response, 2 write, 3 NAK, 4 CNP -/
  | rdma (qp kind va : Nat) (data : Bytes)
  /-- an ATS translation request, page request or invalidation completion on a port (R250, R262, R259): of a page request, bit 0 of the address
  says that it is for a write, and bit 2 is Last (R249) -/
  | ats (port ld kind pasid addr arg : Nat)
  /-- a demand, stage or history fill asked of the Storekeeper (R158) -/
  | fill (block cls : Nat)
  /-- a write-back handed to the Storekeeper, in the flash write-back class (R158) -/
  | writeBack (block cls : Nat)
  /-- to a LUN (R224, R229, R233): 0 a unit program, 1 an erase, 2 a read, 3 a suspension, 4 a resumption, 5 a program of a system page,
  6 a read with the n-th shift of the retry table, 7 a soft-decision read -/
  | flash (kind unit arg : Nat)
  /-- a DRAM maintenance command: refresh, pause, self-refresh (R189, R192, R195) -/
  | dram (stack pc kind : Nat)
  /-- a value shifted out of the test access port (R627) -/
  | tdo (value : Nat)
  /-- a value returned to a management core from its controller (R495) -/
  | claim (core value : Nat)
  deriving DecidableEq, Repr

/-! ### Events (16) -/

/-- A raised event or a log record (R498): DETAIL is 48 B, zero-filled. -/
structure Event where
  seq : Nat := 0
  code : Nat := 0
  severity : Nat := 0
  part : Option Nat := none
  time : Nat := 0
  detail : Bytes := []
  deriving DecidableEq, Repr

/-- One retained-summary entry (R501). -/
structure SumEntry where
  count : Nat := 0
  dropped : Nat := 0
  time : Nat := 0
  deriving DecidableEq, Repr

/-- One management core's interrupt controller (R493 to R497). -/
structure Sic where
  config : Tbl Nat := []      -- PRIORITY, TARGET, ENABLE by source (R494); default PRIORITY 15
  pending : List Nat := []    -- asserted sources
  stack : List (Nat × Nat) := [] -- (source, priority), top first (R495)
  faultEoi : Nat := 0
  faultTop : Nat := 0
  halted : Bool := false
  deriving DecidableEq, Repr

structure Evt where
  log : Tbl Event := []        -- ring by SEQ (R500)
  nextSeq : Nat := 0           -- SEQ of the next record
  queue : List Event := []     -- raised, not yet written, oldest first; at most 4,096 (R500)
  summary : Tbl SumEntry := [] -- retained summary by position (R501)
  dropped : Nat := 0           -- IRQ_EVENTS_DROPPED
  sic : Tbl Sic := []          -- by core 0–3
  deriving DecidableEq, Repr

/-! ### Fabric and links (11, 12) -/

/-- What a transaction tag was taken for, so that its response can be used (R360). -/
inductive TagUse where
  | mem (r : MReq)                         -- a host or engine request this node proxies (R40)
  | recallOp (rid : Nat)                     -- a RECALL sent to an ingress node (R132)
  | reserve (grant member : Nat)           -- RESERVE of a grant (R57), named by entry + 2^20 × its generation
  | windowBind (grant : Nat)               -- WINDOW_BIND (R311), named likewise
  | unref                                  -- UNREFERENCE (R65)
  | revokeRecall (bind home : Nat)         -- REVOKE_RECALL (R63)
  | rebind                                 -- REBIND_NOTICE (R74)
  | migrateReserve (entry : Nat)           -- MIGRATE_RESERVE (R74)
  | migrateData (entry block : Nat)        -- a copied block (R74)
  | handover (entry : Nat)                 -- MIGRATE_HANDOVER (R74)
  | migrateRelease                         -- MIGRATE_RELEASE (R578)
  | purge (port home : Nat)                -- PURGE (R111)
  | stage (stream block line : Nat)        -- STAGE (R174)
  | contrib (home seq : Nat) (r : MReq)    -- CONTRIB (R322)
  | resilver (entry unit : Nat)            -- a resilver unit (R425)
  | commit (r : EngRef)                    -- a part of a COMMIT (R294)
  | atomic (r : EngRef)                    -- ATOMIC or APPEND
  | chunk (r : EngRef)                     -- CHUNK_WRITE
  deriving DecidableEq, Repr

/-- The first response of a twinned request (R414). -/
structure TwinRsp where
  pkt : Packet := {}
  digest : Nat := 0
  passed : Bool := false
  due : Nat := 0
  windowDue : Nat := 0
  deriving DecidableEq, Repr

/-- A transaction tag that is not free (R360). -/
structure TagRec where
  use : TagUse := .unref
  dest : Nat := 0
  isOpen : Bool := true                    -- false: quarantined until `due` (R360), or held after a timeout (R588)
  held : Bool := false
  npk : Nat := 1                           -- response packets awaited (R361)
  got : List (Nat × Nat) := []             -- (responder, packet index) already consumed (R393)
  data : Tbl Bytes := []                   -- DATA payloads by index (R361)
  due : Nat := 0
  twin : Option TwinRsp := none
  twinned : Bool := false
  pga : Nat := 0
  deriving DecidableEq, Repr

/-- A multi-packet operation being received (R361). -/
structure PartialOp where
  got : List Nat := []
  npk : Nat := 0
  parts : Tbl Packet := []
  due : Nat := 0
  deriving DecidableEq, Repr

/-- A packet in the transit area (R348); `expires` is set for one taken from a replay buffer (R390). -/
structure Transit where
  pkt : Packet := {}
  cls : Nat := 2
  expires : Option Nat := none
  atWpt : Bool := false            -- it reached its waypoint here (R341)
  deriving DecidableEq, Repr

/-- Repeats of a FAULT or UP notice (R346). -/
structure Repeat where
  link : Nat := 0
  up : Bool := false
  left : Nat := 0
  due : Nat := 0
  deriving DecidableEq, Repr

structure MarStats where
  injected : Nat := 0
  ejected : Nat := 0
  transit : Nat := 0
  waypoint : Nat := 0
  hopLimit : Nat := 0
  unreachable : Nat := 0
  malformed : Nat := 0
  bypassDiscards : Nat := 0
  stray : Nat := 0
  deriving DecidableEq, Repr

/-- A transfer waiting at a scheduler: counted length, VC and packet (R430). -/
structure QItem where
  len : Nat := 64
  vc : Nat := 0
  half : Nat := 0                 -- half of a bifurcated CXL port (R429)
  need : Nat := 1                 -- free buffers its VC must have (R345)
  pkt : Option Packet := none
  deriving DecidableEq, Repr

/-- A request that waits for a transaction tag (R360): its packet and use, the response packets it awaits, its class, and whether it was
generated while another request was served and so takes a reserved tag (R344). -/
structure Waiting where
  pkt : Packet := {}
  use : TagUse := .unref
  npk : Nat := 1
  cls : Nat := 2
  gen : Bool := false
  deriving DecidableEq, Repr

structure Mar where
  failed : List Nat := []            -- failed-link table: coordinates + 4096 × dimension (R346), at most 64
  repeats : List Repeat := []        -- notices still to repeat (R346)
  transit : List Transit := []       -- transit area, arrival order (R348)
  transitWait : List Transit := []   -- packets that wait for room in the transit area, in order (R348)
  spill : List (Packet × Nat) := []  -- spill queue with traffic class (R344)
  spillFull : Bool := false          -- ejection of requests for own homes paused (R344)
  route : Tbl Nat := []              -- routing entries written since the last MAR_ROUTE_RESET (R350)
  routeSize : Nat := 0               -- MAR_RING_SIZE at the last MAR_ROUTE_RESET, which the defaults of the others follow (R350)
  tags : Tbl TagRec := []            -- tags not free (R360)
  waiting : List Waiting := []       -- requests waiting for a tag (R360)
  chunks : Tbl PartialOp := []       -- partly received operations by source × 65,536 + tag (R361)
  firstLeg : List (Nat × Nat) := []  -- packets on their first leg to a waypoint: the waypoint and the packet's tag (R352)
  legWait : List (Packet × Nat) := []-- packets waiting for a waypoint place (R352)
  portWait : List (Nat × QItem × Nat) := [] -- packets waiting for a port's class queue: port, transfer, class (R432)
  rank : Tbl Nat := []               -- rank-table entries in use (R365)
  units : Tbl Nat := []              -- rank-table units in use: by unit, the contexts that use its slice (R365)
  stats : MarStats := {}
  stalls : Nat := 0                  -- MAR_TAG_STALLS (R360)
  refusals : Nat := 0                -- MAR_RANK_REFUSALS
  deriving DecidableEq, Repr

/-- A flit of a packet, waiting to be sent or kept for replay (R377): the packet it belongs to, that packet's number
on the link, and when the flit was last sent. -/
structure Sent where
  flit : Flit := {}
  pkt : Packet := {}
  cls : Nat := 2
  pid : Nat := 0
  sentAt : Nat := 0
  deriving DecidableEq, Repr

/-- The receive stream of one VC: bytes of a packet not yet whole, buffers not yet attributed, side items (R372, R373). -/
structure RxVc where
  bytes : Bytes := []
  units : Nat := 0
  freed : Nat := 0
  deriving DecidableEq, Repr

/-- One fabric port's link (R385). -/
structure Link where
  state : Nat := 0                -- LNK_STATE: 0 disabled … 6 MISCABLED
  phyLocked : Bool := false
  reversed : Bool := false        -- the lane map (R389, R624): lane order reversal, and the lanes of inverted polarity
  polarity : Nat := 0
  u : Nat := 0                    -- oldest unacknowledged sequence number (R380)
  n : Nat := 0                    -- next sequence number (R377)
  replay : List Sent := []        -- oldest first, at most 1,536 (R377)
  sentUnits : List Nat := [0, 0, 0, 0, 0]  -- units sent per VC (R375)
  totals : List Nat := [0, 0, 0, 0, 0]     -- latest credit totals received (R375)
  farBuffers : List Nat := [0, 0, 0, 0, 0] -- BUFFERS of the far end's offer (R388)
  replays : Nat := 0              -- replays from the same U (R383)
  outq : List Sent := []          -- flits of packets taken from the scheduler and not yet sent
  nextPid : Nat := 0
  cvc : Nat := 0                  -- next VC in the credit rotation (R376)
  e : Nat := 0                    -- next expected sequence number (R378)
  nakPending : Bool := false
  nakDue : Nat := 0
  unreported : Nat := 0           -- accepted flits not yet reported (R379)
  unreportedAt : Nat := 0
  lastSentAt : Nat := 0
  lastGoodAt : Nat := 0
  rx : Tbl RxVc := []             -- receive stream by VC
  arrived : List (Packet × Nat × Nat) := [] -- whole packets with VC and buffer units, arrival order
  nonce : Nat := 0                -- NONCE of the current offer (R387)
  sendUp : Bool := false          -- our offer was accepted (R388)
  recvUp : Bool := false          -- their offer was accepted (R388)
  offerDue : Nat := 0
  retryDue : Nat := 0
  stats : List Nat := List.replicate 13 0  -- LNK_STATS in order (R396)
  deriving DecidableEq, Repr

structure Lnk where
  ports : Tbl Link := []          -- by port 0–6
  accept : Tbl Nat := []          -- acceptance record by source × 65,536 + tag (R391)
  reinjected : Nat := 0
  reinjectExpired : Nat := 0
  dupDiscards : Nat := 0
  deriving DecidableEq, Repr

/-! ### Weigh-house (14) -/

/-- One class of one scheduler (R431 to R439). Credits are in units of 2^-16 B. -/
structure WClass where
  queue : List QItem := []
  weight : Nat := 4
  rate : Nat := 0
  burst : Nat := 65536
  overhead : Nat := 0
  nextWeight : Nat := 4
  nextRate : Nat := 0
  nextBurst : Nat := 65536
  nextOverhead : Nat := 0
  deficit : Nat := 0
  visited : Bool := false
  credit : Nat := 0
  wheel : Option Nat := none      -- slot number the class is entered at (R439)
  transfers : Nat := 0
  bytes : Nat := 0
  creditHolds : Nat := 0
  gateHolds : Nat := 0
  peak : Nat := 0
  deriving DecidableEq, Repr

/-- One scheduler (R435). -/
structure Sched where
  cls : Tbl WClass := []
  ptr : Nat := 2
  tcredit : Nat := 0
  throttle : Nat := 100
  throttleLimit : Nat := 100
  gates : List Nat := []
  gateBase : Nat := 0
  nextGates : Option (List Nat × Nat) := none  -- a gate list and base waiting for their time (R442)
  nextAt : Nat := 0               -- when they take effect
  setGates : List Nat := []       -- what WGH_GATE_LIST reads
  setBase : Nat := 0
  lastSlot : Nat := 0
  gateIdx : Nat := 0              -- entry of the gate list in force
  deriving DecidableEq, Repr

structure Wgh where
  sched : Tbl Sched := []
  watchdogEvent : Bool := false   -- the watchdog fired since the last refill (R444)
  privEvent : Bool := false       -- SAFE_THROTTLE was written since the last refill (R444)
  clearEvent : Bool := false
  watchdogCause : Bool := false
  privCause : Bool := false
  safeInForce : Bool := false
  loopRuns : Nat := 0             -- loop ticks since Sahtin's restart (R444)
  deriving DecidableEq, Repr

/-! ### DRAM, cache frames and streams (05, 06) -/

/-- The metadata of a stored line (R201): VALID, POISON, EPOCH, and what the TAG binds: the partition, the epoch's
seed and the DPA line it was written for (R457). -/
structure LineMeta where
  valid : Bool := false
  poison : Bool := false
  epoch : Nat := 0
  part : Nat := 0
  seed : Nat := 0
  line : Nat := 0
  deriving DecidableEq, Repr

/-- The timing set of one level of a stack (R191): command timings, PHY delays by pseudo-channel, equalisation coefficients, and drift
state. Its trained values are free values (log 115, DESIGN CHOICE). -/
structure TimingSet where
  timings : Nat := 0
  equalisation : Nat := 0
  readDelay : Tbl Nat := []       -- by pseudo-channel (R195)
  writeDelay : Tbl Nat := []
  oscillator : Tbl Nat := []      -- the write-clock oscillator as last measured, by pseudo-channel (R195)
  drift : Tbl Nat := []           -- consecutive largest-step pauses by pseudo-channel (R197)
  deriving DecidableEq, Repr

/-- One DRAM stack (R189 to R199, R211). -/
structure Stack where
  level : Nat := 1                -- the level whose timing set is active (R191, R194)
  sets : Tbl TimingSet := []      -- the three timing sets by level: the active one and two shadow sets (R191)
  changing : Option Nat := none   -- level being changed to (R192)
  changeFrom : Nat := 0           -- t0 of the change: when the pauses in progress at its request end (R193)
  changeDue : Nat := 0            -- t5 of the change
  pendingLevel : Option Nat := none
  limit : Nat := 0                -- HBM_LEVEL_LIMIT
  temp : Int := 25                -- HBM_TEMP
  refresh : Nat := 3900           -- refresh interval in ns (R189, R190)
  refreshDue : Nat := 0
  bank : Nat := 0                 -- next bank of the refresh cycle
  openRow : Tbl Nat := []         -- open row + 1 by pseudo-channel × 32 + bank (R187)
  pauseDue : List Nat := []       -- pseudo-channels whose pause is due (R196)
  pauseAt : Tbl Nat := []         -- when a pseudo-channel was last paused
  pauseTemp : Tbl Int := []       -- temperature at its last pause
  carried : Tbl Nat := []         -- steps of R195 moved to the next pause of a pseudo-channel
  trainRows : Tbl Nat := []       -- the pattern last written to the training rows, by pseudo-channel (R186, R195)
  repairs : Tbl Nat := []         -- rows repaired into repair rows, by pseudo-channel (R186, R199)
  marks : Tbl Nat := []           -- marked device by pseudo-channel (R202)
  symbols : Tbl (List Nat) := []  -- times of the corrected symbols of the last second, newest first, by pseudo-channel × 16 + device (R202)
  drained : Bool := false         -- HBM_STACK_DRAIN has completed and has not been released (R198)
  retraining : Bool := false
  ask : Ask := {}                 -- who asked for the retraining
  trained : Bool := false         -- cold training has run since power-up (R199)
  bisted : Bool := false
  scrubbed : Tbl Nat := []        -- lines the patrol has read, with 1 + the number of the `HBM_SCRUB_PERIOD` in which it last did (R207)
  drainAsks : List Ask := []      -- drains that wait for a change of level to end (R198)
  stats : List Nat := List.replicate 12 0 -- HBM_STATS in order (R211)
  deriving DecidableEq, Repr

/-- One copy of a critical word (R208): the 64-bit value last written to it, whether it has been damaged since, so that it disagrees
with the other copies, and the sliver (stack × 64 + pseudo-channel) whose critical-word area holds a DRAM copy. -/
structure CritCopy where
  value : Nat := 0
  damaged : Bool := false
  sliver : Option Nat := none
  deriving DecidableEq, Repr

structure Mem where
  data : Tbl Byte := []           -- DRAM bytes by DRAM address (R51); unlisted reads 0
  info : Tbl LineMeta := []       -- line metadata by DRAM address div 64
  damage : Tbl (List (Nat × Nat)) := [] -- physical errors of a line: (codeword, symbol)
  hbmStacks : Tbl Stack := []
  crit : Tbl (List CritCopy) := []  -- critical words in use, by word number 0–255: their six copies, on-die 0–2 and DRAM 3–5 (R208)
  critRepairs : Nat := 0
  driftEvents : Nat := 0
  deriving DecidableEq, Repr

/-- A frame's tag (R156) with its write-back snapshot. Keyed by the DPA block it holds; `slot` is the frame of the
block's stack. -/
structure Frame where
  slot : Nat := 0
  state : Nat := 0                -- 1 filling, 2 clean, 3 dirty, 4 writing back
  part : Nat := 0
  pinned : Bool := false
  staged : Bool := false
  fillErr : Bool := false
  touch : Nat := 0
  stageLine : Nat := 0
  stageTime : Nat := 0
  unitGen : Nat := 0
  dirty : List Nat := []
  snapshot : List Nat := []
  cls : Nat := 2                  -- class of the fill
  victim : Bool := false          -- freed when its write-back ends (R163)
  evicting : Bool := false        -- its tracked lines are being recalled (R141)
  deriving DecidableEq, Repr

/-- A commit in progress at this home (R167). -/
structure CommitOp where
  who : Who := .engine {}
  ask : Ask := {}
  nasidom : Bool := false
  lo : Nat := 0
  hi : Nat := 0
  part : Nat := 0
  status : Nat := 0
  twin : Bool := false
  recalling : List Nat := []      -- recalls awaited (RECALL)
  blocks : List Nat := []         -- blocks whose write-back is awaited
  again : List Nat := []          -- blocks to write back once more
  deriving DecidableEq, Repr

/-- A stream record (R171) with the segments the Carter has fetched. -/
structure Stream where
  state : Nat := 1
  part : Nat := 0
  loop : Bool := false
  source : Nat := 0
  haltCause : Nat := 0
  bind : Nat := 0
  list : Nat := 0
  listCount : Nat := 0
  lookahead : Nat := 0x400000000
  position : Nat := 0
  stagedTo : Nat := 0
  passes : Nat := 0
  segs : List (Nat × Nat) := []   -- fetched segments (R172)
  fetched : Nat := 0              -- bytes of the list fetched so far
  partial_ : Bytes := []          -- of these, the bytes of an entry that has not arrived whole
  stepped : Nat := 0              -- of a log: 0 no stage step is due, 1 one is and needs TAIL, 2 it runs with TAIL just read (R179)
  fetching : Nat := 0             -- 0 nothing, 1 a piece of the list, 2 the log header on its way
  tail : Nat := 0                 -- TAIL last read of a log (R179)
  logTable : Nat := 0             -- SEG_TABLE, SEG_COUNT and SEG_SHIFT last read (R177)
  logCount : Nat := 0
  logShift : Nat := 26
  retry : List (Nat × Nat × Nat) := [] -- (block, STAGE_LINE, due) to send again (R174)
  deriving DecidableEq, Repr

/-- A stage request at its home (R174): who asked (coordinates and tag, or a stream of this node), and what. -/
structure StageReq where
  block : Nat := 0
  part : Nat := 0
  line : Nat := 0
  src : Nat := 0
  tag : Nat := 0
  twin : Bool := false
  stream : Option Nat := none
  started : Bool := false         -- its own fill is on the way, the frame STAGED since it was allocated (R159)
  quiet : Bool := false           -- a follower's request whose event has RESPOND clear (R409)
  deriving DecidableEq, Repr

structure Car where
  tiered : Bool := true           -- CAR_MODE in force (R150)
  frames : Tbl Frame := []
  commits : Tbl CommitOp := []
  streams : Tbl Stream := []
  stageOut : Nat := 0             -- stage requests outstanding (R175)
  stageQueue : List StageReq := []  -- stage requests whose fill has not been requested (R175)
  stageFills : List StageReq := []  -- stage requests whose fill is on its way
  history : Tbl (Nat × Nat × Nat) := []     -- block to (successor, confidence, last use)
  lastMiss : Tbl (Nat × Nat) := []          -- last missed block and time by logical device
  stats : List Nat := List.replicate 8 0    -- CAR_STATS in order (R183)
  stageDrops : Nat := 0
  tagCache : Tbl (List Nat) := [] -- by stack, the blocks whose tag headers the die holds, most recent first (R157)
  histWait : List (Nat × Nat) := []  -- history fills that wait for a frame: block and partition (R163, R176)
  draining : Bool := false        -- dirty frames have exceeded CAR_DIRTY_HIGH and not yet fallen to CAR_DIRTY_LOW (R165)
  deriving DecidableEq, Repr

/-! ### Ledger (04) -/

/-- A tracked line (R120): the holders in record order with the view each uses (R73); `owned` is STATE 2. -/
structure LEntry where
  owned : Bool := false
  holders : List (Nat × Nat) := [] -- (holder record of R121, view)
  touch : Nat := 0
  chain : List Nat := []          -- the overflow blocks it takes, by index in the slice's share, first block first (R120, R122)
  deriving DecidableEq, Repr

/-- How far a transaction has come: waiting to block its next line, recalling a victim of its set (R138), recalling
its lines' holders (R130), waiting for a frame or a fill (R159), waiting for the acknowledgement (R124). -/
inductive TPhase where
  | blocking | victim | recalling | filling | acking
  deriving DecidableEq, Repr

/-- A request accepted by a slice (R124): its stored lines in ascending order, how many it has blocked, the recalls
it waits for, and the acknowledgement deadline of R125. -/
structure Txn where
  req : MReq := {}
  lines : List Nat := []
  got : Nat := 0
  phase : TPhase := .blocking
  recalls : List Nat := []
  ackDue : Nat := 0
  ledger : List Nat := []         -- its lines that the Ledger is consulted for (R36): those it blocks and recalls
  passed : Nat := 0               -- row hits to its bank that came after it and were served before it (R188)
  front : List Nat := []          -- lines whose HOLDER0 was recalled for it (R123)
  counted : Bool := false         -- its lines have been counted as hits or misses of the DRAM cache (R183)
  deriving DecidableEq, Repr

/-- Whose recall it is, to be told when it ends. -/
inductive ROwner where
  | txn (id : Nat)
  | evict (block : Nat)
  | commit (id : Nat)
  | revoke (id : Nat)
  | migrate (entry : Nat)
  | clear (entry : Nat)
  | sweep (part : Nat)
  | nobody
  deriving DecidableEq, Repr

/-- A recall outstanding at this home (R130): `line` is the stored line, `shown` the presented line its BISnp names
(R73); `due` is none until the BISnp or RECALL message has left (R90, R133). -/
structure Recall where
  owner : ROwner := .nobody
  line : Nat := 0
  shown : Nat := 0
  holder : Nat := 0
  view : Nat := 0
  kind : Nat := 2                 -- 0 Cur, 1 Data, 2 Inv
  remote : Bool := false
  due : Option Nat := none
  conflict : Bool := false        -- a BIConflict waits for its request (R131)
  best : Nat := 0                 -- strongest answer so far for its stored line (R73): 0 I, 1 S, 2 E
  stop : Bool := false            -- write-back data for it is discarded (R59, R467)
  rides : Option Nat := none      -- the recall whose BISnp also serves this one: same holder and presented line (R73), or one block form (R86)
  blk : Nat := 1                  -- lines that its BISnp is for: 2 or 4 for a block form (R86)
  gone : Bool := false            -- its shared holder went with a port reset, and the recall is over (R110)
  deriving DecidableEq, Repr

/-- A recall this node runs for another home as the holder's ingress node (R132). -/
structure Proxy where
  home : Nat := 0
  tag : Nat := 0
  port : Nat := 0
  ld : Nat := 0
  pga : Nat := 0
  kind : Nat := 2
  view : Nat := 0
  part : Nat := 0
  due : Option Nat := none
  span : Nat := 0                 -- the home's ledger timeout in ns
  wb : Option (Bytes × Nat × Bool) := none
  twin : Option Nat := none       -- partner that also gets the response (R405)
  deriving DecidableEq, Repr

/-- One slice's lockstep channels and counts (R142 to R145, R149). -/
structure Slice where
  fenced : List Nat := []
  fences : List Nat := [0, 0, 0]  -- times each channel was fenced since node recovery
  readmits : Nat := 0
  autoDue : Option Nat := none    -- 10 ms after the fence (R144)
  stopped : Bool := false
  lookups : Nat := 0
  recallsSent : Nat := 0
  peakOpen : Nat := 0
  peakQueue : Nat := 0
  scanning : List Nat := []       -- Ledger sets being scanned (R596)
  deriving DecidableEq, Repr

structure Ldg where
  entries : Tbl LEntry := []      -- by stored line (DPA div 64)
  txns : Tbl Txn := []
  queue : Tbl (List Nat) := []    -- conflict queue: waiting transactions by line, oldest first (R127)
  blocked : Tbl Nat := []         -- blocked line to its transaction (R124)
  writeBacks : Tbl Nat := []      -- node time of an owner's last write-back, by stored line (R135)
  owed : Tbl Nat := []            -- lines to be poisoned once their block is in DRAM again, with their partition (R135, R147)
  recalls : Tbl Recall := []
  birsps : List (Nat × Nat × Nat) := []  -- host responses that wait for their owner's writes to reach the stack: recall, kind, line (R119, R192)
  rsps : List Packet := []        -- recall responses whose write-back waits for a stack (R192, R196)
  cache : Tbl (List Nat) := []    -- Ledger cache by slice: the lines whose entries the die holds, latest use first (R122, R148)
  proxies : Tbl Proxy := []
  slices : Tbl Slice := []
  nextId : Nat := 0
  poisoned : Tbl Nat := []        -- lines poisoned under R135 by partition
  late : Nat := 0
  ackTimeouts : Nat := 0
  forced : Nat := 0
  displaced : Nat := 0
  deriving DecidableEq, Repr

/-! ### Lending book (02) -/

/-- A lending-book entry (R54). A binding also holds what its decode records carry: the window generation (R322) and
the twin partner (R403). -/
structure BookEntry where
  kind : Nat := 0
  state : Nat := 0
  part : Nat := 0
  read : Bool := false
  write : Bool := false
  view : Nat := 0
  window : Bool := false
  twin : Nat := 0
  ilv : Bool := false
  gen : Nat := 0
  base : Nat := 0
  length : Nat := 0
  target : Nat := 0
  port : Nat := 0
  ld : Nat := 0
  region : Nat := 0
  count : Nat := 0
  forward : Nat := 0
  stamp : Nat := 0
  wgen : Nat := 0
  isWin : Bool := false
  partner : Option Nat := none
  deriving DecidableEq, Repr

/-- An interleave set (R48). -/
structure ISet where
  ways : Nat := 1
  granule : Nat := 0
  members : List (Nat × Nat) := []  -- (home coordinates, DPA base)
  deriving DecidableEq, Repr

/-- A grant or window bind in progress at the ingress node (R57, R311), by binding entry. -/
structure Grant where
  ask : Ask := {}
  homes : List Nat := []          -- member homes in order
  bases : Tbl Nat := []           -- DPA base answered, by member
  due : Nat := 0                  -- RESERVE deadline, then the host's (R58, R96)
  offered : Bool := false         -- the Add Capacity event has been raised (t3)
  window : Bool := false
  bindOnly : Bool := false
  winPga : Nat := 0
  deriving DecidableEq, Repr

/-- A revoke past its revoke point (R63), by binding entry. -/
structure Revoke where
  asks : List Ask := []
  homes : List Nat := []          -- homes that have not answered
  resend : Nat := 0
  deriving DecidableEq, Repr

/-- The recalls a home runs for a REVOKE_RECALL (R63), and whom it answers. -/
structure RevokeHome where
  src : Nat := 0
  tag : Nat := 0
  recalls : List Nat := []
  deriving DecidableEq, Repr

/-- A home range being cleared before it turns active (R59), by home entry; answered to `src`, `tag` or to a local
binding. -/
structure Clear where
  src : Nat := 0
  tag : Nat := 0
  here : Option (Nat × Nat) := none  -- (grant, member) of a grant of this node
  migrate : Bool := false
  sweep : Bool := false              -- the range Sweep of R469 runs in place of the clear
  recalls : List Nat := []           -- its recalls (t1 of R467)
  params : Bytes := []               -- window parameters of R335
  pins : Option (List Nat) := none   -- a granted window's blocks still to be pinned (R166)
  ready : Bool := false              -- recalls ended, and the clear itself started
  deriving DecidableEq, Repr

/-- A migration at the old home (R74), by home entry. -/
structure Migrate where
  ask : Ask := {}
  dest : Nat := 0
  destBase : Nat := 0
  phase : Nat := 0                -- 0 reserving, 1 copying, 2 blocked for the last copy, 3 handed over
  marked : List Nat := []         -- blocks (offsets div 64 KiB) written since they were copied
  copying : List Nat := []        -- blocks on their way
  todo : List Nat := []           -- blocks still to be sent
  sent : Bool := false            -- the handover is on its way
  recalls : List Nat := []
  held : List MReq := []          -- requests that wait (t2)
  deriving DecidableEq, Repr

/-- The error record of a home for a write that was dropped (R44; its form, and that no bound limits them: log 121, DESIGN CHOICE): the DPA,
the node whose request it was, that request's partition, its STATUS and the node time. -/
structure HomeErr where
  dpa : Nat := 0
  src : Nat := 0
  part : Nat := 0
  status : Nat := 0
  time : Nat := 0
  deriving DecidableEq, Repr

structure Pga where
  book : Tbl BookEntry := []
  gens : Tbl Nat := []            -- ENTRY_GEN of free entries
  generation : Nat := 0           -- R55
  isets : Tbl ISet := []
  lastPart : Tbl Nat := []        -- granule (DPA div 64 MiB) to last owning partition + 1 (R56, R67)
  clean : Tbl Bool := []          -- granules marked clean though last owned (R470)
  grants : Tbl Grant := []
  revokes : Tbl Revoke := []
  revokeHome : Tbl RevokeHome := []
  clears : Tbl Clear := []
  releases : Tbl (Ask × Nat) := []  -- unforced revokes waiting for the host, with deadline (R97)
  migrates : Tbl Migrate := []
  drains : Tbl Nat := []          -- drain window ends by home entry (R74)
  binders : Tbl (List Nat) := []  -- nodes that hold a binding to a home range
  accessErrors : Tbl Nat := []    -- by partition
  freed : Tbl Nat := []           -- STAMP of free entries: when they became free (R54)
  cache : Tbl (List (Nat × Nat)) := []  -- entry cache by CXL stop: binding entry and granule of its decode records, latest use first (R47)
  errors : List HomeErr := []     -- error records of this home, newest first (R44)
  rebindDue : List (Nat × Nat × Nat) := []  -- old PGA, new PGA, length: rebinds this node owes itself (R74, t4)
  deriving DecidableEq, Repr

/-! ### CXL ports (03) -/

/-- An HDM decoder (R93, R94). -/
structure Decoder where
  base : Nat := 0
  size : Nat := 0
  dpa : Nat := 0
  ways : Nat := 1
  gran : Nat := 256
  pos : Nat := 0
  committed : Bool := false
  error : Bool := false
  locked : Bool := false
  deriving DecidableEq, Repr

/-- One CXL event log of a logical device (R101). -/
structure EvLog where
  records : List (Nat × Bytes) := []  -- (handle, record), oldest first; at most 256
  next : Nat := 1
  overflow : Nat := 0
  first : Nat := 0
  last : Nat := 0
  deriving DecidableEq, Repr

/-- One logical device's CXL state (R92 to R104). -/
structure Ld where
  bi : Option Nat := none
  decoders : Tbl Decoder := []
  regions : List Nat := [0, 0, 0, 0, 0, 0, 0, 0]
  stray : Nat := 0
  logs : Tbl EvLog := []          -- 0 informational, 1 warning, 2 failure, 3 fatal, 4 dynamic capacity
  policy : Nat := 0               -- Set Event Interrupt Policy, 8 bits per log
  aer : Nat := 0                  -- AER Correctable Error Status (R79, R103)
  rasCor : Nat := 0               -- CXL RAS capability: Correctable and Uncorrectable Error Status (R79, R103)
  rasUnc : Nat := 0
  stampBase : Nat := 0            -- timestamp set, and the node time at which it was set
  stampAt : Nat := 0
  deriving DecidableEq, Repr

/-- One CXL port (R108, R109). -/
structure Port where
  state : Nat := 0                -- CXL_PORT_STATE
  perst : Bool := true            -- CXLnn_PERST_N asserted
  rate : Nat := 0
  width : Nat := 0
  latencyOpt : Bool := false      -- flit format of the link: 256 B latency-optimised, else standard (R79)
  bifurcated : Bool := false      -- setting in force
  bifurcate : Nat := 0            -- CXL_PORT_BIFURCATE
  ldCount : Nat := 1
  held : Bool := false            -- held by TST_CXL_HOLD
  done : Bool := false            -- the reset actions are complete, and the port waits for its reset input
  linkErrors : Nat := 0
  deriving DecidableEq, Repr

/-- An outstanding M2S request of a host (R40, R89). -/
structure HostReq where
  port : Nat := 0
  ld : Nat := 0
  tag : Nat := 0
  bind : Option Nat := none       -- the binding whose count it holds
  lda : Nat := 0
  opcode : Nat := 0               -- 0 NDR answer Cmp, 1 Cmp-S or Cmp-E by grant, 2 data
  op : Nat := 0                   -- operation of its error record (R102)
  part : Nat := 0
  deriving DecidableEq, Repr

/-- A host request held while its home has not answered a purge (R111). -/
structure PurgeWait where
  id : Nat := 0
  req : MReq := {}
  home : Nat := 0
  pga : Nat := 0
  due : Nat := 0
  deriving DecidableEq, Repr

structure Cxl where
  ports : Tbl Port := []
  lds : Tbl Ld := []              -- by port × 16 + logical device
  reqs : Tbl HostReq := []
  nextReq : Nat := 0
  purges : Tbl (List Nat × Nat × Nat) := [] -- by port key: homes not answered, next resend, logical devices
  purgeWait : List PurgeWait := []
  purgeDue : List Nat := []       -- port keys whose purges after a node recovery leave when the links have resynchronised (R111)
  conflicts : List (Nat × Nat × Nat × Nat) := [] -- BIConflicts waiting: port, ld, line, bitag (R131)
  probes : List (Nat × Nat × Nat) := []          -- BIConflicts whose probe has not been answered: port, ld, bitag (R134)
  afterReq : List (Nat × Nat × Nat × Nat) := []  -- BI-ConflictAcks due after a request's completion: request, port, ld, bitag (R134)
  alerts : Nat := 0               -- the four latches of R107
  heartbeat : Nat := 0
  deriving DecidableEq, Repr

/-! ### Windows (10) -/

/-- A window record (R316) with its binder map and re-arm in progress (R329). -/
structure Win where
  state : Nat := 1
  isOver : Bool := false
  inFmt : Nat := 1
  outFmt : Nat := 1
  gen : Nat := 0
  expected : Nat := 1
  elements : Nat := 64
  notify : Nat := 0
  count : Nat := 0
  applied : Nat := 0
  stale : Nat := 0
  dup : Nat := 0
  rejected : Nat := 0
  binders : List Nat := []
  awaited : List Nat := []
  nextExpected : Nat := 0
  rearmDue : Nat := 0
  ask : Ask := {}
  held : List MReq := []
  deriving DecidableEq, Repr

/-- A source's filter record (R324): BASE and the map as the list of marked distances. -/
structure Filter where
  base : Nat := 0
  seen : List Nat := []
  deriving DecidableEq, Repr

/-- A contribution this node has sent and that has neither response nor acknowledged release (R323). -/
structure Contrib where
  home : Nat := 0
  seq : Nat := 0
  wgen : Nat := 0
  bind : Nat := 0
  req : MReq := {}
  released : Bool := false
  replied : Bool := false         -- released, and its late response has freed its place (R323)
  due : Nat := 0
  deriving DecidableEq, Repr

structure WinState where
  recs : Tbl Win := []            -- by home entry
  filters : Tbl Filter := []      -- by source
  seqs : Tbl Nat := []            -- this node's counter by home (R322)
  out : List Contrib := []        -- outstanding (R323)
  waiting : List (MReq × Nat × Nat) := []  -- contributions waiting at the source: request, home, binding
  owed : List (Nat × Nat × Nat) := []      -- generation notices not yet acknowledged: home, window PGA, generation (R329)
  stats : List Nat := List.replicate 8 0   -- WIN_STATS in order (R335)
  stalls : Nat := 0
  notifies : List Nat := []       -- home entries whose completion has still to increment NOTIFY (R327)
  deriving DecidableEq, Repr

/-! ### Twins (13) -/

/-- A twin record (R401) with its change map; by home entry. -/
structure Twin where
  made : Bool := false            -- this node's entry was allocated by the attach (R400)
  role : Nat := 0
  state : Nat := 0
  full : Bool := false
  partner : Nat := 0
  pos : Nat := 0
  changed : List Nat := []
  lastOrder : Nat := 0
  stateTime : Nat := 0
  divergences : Nat := 0
  since : Option (List Nat) := none  -- after a takeover by this node: the DPA lines written since (R417)
  rebound : Nat := 0              -- of a copy that a TWN_DETACH keeps: bindings that have been rebound to it (R402)
  deriving DecidableEq, Repr

/-- A stamped event as a STAMP message carries it (R407). -/
structure StampEv where
  order : Nat := 0
  src : Nat := 0
  tag : Nat := 0
  kind : Nat := 0
  respond : Bool := false
  term : Nat := 0                 -- TERM of the message that carried it
  deriving DecidableEq, Repr

structure TwnState where
  term : Nat := 0
  order : Nat := 0                -- next ORDER of this node's stream
  applied : Nat := 0              -- next ORDER of the partner's stream to apply
  recs : Tbl Twin := []
  history : List (Nat × Nat × Nat) := []   -- (ORDER, DPA, lines) of the last events stamped (R407)
  seenPair : Nat := 0             -- time of the last heartbeat by either path
  seen : Bool := false            -- a heartbeat has arrived since the partner was last lost
  named : Bool := false           -- the partner names this node in return: a heartbeat of it has come (R397)
  unitStalled : Bool := false     -- the next resilver unit waits for a tag and has been counted (R360)
  partnerStale : Bool := false    -- the follower reported STALE (R411)
  heldReq : List (Packet) := []   -- requests held for their events (R409)
  heldRsp : List (Packet) := []   -- recall responses held (R409)
  pending : List (StampEv × Nat) := []     -- received events not yet applied, with the body-wait deadline
  units : Tbl (List Packet) := []          -- resilver units received, by tag
  resilver : Option (Nat × Nat × Nat) := none  -- unit being copied: entry, unit, tag
  detach : Tbl (Ask × Nat) := []  -- TWN_DETACH waiting for the rebind (R402)
  swap : Option (Ask × Nat) := none  -- swap waiting: who asked, VERIFY
  swapped : Bool := false         -- SWAP is stamped, and the partner has not yet taken the role (R424)
  verify : Bool := false          -- the SWAP on its way asks for VERIFY
  verifying : List Nat := []      -- physical units whose VERIFY read has not ended (R424)
  hbDue : Nat := 0
  lost : Nat := 0
  stats : List Nat := List.replicate 10 0  -- TWN_STATS in order (R428)
  lastDiv : Bytes := List.replicate 48 0
  lastMissing : Nat := 0
  deriving DecidableEq, Repr

/-! ### On-die ring (01) -/

/-- A packet on the ring (R29 to R32): stops, line, class and the memory request it carries. -/
structure RingPkt where
  src : Nat := 0
  dst : Nat := 0
  line : Nat := 0
  isReq : Bool := true
  ring : Nat := 0                 -- ring of R32 (log 85, DESIGN CHOICE)
  clockwise : Bool := true
  arrives : Nat := 0              -- hops of R30
  deriving DecidableEq, Repr

/-- A request that waits at its source stop, or in the stack's controller, for a stack (R126, R192, R196), and how many row hits to its
bank that came after it have been served before it (R188). -/
structure RingWait where
  stack : Nat := 0
  req : MReq := {}
  passed : Nat := 0
  deriving DecidableEq, Repr

structure Ring where
  used : Tbl Nat := []            -- request-buffer credits in use by destination stop (R31)
  withheld : Tbl Nat := []        -- of these, credits that a stack stop withholds (R126, R127, R192)
  flight : List RingPkt := []
  waiting : List RingWait := []   -- requests waiting for a stack, oldest first
  deriving DecidableEq, Repr

/-! ### Storekeeper (07) -/

/-- A map entry (R220). -/
structure MapEntry where
  phys : Nat := 0
  valid : Bool := false
  gen : Nat := 0
  deriving DecidableEq, Repr

/-- A group record (R223). -/
structure Group where
  state : Nat := 0
  planeBad : Nat := 0
  cause : Nat := 0
  erases : Nat := 0
  reads : Nat := 0
  programTime : Nat := 0
  firstSeq : Nat := 0
  lastSeq : Nat := 0
  soft : Nat := 0
  err : Tbl Nat := []
  next : Nat := 0                 -- next page to program while open (R224)
  patrolled : Tbl Nat := []       -- node time of the last patrol of each sixty-fourth (R238)
  deriving DecidableEq, Repr

/-- A programmed unit on flash: its header (R218), poison flags, the key seed of its EPOCH, and its plain bytes other than
0 by offset (log 8, DESIGN CHOICE). -/
structure FlashUnit where
  seq : Nat := 0
  logical : Nat := 0
  gen : Nat := 0
  epoch : Nat := 0
  part : Nat := 0
  kind : Nat := 0
  origSeq : Nat := 0
  writeTime : Nat := 0
  poison : List Nat := []
  seed : Nat := 0
  data : Tbl Byte := []
  deriving DecidableEq, Repr

/-- A unit program placed on a LUN (R224): the unit it writes and where it goes. `done`: 0 placed, 1 programmed and in
the map, 2 programmed but superseded by a clear (R162), 3 it cannot be placed again after a failure, 4 it waits for a place after a failure
(R160); `src` is the unit a relocation read (R234). -/
structure Program where
  phys : Nat := 0
  unit : FlashUnit := {}
  src : Nat := 0
  started : Bool := false
  dropped : Bool := false         -- its frame was dropped (R162)
  done : Nat := 0
  deriving DecidableEq, Repr

/-- A program or erase running on a LUN, and its suspension (R233). -/
structure LunOp where
  kind : Nat := 0                 -- 0 program, 1 erase
  target : Nat := 0               -- program number or group
  started : Nat := 0              -- since it started or last resumed
  suspends : Nat := 0
  suspended : Bool := false
  deriving DecidableEq, Repr

/-- A journal record not yet durable (R225) and what waits for it: 0 nothing, 1 a cleared range's home entry, 2 a
group opening. -/
structure Journal where
  first : Nat := 0
  count : Nat := 0
  type : Nat := 1
  waits : Nat := 0
  arg : Nat := 0
  deriving DecidableEq, Repr

/-- A fill in progress (R158), by block: class, partition, and the LUN once it is being read there (R232). -/
structure Fill where
  cls : Nat := 2
  part : Nat := 0
  dropped : Bool := false
  lun : Option Nat := none
  readAt : Nat := 0               -- when its read began
  deriving DecidableEq, Repr

/-- An anchor record (R227): the geometry, the capacity, the next SEQ, the last complete round with its S and where its segments lie, the
three anchor groups and the two pairs of the key-record table. -/
structure Anchor where
  capacity : Nat := 0
  nextSeq : Nat := 0
  roundSeq : Nat := 0
  pages : Nat := 0
  luns : Nat := 0
  spare : Nat := 0
  groups : Nat := 0
  segs : List (Nat × Nat) := []
  anchors : List Nat := []
  keyPairs : List (Nat × Nat) := []
  deriving DecidableEq, Repr

/-- A fill whose lines have come from flash and wait for the block's stack (R192, R196). -/
structure Landed where
  data : Tbl Byte := []
  poison : List Nat := []
  err : Bool := false
  deriving DecidableEq, Repr

/-- A checkpoint round (R226): its starting SEQ, the pairs of system groups its segments go to, and what they hold: the map with the
clears behind it, and the group table, as they stood at that SEQ; `journals` are the journal pairs that the round makes superfluous. -/
structure Round where
  seq : Nat := 0
  segs : List (Nat × Nat) := []
  map : Tbl MapEntry := []
  clears : List (Nat × Nat) := []
  groups : Tbl Group := []
  journals : List (Nat × Nat) := []
  deriving DecidableEq, Repr

structure Stk where
  targets : Tbl Bool := []        -- usable targets by channel × 8 + target
  excluded : Tbl Nat := []        -- targets excluded, by channel (R214)
  chanState : Tbl Nat := []       -- 0 empty, 1 up, 2 failed
  pages : Nat := 1024             -- pages per block of the geometry (R213)
  luns : Nat := 1
  spare : Nat := 1152
  groupsPerTarget : Nat := 0
  capacity : Nat := 0             -- logical capacity in bytes (R221)
  formatted : Bool := false
  map : Tbl MapEntry := []
  clears : List (Nat × Nat) := [] -- cleared ranges of units (first, count): GEN of a unit not listed in `map` counts them
  groups : Tbl Group := []        -- by target number × 65,536 + group × LUNs + LUN
  units : Tbl FlashUnit := []     -- programmed units by physical unit number (R216)
  live : Tbl Bool := []           -- liveness bitmap (R224)
  seq : Nat := 0                  -- next program sequence number (R218)
  programs : Tbl Program := []
  nextProg : Nat := 0
  lunOps : Tbl LunOp := []
  lunWait : Tbl (List Nat) := []  -- blocks whose fills wait for a LUN, in arrival order (R232)
  chanTime : Tbl (Nat × Nat) := []  -- by channel, the time of its operations and of relocation among them, under throttle (R232)
  opened : Tbl Nat := []          -- open write-back group by LUN × 2, relocation group by LUN × 2 + 1 (R224)
  journal : Tbl Journal := []     -- records not yet durable, by SEQ
  durable : Tbl Journal := []     -- durable records since the last complete round
  fills : Tbl Fill := []
  landed : Tbl Landed := []       -- by block
  wbWait : List Nat := []         -- blocks whose write-back waits for a place (R165)
  relocs : Tbl Nat := []          -- relocations in progress: unit to KIND
  refresh : List Nat := []        -- groups to refresh (R229, R237, R238)
  collecting : Option Nat := none -- group being collected
  round : Option Round := none    -- checkpoint round in progress (R226)
  placed : Nat := 0               -- bytes written back since the last round started
  rounds : Nat := 0
  last : Option Round := none     -- the last complete round (R226)
  anchors : Tbl Anchor := []      -- the newest anchor record in each anchor group (R227)
  keyPairs : List (Nat × Nat) := []   -- pairs A and B of the key-record table (R455)
  bookPairs : List (Nat × Nat) := []  -- the pairs of the book log, kept as that table is (R578)
  jpairs : List (Nat × Nat) := [] -- journal pairs since the last round started, newest first (R225)
  jnext : Nat := 0                -- next page of the newest journal pair
  badMarks : Tbl Nat := []        -- factory bad marks by group (R239)
  fit : List Nat := []            -- targets that meet R212 and R213
  retryTable : Bytes := []        -- the read-reference shifts in use since the last flash reinitialisation (R229, R246)
  abandoned : Tbl Program := []   -- programs that a node recovery cut off, until it knows which were complete (R244)
  bookLog : Tbl BookEntry := []   -- the book log (R578), by entry
  freeLow : Bool := false
  freeReserve : Bool := false
  worn : Bool := false
  retired : Nat := 0
  lost : Tbl Nat := []            -- lost units by partition
  failedTargets : List Nat := []
  stats : List Nat := List.replicate 12 0  -- STK_STATS in order (R246)
  deriving DecidableEq, Repr

/-! ### Tally book (08) -/

/-- A Tally-book entry (R254). -/
structure TlbEntry where
  state : Nat := 1
  size : Nat := 0
  read : Bool := false
  write : Bool := false
  ctx : Nat := 0
  touch : Nat := 0
  cva : Nat := 0
  hpa : Nat := 0
  pasid : Nat := 0
  port : Nat := 0
  ld : Nat := 0
  deriving DecidableEq, Repr

/-- An operand that waits for a translation: of a chunk, or of a job's counter (`chunk` none); `perm` is the permission it needs: 0
read, 1 write, 2 either. -/
structure Waiter where
  job : Nat := 0
  chunk : Option Nat := none
  perm : Nat := 0
  addr : Nat := 0                 -- the CVA it needs translated (R262)
  deriving DecidableEq, Repr

/-- An outstanding translation request (R253, R255); `entry` is none when every way of its set was busy. -/
structure XReq where
  entry : Option Nat := none
  ctx : Nat := 0
  pasid : Nat := 0
  port : Nat := 0
  ld : Nat := 0
  piece : Nat := 0                -- CVA div 64 MiB
  waiters : List Waiter := []
  hit : List (Nat × Nat × Nat) := []  -- invalidations that arrived meanwhile: number and range
  behind : List Nat := []         -- of these, those that its discarded completion met (R256)
  due : Nat := 0
  again : Bool := false           -- to be sent again once the invalidations that met it have completed (R256)
  fault : Option Nat := none      -- retranslation for a pending fault
  keep : Bool := true             -- its piece may be recorded: its context is still bound (R257)
  deriving DecidableEq, Repr

/-- A pending-fault entry (R261, R263). -/
structure PFault where
  port : Nat := 0
  ld : Nat := 0
  pasid : Nat := 0
  piece : Nat := 0
  addr : Nat := 0                 -- the faulting address, aligned down to 4 KiB (R262)
  ctx : Nat := 0
  waiters : List Waiter := []
  retranslating : Bool := false
  resend : Bool := false
  due : Nat := 0
  downDue : Option Nat := none
  write : Bool := false
  deriving DecidableEq, Repr

/-- An invalidation in progress (R258) or waiting (R260). -/
structure Inval where
  port : Nat := 0
  ld : Nat := 0
  pasid : Option Nat := none
  lo : Nat := 0
  hi : Nat := 0
  ctx : Option Nat := none        -- an unbind's invalidation names its context
  itag : Option Nat := none
  ask : Option Ask := none
  id : Nat := 0
  engines : List Nat := []        -- quads that have not acknowledged
  entries : List Nat := []
  dropped : List (Nat × TlbEntry) := []  -- local translations that quads dropped for it (R258)
  deriving DecidableEq, Repr

structure Tlb where
  entries : Tbl TlbEntry := []
  reqs : Tbl XReq := []
  faults : Tbl PFault := []       -- by index 0–255
  faultWait : List PFault := []
  near : Tbl (List TlbEntry) := []  -- translations an engine holds locally, most recent first, by quad (R266)
  invals : Tbl Inval := []
  invalWait : List Inval := []
  nextId : Nat := 0
  ats : Tbl Bool := []            -- by port × 16 + logical device
  stu : Tbl Nat := []
  pri : Tbl Bool := []
  priStopped : Tbl Bool := []
  alloc : Tbl Nat := []           -- Outstanding Page Request Allocation
  grainErrors : Tbl Nat := []     -- by partition
  stats : List Nat := List.replicate 11 0  -- TLB_STATS in order (R267)
  deriving DecidableEq, Repr

/-! ### Contexts, jobs and chunks (09) -/

/-- A context record (R273), its page registers (R105), queue indices (R278, R279), FABRIC fields (R364), coalescing
(R485, R486) and the wait of an unbind or a reset (R635). -/
structure Ctx where
  state : Nat := 3
  assigned : Bool := false
  part : Nat := 0
  haltCode : Nat := 0
  pasid : Nat := 0
  port : Nat := 0
  ld : Nat := 0
  sqBase : Nat := 0
  cqBase : Nat := 0
  sqOrder : Nat := 6
  cqOrder : Nat := 6
  vector : Nat := 0
  jobLimit : Nat := 64
  completed : Nat := 0
  fabric : Nat := 0               -- 128 bits of R364 as written
  slice : Nat := 0                -- SLICE of R364
  sliceLen : Nat := 0             -- ranks of the slice in use (R366)
  sqTail : Nat := 0
  cqHead : Nat := 0
  sqHead : Nat := 0
  cqIndex : Nat := 0              -- completion write index w
  phase : Bool := true
  waiting : Option (Nat × Ask) := none  -- 2 unbind, 4 reset in progress (R635)
  fetching : Bool := false        -- one descriptor fetch in flight (R47)
  fetched : Option (Nat × Bytes) := none -- its status and bytes, once they have come
  ranks : Option (Ask × Nat) := none     -- a bind waiting for its rank list: asker, first unit
  chainOpen : Option Nat := none  -- job the next slot is linked to (R282)
  n : Nat := 0                    -- coalescing count
  timerAt : Option Nat := none    -- coalescing timer start
  countThr : Nat := 1
  timeThr : Nat := 100
  chainOk : Option Bool := none   -- how that job's link came out, once it has completed
  records : List Nat := []        -- completed jobs that wait for their records, in order (R279)
  recordBusy : Bool := false      -- a record write in flight (R47)
  recordStuck : Bool := false     -- a record write met an access error; a resume writes it again (R305)
  inval : Nat := 0                -- an unbind's invalidation: 0 not started, 1 in progress, 2 ended (R257)
  rankBuf : Tbl Bytes := []       -- lines of the rank list that have come (R365)
  deriving DecidableEq, Repr

/-- A job record (R278): its descriptor, where it stands in chain and fence order, and its results. `phase`: 0 held by
chain or fence, 1 running, 2 settled, 3 its counter update on the way, 4 its record waiting, 5 abandoned (R276). -/
structure Job where
  ctx : Nat := 0
  slot : Nat := 0
  order : Nat := 0                -- fetch order in the node
  desc : Bytes := []
  phase : Nat := 0
  prev : Option Nat := none       -- predecessor in its chain
  linkOk : Option Bool := none    -- the predecessor's outcome once it completed
  gen : Nat := 0
  reissues : Nat := 0
  status : Nat := 0
  result : Nat := 0
  errOff : Nat := 0
  checkErr : Nat := 0             -- error of R281, taken when it would start
  counterErr : Bool := false
  counterSent : Bool := false
  parked : Bool := false          -- its counter's address waits for a translation
  failed : Bool := false
  nextChunk : Nat := 0            -- chunks not yet divided off (R295)
  chunkCount : Nat := 0
  deriving DecidableEq, Repr

/-- A chunk or home operation (R295, R298). `state`: 0 waiting, 1 issued, 2 committing. `step` of an issued chunk: 0 translating,
1 reading, 2 its results are ready, 3 translating the elements of a GATHER. -/
structure Chunk where
  job : Nat := 0
  idx : Nat := 0
  lo : Nat := 0                   -- first destination byte, or first element of a CONVERT
  len : Nat := 0
  state : Nat := 0
  quad : Nat := 0
  gen : Nat := 0
  reissues : Nat := 0
  err : Nat := 0
  due : Nat := 0                  -- chunk timer (R298); while `faulting`, the time it has left
  homeOp : Bool := false
  step : Nat := 0
  parked : Bool := false          -- an operand waits for a translation
  faulting : Bool := false        -- an operand waits on a pending fault
  buf : Tbl Bytes := []           -- the source lines that have come, by CVA div 64
  pos : Nat := 0                  -- bytes of a COMMIT's range already sent
  homes : List (Nat × Nat) := []  -- homes of a COMMIT that have answered, with their statuses
  left : List (Nat × Bytes × List (Nat × Nat)) := []  -- accesses that wait for a ninth record: area, bytes written, lines with host addresses (R47)
  result : Nat := 0
  deriving DecidableEq, Repr

/-- An access of an engine to pool memory that has not been answered: the quad and context it runs for, its chunk (none for a queue,
a counter or a rank list) or job, the binding it is counted at (R49), the home, and the CVA lines it reads or the range it
writes (R258). -/
structure Access where
  chunk : Option Nat := none
  job : Nat := 0
  gen : Nat := 0
  quad : Nat := 0
  ctx : Nat := 0
  bind : Nat := 0
  home : Nat := 0
  lda : Nat := 0                  -- LDA of its first line; its granule names the decode record it pins (R47)
  op : Nat := 0                   -- operation of its error record (R102)
  lines : List Nat := []
  lo : Nat := 0
  hi : Nat := 0
  lostDue : Nat := 0              -- when a home operation or chunk write without report or keep-alive is lost (R299)
  lost : Bool := false            -- it was lost (R299), or its queue no longer wants it (R276)
  also : List Nat := []           -- accesses of the same chunk write, answered with this one (R297)
  deriving DecidableEq, Repr

structure Cle where
  ctxs : Tbl Ctx := []
  jobs : Tbl Job := []
  chunks : Tbl Chunk := []
  nextJob : Nat := 0
  nextChunk : Nat := 0
  access : Tbl Access := []       -- accesses not answered (R49, R258)
  nextAccess : Nat := 0
  gated : List Nat := []          -- gated quads (R28)
  inReset : Tbl Nat := []         -- quads whose slice is in reset, and until when (R307, R572)
  recovered : List Nat := []      -- contexts that the node recovery in progress halted with RECOVERED (R306, R487)
  stale : Nat := 0
  halts : Tbl Nat := []           -- by partition
  stats : List Nat := List.replicate 9 0   -- CLE_STATS in order (R309)
  deriving DecidableEq, Repr

/-! ### Partitions, keys and admission (15) -/

/-- A partition record (R460). `seedCur` and `seedPrev` name the seeds of the live epochs: their values are free (log 5, DESIGN CHOICE);
0 is a zeroised slot. -/
structure Partition where
  state : Nat := 0
  current : Nat := 0
  previous : Nat := 0
  sweepStep : Nat := 0
  rekeyLines : Nat := 0
  rekeyUnits : Nat := 0
  sweepPos : Nat := 0
  rotateTime : Nat := 0
  rekeyFails : Nat := 0
  seedCur : Nat := 0
  seedPrev : Nat := 0
  walked : Nat := 0               -- the line that the DRAM pass visits next in its block (R460, R462)
  change : Nat := 0               -- a create (1) or a rotation (2) waits for its key-record change
  ask : Ask := {}                 -- who asked for it
  nextSeed : Nat := 0
  recalls : List Nat := []        -- recalls of Sweep step t1 awaited
  groups : List Nat := []         -- groups that held live units at t2 (t5)
  deriving DecidableEq, Repr

/-- A secured SPDM session and the connection it stands on (R472, R473). `stage`: 0 nothing, 1 version, 2 capabilities,
3 algorithms, 4 challenged. -/
structure Spdm where
  stage : Nat := 0
  sessions : Tbl Nat := []        -- session to 1 handshake, 2 established
  nextSession : Nat := 1
  chunk : Bytes := []             -- parts of a chunked request
  chunkSeq : Nat := 0             -- sequence number of the next part
  large : Bytes := []             -- a large response being read in parts
  largeSeq : Nat := 0
  updates : Nat := 0
  deriving DecidableEq, Repr

/-- A logical device's admission state (R472 to R476): TDI 0 CONFIG_UNLOCKED, 1 CONFIG_LOCKED, 2 RUN, 3 ERROR. -/
structure Tdi where
  part : Nat := 255               -- LCK_LD_PARTITION
  state : Nat := 0
  nonce : Nat := 0
  spdm : Spdm := {}
  keyed : List Nat := []          -- IDE streams whose keys are programmed: 0 CXL.mem, 1 selective, 2 link
  active : List Nat := []         -- IDE streams in use
  skid : Bool := false            -- mode of IDE on CXL.mem: skid, else containment (R79)
  deriving DecidableEq, Repr

structure Lck where
  parts : Tbl Partition := []
  tdis : Tbl Tdi := []            -- by port × 16 + logical device
  tenants : Tbl Bytes := []       -- LCK_TENANT_CRED digests
  observers : List Bytes := []    -- LCK_OBSERVER_CRED digests
  secEvents : Tbl Nat := []       -- security events by partition (64: none)
  throwaway : Nat := 0            -- seed of the throwaway slot; 0 zeroised
  changing : Option Nat := none   -- key-record change being programmed: partition × 8 + 1 create, 2 rotate, 3 remove PREVIOUS, 4 Sweep
  changeWait : List Nat := []     -- changes that wait, in order (R455)
  standbyB : Bool := true         -- pair B is the standby pair
  table : Tbl (Nat × Nat × Nat × Nat) := []  -- durable table: current, previous and their seeds by partition
  stats : List Nat := List.replicate 6 0   -- LCK_SWEEP_STATS in order (R481)
  deriving DecidableEq, Repr

/-! ### MSI-X (16) -/

/-- One logical device's MSI-X table and PBA, its hold-offs and counts (R483 to R491). -/
structure MsiX where
  unmasked : List Nat := []       -- vectors whose mask bit is clear
  pending : List Nat := []
  holdoff : Tbl Nat := []         -- IRQ_HOLDOFF in µs by group
  heldUntil : Tbl Nat := []       -- end of a hold-off in force, by group
  stats : List Nat := [0, 0, 0, 0] -- IRQ_STATS in order
  table : Tbl (Nat × Nat) := []   -- address and data of each vector in the MSI-X table (R103)
  deriving DecidableEq, Repr

/-! ### Sahtin and Nasidom (17, 18) -/

/-- A subscription (R502, R527). -/
structure Sub where
  low : Nat := 0
  high : Nat := 0xFFFF
  minSev : Nat := 0
  next : Nat := 0                 -- SEQ from which records are still to be sent
  unacked : List (Nat × Nat × Bytes) := []  -- (notice number, highest SEQ, body)
  resendDue : Nat := 0
  deriving DecidableEq, Repr

/-- A completion notice not yet read (R527). -/
structure Done where
  entry : Nat := 0
  req : Nat := 0
  status : Nat := 0
  result : Bytes := []
  due : Nat := 0
  deriving DecidableEq, Repr

/-- A Nasidom session (R517 to R530): role 1 warden, 2 tenant, 3 observer. -/
structure Session where
  role : Nat := 1
  part : Nat := 0
  digest : Bytes := []
  lastAt : Nat := 0
  selects : Tbl Nat := []         -- _SELECT values by entry (R520)
  staged : Option (Nat × Bytes) := none      -- entry and bytes of a staged write (R524)
  snapshot : Nat × Bytes := (0, [])          -- entry + 1 and value of the last READ at offset 0 (R523)
  cache : List (Nat × Nat × Nat × Bytes) := [] -- last 64 responses: request, status, TOTAL, body; newest first (R530)
  running : List (Nat × Nat × Nat × Bool) := [] -- outstanding: request, start, entry key, ACCEPTED sent
  subs : Tbl Sub := []
  notices : Nat := 0
  dones : List Done := []
  declared : Option (Nat × Nat × Nat) := none  -- major, minor, result (R551)
  deriving DecidableEq, Repr

/-- An RDMA queue pair, region or drain (R509 to R512). -/
structure Qp where
  part : Nat := 0
  remoteAddr : Nat := 0
  remoteQp : Nat := 0
  mtu : Nat := 1024
  error : Bool := false
  deriving DecidableEq, Repr

structure Region where
  base : Nat := 0
  length : Nat := 0
  part : Nat := 0
  read : Bool := false
  write : Bool := false
  deriving DecidableEq, Repr

/-- A remote RDMA request in progress (R510, R511): `left` counts the accesses not answered; `pieces` collects what a READ returns,
by access. -/
structure RdmaOp where
  qp : Nat := 0
  va : Nat := 0
  read : Bool := false
  skip : Nat := 0                 -- bytes of the first line before the address
  length : Nat := 0
  left : Nat := 0
  failed : Bool := false
  pieces : Tbl Bytes := []
  deriving DecidableEq, Repr

structure Drain where
  ask : Ask := {}
  pga : Nat := 0
  length : Nat := 0
  qp : Nat := 0
  addr : Nat := 0
  rkey : Nat := 0
  part : Nat := 0
  sent : Nat := 0
  acked : Nat := 0
  reading : Bool := false         -- a read of the range is outstanding
  deriving DecidableEq, Repr

/-- A stored write on its way to both copies of the configuration store (R543). -/
structure StoredWrite where
  ask : Ask := {}
  key : Nat := 0                  -- entry × 256 + subindex
  value : Nat := 0
  blob : Bytes := []
  sel : Nat := 0                  -- selected object
  deriving DecidableEq, Repr

structure Sah where
  up : Bool := false              -- SAHTIN_UP (R107): Nasidom answers
  coresUp : Nat := 0              -- SAH_CORES_UP
  bankB : Bool := false           -- FILLING
  held : Bool := false
  full : Bool := false
  overrun : Bool := false
  heldFrames : Nat := 0
  fillFrames : Nat := 0
  fillBytes : Nat := 0
  frames : List Bytes := []       -- frames in the filling bank, oldest first
  heldBank : List Bytes := []
  rxStats : List Nat := [0, 0, 0]
  ethStats : List Nat := List.replicate 8 0
  sessions : Tbl Session := []
  nextSession : Nat := 1
  qps : Tbl Qp := []
  regions : Tbl Region := []      -- by R_Key
  drains : Tbl Drain := []
  rdmaOps : Tbl RdmaOp := []      -- RDMA requests of the far side in progress (R510)
  nextOp : Nat := 0
  rdmaStats : List Nat := List.replicate 5 0
  power : Nat := 0                -- SAH_POWER
  temps : Tbl Int := []           -- the 96 die sensors
  ticks : Nat := 0
  isOver : Bool := false
  lowestThrottle : Nat := 100
  levelRequests : Nat := 0
  lastLevelReq : Option Nat := none
  lastLevel : Tbl Nat := []       -- last level change by stack
  coolSince : Tbl Nat := []       -- since when a stack has been cool
  gateUntil : Nat := 0
  tripped : Bool := false
  summarySeq : Nat := 0           -- SUMMARY_SEQ (R545)
  lastSummary : Bytes := []       -- the record's other fields when SUMMARY_SEQ was last brought up to date (log 81, DESIGN CHOICE)
  quadBusy : Tbl Nat := []        -- when a loop tick last found a quad busy (log 82, DESIGN CHOICE)
  stored : List StoredWrite := [] -- stored writes in progress, oldest first
  cmdStatus : Tbl Nat := []       -- status of the last action of a CMD entry (R10)
  coldBoots : Nat := 0
  recoveries : Nat := 0
  restarts : Nat := 0
  fwChanges : Nat := 0
  wall : Nat := 0                 -- wall time written, and the node time at which it was
  wallAt : Nat := 0
  anchor : Bytes := []            -- SAH_WARDEN_ANCHOR
  ethAddr : Bytes := []
  retryTable : Bytes := []
  portInUse : Nat := 4800
  deriving DecidableEq, Repr

/-! ### Firmware (19) -/

/-- An image in a slot (R556): FW_SLOTS' state (0 empty, 1 valid, 2 invalid, 3 verified), the bytes of the slot other than 0, and whether
its signature, key digest and body digest hold (R557). -/
structure Image where
  state : Nat := 0
  bytes : Tbl Byte := []
  signed : Bool := false
  deriving DecidableEq, Repr

/-- The image that the board builder delivers in slot A (log 84, DESIGN CHOICE): MAGIC, HEADER_VER 1, SVN 0, the version of R551's worked example,
HANDOFF_MIN 1 and HANDOFF_VER 1. -/
def factoryImage : Image :=
  { state := 1
    bytes := [(0, 0x4F), (1, 0x50), (2, 0x5A), (3, 0x46), (4, 1), (9, 7), (10, 4), (12, 2), (13, 5), (14, 3), (15, 1), (20, 1), (22, 1)]
    signed := true }

/-- The handoff record of R563 (its DRAM addresses apart). -/
structure Handoff where
  ver : Nat := 0
  reason : Nat := 0
  fromVersion : Nat := 0
  time : Nat := 0
  crcOk : Bool := true
  deriving DecidableEq, Repr

/-- An answer that a command of the lending book waited for and that came while Sahtin was not running: the command journal holds it
(R568, R634). -/
inductive FwAnswer where
  | reserve (grant member coord status base : Nat)         -- RESERVE (R57)
  | windowBind (grant coord base status len : Nat)         -- WINDOW_BIND (R311)
  | migrateReserve (entry status base : Nat)               -- MIGRATE_RESERVE (R74)
  | handover (entry : Nat)                                 -- MIGRATE_HANDOVER (R74)
  | lost (entry status : Nat)                              -- a migration's operation that failed
  deriving DecidableEq, Repr

structure Fw where
  active : Nat := 0               -- boot control record (R555)
  trial : Bool := false
  tries : Nat := 0
  bcrSeq : Nat := 0
  slots : Tbl Image := [(0, factoryImage)]  -- 0 A, 1 B
  running : Image := {}           -- the image in service
  waiting : Option Ask := none    -- an activation that waits for a stored write (R562)
  ready : Bool := false           -- FW_UPDATE 1 completed OK for the staged slot (R562)
  update : Nat := 0               -- 0 none, 1 update, 2 restart, 3 revert, 4 watchdog restart in progress
  handoffDue : Option Nat := none -- the 500 ms handoff timer
  restartDue : Nat := 0           -- when the restart in progress may end
  handoff : Handoff := {}
  kickDue : Tbl Nat := []         -- watchdog deadline by management core (R567)
  wdSuspended : Bool := true      -- watchdog not running: no firmware runs
  firings : List Nat := []        -- node times of the last firings (R569)
  wdRestarts : Nat := 0
  lastCore : Nat := 0
  stopped : Bool := false         -- stopped under R569
  rotBusy : Option Nat := none    -- root-of-trust restart ends at (R560)
  stopCore : List Nat := []       -- cores stopped by an uncorrectable trap (R601)
  journal : List FwAnswer := []   -- answers that wait for Sahtin to run again (R568)
  deriving DecidableEq, Repr

/-! ### Reset, recovery and test (20) -/

structure Rst where
  nodeState : Nat := 0            -- NODE_STATE (R107)
  step : Nat := 0                 -- cold-boot step t0–t9 of R576 reached; 0 while held in reset
  inReset : Bool := true          -- held in cold reset
  recovering : Bool := false      -- node recovery in progress (R583)
  holdEnd : Nat := 0              -- end of the start-up hold (R581)
  resetN : Bool := false          -- level of NODE_RESET_N
  recoverN : Bool := true         -- level of NODE_RECOVER_N
  faultN : Bool := true           -- level of NODE_FAULT_N
  ready : Bool := false           -- level of NODE_READY
  thermtripN : Bool := true       -- level of THERMTRIP_N
  pllLocked : Bool := true        -- the root PLL's lock (R26)
  vddAux : Bool := true           -- VDD_AUX within tolerance
  result : List Nat := [0, 0, 0, 0, 0] -- TST_RESULT: kind, target, outcome, time, failures
  checker : Nat := 0              -- TST_BOOT_REPORT
  repaired : Tbl Nat := []
  durations : List Nat := [0, 0, 0, 0, 0, 0, 0, 0]
  sliceResets : Nat := 0
  portResets : Nat := 0
  detectors : List Nat := [0, 0, 0, 0, 0, 0, 0, 0]  -- firings in R582's order
  lastRecovery : Nat := 0
  trigger : Nat := 0
  bootMark : Nat := 0             -- node time of the last boot step
  deriving DecidableEq, Repr

/-! ### Errors (21) and the test access port (22) -/

structure Ras where
  corrected : Tbl Nat := []       -- by structure 1–26 (R594)
  uncorrectable : Tbl Nat := []
  classes : Tbl Nat := []         -- by class 0–4 (R593)
  window : Tbl Nat := []          -- corrected errors in the window by structure × 65,536 + unit (R595)
  windowStart : Nat := 0
  poisonReads : Tbl Nat := []     -- by partition
  poisonWrites : Tbl Nat := []
  windowPoisoned : Nat := 0
  ledgerLost : Nat := 0
  ledgerPoisoned : Nat := 0
  peaks : Tbl Nat := []           -- peaks of R609's rows since cold boot or the last clear
  rebuilding : Tbl Nat := []      -- Ledger sets being scanned with the ways that stay readable (R596)
  nodeEvents : List Bytes := []   -- UE_NODE events to be written when the recovery has ended (R606)
  lostBook : List Nat := []       -- lending-book entries lost (R598)
  lostKeys : List (Nat × Nat) := [] -- epochs whose keys are lost, by partition (R597)
  deriving DecidableEq, Repr

/-- The test access port (R627 to R632): the selected instruction, the boundary register, what EXTEST and its kin drive
and the bits last shifted out. -/
structure Jtag where
  opcode : Nat := 0x02
  boundary : Nat := 0             -- preload (shift) stage
  driven : Option Nat := none     -- updated pins under EXTEST, EXTEST_PULSE, EXTEST_TRAIN or CLAMP
  highz : Bool := false
  latched : Nat := 0              -- update stage
  pins : Nat := 0                 -- levels on the pins, as last sampled
  pulses : Nat := 0               -- pulses of EXTEST_PULSE
  toggles : Nat := 0              -- toggles of EXTEST_TRAIN
  bypass : Bool := false
  deriving DecidableEq, Repr

/-- Assembly (R4): number of HBM stacks and of CXL I/O dies; and how many NAND targets the board builder populated, from channel 0
upward (R5). -/
structure Asm where
  hbmStacks : Nat := 16
  dies : Nat := 3
  nand : Nat := 512
  deriving DecidableEq, Repr

/-- The machine. `pending` is the queue of waiting commands; `out` what the node has sent, newest first; `now` the node
time in ns; `fresh` the number of free values drawn so far (the model's own field: log 5, DESIGN CHOICE). -/
structure State where
  pending : List Instr := []
  out : List Emit := []
  now : Nat := 0
  fresh : Nat := 0
  asm : Asm := {}
  regs : Tbl Nat := []            -- dictionary values that differ from their default, by index × 256 + subindex
  store : Tbl Nat := []           -- the configuration store's entries (R543), by key + object × 2^24
  storeBlobs : Tbl Bytes := [(0x880300, List.replicate 64 1)]  -- stored strings and tables by the same key; SAH_WARDEN_ANCHOR of the provisioning record (log 84, DESIGN CHOICE)
  fuses : Nat := 0                -- FW_SVN_MIN fused (R557)
  taken : List (EngRef × MRsp) := []  -- responses that engines of this node have taken and not yet used (R124)
  ring : Ring := {}
  pga : Pga := {}
  cxl : Cxl := {}
  ldg : Ldg := {}
  car : Car := {}
  mem : Mem := {}
  stk : Stk := {}
  tlb : Tlb := {}
  cle : Cle := {}
  win : WinState := {}
  mar : Mar := {}
  lnk : Lnk := {}
  twn : TwnState := {}
  wgh : Wgh := {}
  lck : Lck := {}
  msix : Tbl MsiX := []           -- by port × 16 + logical device
  evt : Evt := {}
  sah : Sah := {}
  fw : Fw := {}
  rst : Rst := {}
  ras : Ras := {}
  jtag : Jtag := {}
  deriving DecidableEq, Repr

/-- The machine right after reset (R575, R576): NODE_RESET_N is asserted, every link and port is down, the queue is empty, memory
lists nothing, and every field is at the value of its declaration: the spec's reset value, or the one that NOTES.md's
assumptions name. -/
def State.reset : State := {}

end Sys2Proof.Machine
end

