-- ==== Sys2Proof/Machine/Table.lean ====
section
/-! DEFINITION. Sparse tables in one canonical form: keys strictly rising. A table of records holds an item or none;
a table of values has a default that an unlisted key reads as, and never lists that default. -/
namespace Sys2Proof.Machine

/-- The item at key `k`, if one is listed. -/
def tfind {α : Type} : Tbl α → Nat → Option α
  | [], _ => none
  | (j, a) :: t, k => if j = k then some a else tfind t k

/-- The table with `v` at key `k`, keys kept rising. -/
def tput {α : Type} : Tbl α → Nat → α → Tbl α
  | [], k, v => [(k, v)]
  | (j, a) :: t, k, v =>
    if k < j then (k, v) :: (j, a) :: t
    else if k = j then (k, v) :: t
    else (j, a) :: tput t k v

/-- The table without key `k`. -/
def tdel {α : Type} : Tbl α → Nat → Tbl α
  | [], _ => []
  | (j, a) :: t, k => if j = k then t else (j, a) :: tdel t k

/-- The value at key `k` of a table of values whose default is `d`. -/
def tget {α : Type} (d : α) (t : Tbl α) (k : Nat) : α := (tfind t k).getD d

/-- The table of values with `v` at `k`; the default is never listed. -/
def tset {α : Type} [DecidableEq α] (d : α) (t : Tbl α) (k : Nat) (v : α) : Tbl α :=
  if v = d then tdel t k else tput t k v

/-- The table with the item at `k`, where there is one, changed by `f`. -/
def tmod {α : Type} (t : Tbl α) (k : Nat) (f : α → α) : Tbl α :=
  t.map fun p => if p.1 = k then (p.1, f p.2) else p

/-- The table whose items satisfy `p`. -/
def tkeep {α : Type} (t : Tbl α) (p : Nat → α → Bool) : Tbl α := t.filter fun e => p e.1 e.2

/-- Keys strictly rising, from `lo` on. -/
def trising {α : Type} : Nat → Tbl α → Bool
  | _, [] => true
  | lo, (j, _) :: t => decide (lo ≤ j) && trising (j + 1) t

/-- The canonical form of a table of records. -/
def tsorted {α : Type} (t : Tbl α) : Bool := trising 0 t

/-- The canonical form of a table of values with default `d`. -/
def tcanon {α : Type} [DecidableEq α] (d : α) (t : Tbl α) : Bool :=
  tsorted t && t.all fun p => decide (p.2 ≠ d)

/-- The least number from `k` on, among the next `fuel`, that the table does not list. -/
def tfresh {α : Type} (t : Tbl α) : Nat → Nat → Option Nat
  | 0, _ => none
  | fuel + 1, k => if (tfind t k).isSome then tfresh t fuel (k + 1) else some k

/-- A list with one more item, placed before the first item it goes before. -/
def insertBy {α : Type} (le : α → α → Bool) (x : α) : List α → List α
  | [] => [x]
  | y :: ys => if le x y then x :: y :: ys else y :: insertBy le x ys

/-- A list in order, by insertion. -/
def sortBy {α : Type} (le : α → α → Bool) (l : List α) : List α := l.foldr (insertBy le) []

/-- The list without repeats of neighbours. -/
def squeeze : List Nat → List Nat
  | a :: b :: l => if a = b then squeeze (b :: l) else a :: squeeze (b :: l)
  | l => l

/-- Numbers in rising order, each once. -/
def ascending (l : List Nat) : List Nat := squeeze (sortBy (fun a b => decide (a ≤ b)) l)

end Sys2Proof.Machine
end

