-- ==== Sys2Proof/Machine/Dict.lean ====
section
/-! DEFINITION. The object dictionary (R10 to R14, R539 to R544): one row per entry of the spec's tables, and the value
of each plain register. -/
namespace Sys2Proof.Machine

/-- One dictionary entry: index, first subindex and how many, width in bytes (0 for STR, BLOB and REC), access
(0 RO, 1 RW, 2 CMD, 3 WO), roles (1 warden, 2 tenant, 4 observer), default, range of values, stored entry (R543). -/
structure DEnt where
  index : Nat
  sub : Nat
  count : Nat
  width : Nat
  kind : Nat
  roles : Nat
  dflt : Nat
  lo : Nat
  hi : Nat
  stored : Bool
  deriving DecidableEq, Repr

def dict1 : List DEnt := [
  ⟨0x2000, 0, 1, 4, 0, 5, 1048576, 0, 4294967295, false⟩, -- PGA_BOOK_CAPACITY
  ⟨0x2000, 1, 1, 4, 0, 5, 0, 0, 4294967295, false⟩, -- PGA_BOOK_USED
  ⟨0x2000, 2, 1, 8, 0, 5, 0, 0, 18446744073709551615, false⟩, -- PGA_BOOK_GENERATION
  ⟨0x2001, 0, 1, 8, 0, 7, 0, 0, 18446744073709551615, false⟩, -- PGA_LENDABLE_BYTES
  ⟨0x2001, 1, 1, 8, 0, 5, 0, 0, 18446744073709551615, false⟩, -- PGA_FREE_BYTES
  ⟨0x2002, 0, 1, 2, 0, 5, 0, 0, 65535, false⟩, -- PGA_ISET_USED
  ⟨0x2010, 0, 1, 0, 2, 1, 0, 0, 0, false⟩, -- PGA_GRANT
  ⟨0x2011, 0, 1, 0, 2, 1, 0, 0, 0, false⟩, -- PGA_REVOKE
  ⟨0x2012, 0, 1, 0, 2, 1, 0, 0, 0, false⟩, -- PGA_MIGRATE
  ⟨0x2013, 0, 1, 0, 2, 1, 0, 0, 0, false⟩, -- PGA_REBIND
  ⟨0x2014, 0, 1, 4, 1, 1, 100, 1, 10000, false⟩, -- PGA_DRAIN_WINDOW
  ⟨0x2020, 0, 1, 8, 0, 7, 0, 0, 18446744073709551615, false⟩, -- PGA_ACCESS_ERRORS
  ⟨0x2030, 0, 1, 4, 1, 1, 0, 0, 1048575, false⟩, -- PGA_ENTRY_SELECT
  ⟨0x2030, 1, 1, 0, 0, 1, 0, 0, 0, false⟩, -- PGA_ENTRY
  ⟨0x1100, 0, 24, 1, 0, 5, 0, 0, 255, false⟩, -- CXL_PORT_STATE
  ⟨0x1101, 0, 24, 2, 0, 5, 0, 0, 65535, false⟩, -- CXL_PORT_LINK
  ⟨0x1102, 0, 24, 1, 1, 1, 0, 0, 1, true⟩, -- CXL_PORT_BIFURCATE
  ⟨0x1103, 0, 24, 1, 2, 1, 0, 0, 255, false⟩, -- CXL_PORT_RESET
  ⟨0x1104, 0, 24, 1, 1, 1, 1, 1, 16, true⟩, -- CXL_LD_COUNT
  ⟨0x1105, 0, 24, 8, 0, 5, 0, 0, 18446744073709551615, false⟩, -- CXL_LINK_ERRORS
  ⟨0x1110, 0, 1, 2, 1, 1, 0, 0, 511, false⟩, -- CXL_LD_SELECT
  ⟨0x1110, 1, 1, 0, 1, 1, 0, 0, 0, true⟩, -- CXL_REGION_LENGTH
  ⟨0x1110, 2, 1, 8, 0, 7, 0, 0, 18446744073709551615, false⟩, -- CXL_STRAY_WRITES
  ⟨0x1120, 0, 1, 4, 1, 1, 10000, 100, 600000, false⟩] -- CXL_DC_ACCEPT_TIMEOUT

def dict2 : List DEnt := [
  ⟨0x1120, 1, 1, 4, 1, 1, 10000, 100, 600000, false⟩, -- CXL_DC_RELEASE_TIMEOUT
  ⟨0x1121, 0, 1, 1, 1, 1, 0, 0, 1, false⟩, -- CXL_POISON_INJECT
  ⟨0x1122, 0, 1, 2, 1, 1, 65535, 0, 65535, true⟩, -- CXL_PRIV_LD
  ⟨0x1123, 0, 1, 0, 0, 7, 0, 0, 0, false⟩, -- CXL_VENDOR_EVENT_ID
  ⟨0x3000, 0, 1, 4, 0, 5, 67108864, 0, 4294967295, false⟩, -- LDG_CAPACITY
  ⟨0x3000, 1, 1, 4, 0, 5, 0, 0, 4294967295, false⟩, -- LDG_USED
  ⟨0x3000, 2, 1, 4, 0, 5, 0, 0, 4294967295, false⟩, -- LDG_OVERFLOW_USED
  ⟨0x3001, 0, 1, 4, 1, 1, 20, 1, 500, false⟩, -- LDG_TIMEOUT
  ⟨0x3001, 1, 1, 4, 1, 1, 1, 1, 50, false⟩, -- LDG_PROXY_ALLOWANCE
  ⟨0x3002, 0, 1, 8, 0, 7, 0, 0, 18446744073709551615, false⟩, -- LDG_POISONED_LINES
  ⟨0x3002, 1, 1, 8, 0, 5, 0, 0, 18446744073709551615, false⟩, -- LDG_LATE_RESPONSES
  ⟨0x3002, 2, 1, 8, 0, 5, 0, 0, 18446744073709551615, false⟩, -- LDG_ACK_TIMEOUTS
  ⟨0x3003, 0, 1, 8, 0, 5, 0, 0, 18446744073709551615, false⟩, -- LDG_FORCED_RECALLS
  ⟨0x3003, 1, 1, 8, 0, 5, 0, 0, 18446744073709551615, false⟩, -- LDG_HOLDER_RECALLS
  ⟨0x3004, 0, 16, 0, 0, 5, 0, 0, 0, false⟩, -- LDG_SLICE_STATS
  ⟨0x3005, 0, 16, 1, 0, 5, 0, 0, 255, false⟩, -- LDG_CHANNEL_STATE
  ⟨0x3006, 0, 16, 1, 2, 1, 0, 0, 255, false⟩, -- LDG_CHANNEL_READMIT
  ⟨0x3007, 0, 1, 1, 1, 1, 1, 0, 1, false⟩, -- LDG_READMIT_AUTO
  ⟨0x3010, 0, 1, 8, 1, 1, 0, 0, 4611686018427387903, false⟩, -- LDG_LOOKUP_PGA
  ⟨0x3010, 1, 1, 0, 0, 1, 0, 0, 0, false⟩, -- LDG_LOOKUP
  ⟨0x3011, 0, 1, 8, 2, 1, 0, 0, 18446744073709551615, false⟩, -- LDG_CLEAR_POISON
  ⟨0x3800, 0, 1, 1, 0, 7, 0, 0, 255, false⟩, -- CAR_MODE
  ⟨0x3800, 1, 1, 1, 1, 1, 1, 0, 1, true⟩, -- CAR_MODE_NEXT
  ⟨0x3801, 0, 1, 4, 0, 5, 0, 0, 4294967295, false⟩] -- CAR_FRAMES

def dict3 : List DEnt := [
  ⟨0x3801, 1, 1, 4, 0, 5, 0, 0, 4294967295, false⟩, -- CAR_FRAMES_DIRTY
  ⟨0x3801, 2, 1, 4, 0, 5, 0, 0, 4294967295, false⟩, -- CAR_FRAMES_PINNED
  ⟨0x3801, 3, 1, 4, 0, 5, 0, 0, 4294967295, false⟩, -- CAR_FRAMES_STAGED
  ⟨0x3802, 0, 1, 1, 1, 1, 10, 2, 90, false⟩, -- CAR_DIRTY_HIGH
  ⟨0x3802, 1, 1, 1, 1, 1, 5, 1, 89, false⟩, -- CAR_DIRTY_LOW
  ⟨0x3802, 2, 1, 1, 1, 1, 25, 0, 50, false⟩, -- CAR_PIN_LIMIT
  ⟨0x3802, 3, 1, 1, 1, 1, 50, 1, 90, false⟩, -- CAR_STAGE_LIMIT
  ⟨0x3802, 4, 1, 4, 1, 1, 1000, 1, 60000, false⟩, -- CAR_STAGE_HOLD
  ⟨0x3803, 0, 1, 0, 2, 3, 0, 0, 0, false⟩, -- CAR_COMMIT
  ⟨0x3804, 0, 1, 0, 0, 5, 0, 0, 0, false⟩, -- CAR_STATS
  ⟨0x3805, 0, 1, 8, 1, 1, 0, 0, 4611686018427387903, false⟩, -- CAR_TAG_SELECT
  ⟨0x3805, 1, 1, 0, 0, 1, 0, 0, 0, false⟩, -- CAR_TAG
  ⟨0x3810, 0, 1, 2, 2, 3, 0, 0, 4095, false⟩, -- CAR_STREAM_ALLOC
  ⟨0x3810, 1, 1, 2, 1, 3, 0, 0, 4095, false⟩, -- CAR_STREAM_SELECT
  ⟨0x3810, 2, 1, 0, 1, 3, 0, 0, 0, false⟩, -- CAR_STREAM
  ⟨0x3810, 3, 1, 1, 2, 3, 0, 0, 255, false⟩, -- CAR_STREAM_CONTROL
  ⟨0x3811, 0, 1, 2, 0, 5, 0, 0, 65535, false⟩, -- CAR_STREAMS_USED
  ⟨0x3812, 0, 1, 1, 1, 1, 1, 0, 1, false⟩, -- CAR_HISTORY_ENABLE
  ⟨0x3812, 1, 1, 4, 0, 5, 0, 0, 4294967295, false⟩, -- CAR_HISTORY_ENTRIES
  ⟨0x3813, 0, 1, 8, 0, 5, 0, 0, 18446744073709551615, false⟩, -- CAR_STAGE_DROPS
  ⟨0x4000, 0, 1, 1, 0, 7, 0, 0, 255, false⟩, -- HBM_STACKS
  ⟨0x4001, 0, 16, 1, 0, 5, 1, 0, 255, false⟩, -- HBM_LEVEL
  ⟨0x4002, 0, 16, 1, 1, 1, 0, 0, 2, true⟩, -- HBM_LEVEL_LIMIT
  ⟨0x4003, 0, 16, 4, 0, 5, 0, 0, 2147483647, false⟩] -- HBM_TEMP

def dict4 : List DEnt := [
  ⟨0x4004, 0, 1, 4, 1, 1, 1000, 100, 10000, false⟩, -- HBM_RETRAIN_INTERVAL
  ⟨0x4004, 1, 1, 1, 1, 1, 4, 1, 8, false⟩, -- HBM_PAUSE_CONCURRENCY
  ⟨0x4004, 2, 1, 8, 0, 5, 0, 0, 18446744073709551615, false⟩, -- HBM_DRIFT_EVENTS
  ⟨0x4005, 0, 16, 0, 0, 5, 0, 0, 0, false⟩, -- HBM_STATS
  ⟨0x4006, 0, 16, 0, 0, 5, 0, 0, 10, false⟩, -- HBM_DEVICE_MARKS
  ⟨0x4007, 0, 1, 4, 1, 1, 24, 1, 168, false⟩, -- HBM_SCRUB_PERIOD
  ⟨0x4008, 0, 16, 1, 2, 1, 0, 0, 255, false⟩, -- HBM_STACK_DRAIN
  ⟨0x4009, 0, 16, 1, 2, 1, 0, 0, 255, false⟩, -- HBM_RETRAIN_STACK
  ⟨0x4010, 0, 1, 8, 0, 5, 0, 0, 18446744073709551615, false⟩, -- HBM_CRIT_REPAIRS
  ⟨0x4800, 0, 1, 2, 0, 5, 0, 0, 512, false⟩, -- STK_TARGETS
  ⟨0x4800, 1, 1, 8, 0, 5, 0, 0, 18446744073709551615, false⟩, -- STK_RAW_BYTES
  ⟨0x4800, 2, 1, 8, 0, 7, 0, 0, 18446744073709551615, false⟩, -- STK_LOGICAL_BYTES
  ⟨0x4800, 3, 1, 0, 0, 5, 0, 0, 0, false⟩, -- STK_GEOMETRY
  ⟨0x4801, 0, 1, 0, 1, 1, 0, 0, 0, true⟩, -- STK_RETRY_TABLE
  ⟨0x4802, 0, 1, 4, 0, 5, 0, 0, 4294967295, false⟩, -- STK_FREE_GROUPS
  ⟨0x4802, 1, 1, 2, 1, 1, 500, 100, 2000, false⟩, -- STK_GC_START
  ⟨0x4802, 2, 1, 2, 1, 1, 200, 20, 1999, false⟩, -- STK_THROTTLE
  ⟨0x4802, 3, 1, 2, 1, 1, 50, 10, 1998, false⟩, -- STK_RESERVE
  ⟨0x4802, 4, 1, 2, 1, 1, 256, 16, 2048, false⟩, -- STK_THROTTLE_WB
  ⟨0x4803, 0, 1, 4, 1, 1, 300, 50, 5000, false⟩, -- STK_WEAR_SPREAD
  ⟨0x4803, 1, 1, 4, 1, 1, 3000, 100, 100000, false⟩, -- STK_ERASE_LIMIT
  ⟨0x4803, 2, 1, 4, 1, 1, 100000, 1000, 10000000, false⟩, -- STK_READ_LIMIT
  ⟨0x4803, 3, 1, 4, 1, 1, 168, 24, 720, false⟩, -- STK_PATROL_PERIOD
  ⟨0x4803, 4, 1, 4, 1, 1, 90, 7, 3650, false⟩] -- STK_RETENTION_AGE

def dict5 : List DEnt := [
  ⟨0x4803, 5, 1, 2, 1, 1, 100, 8, 400, false⟩, -- STK_REFRESH_BITS
  ⟨0x4804, 0, 1, 8, 1, 1, 2000000000000, 250000000000, 8000000000000, false⟩, -- STK_CHECKPOINT_BYTES
  ⟨0x4804, 1, 1, 8, 0, 5, 0, 0, 18446744073709551615, false⟩, -- STK_CHECKPOINT_ROUNDS
  ⟨0x4805, 0, 1, 0, 0, 5, 0, 0, 0, false⟩, -- STK_STATS
  ⟨0x4805, 1, 1, 0, 0, 5, 0, 0, 0, false⟩, -- STK_WEAR
  ⟨0x4806, 0, 1, 4, 0, 5, 0, 0, 4294967295, false⟩, -- STK_RETIRED_GROUPS
  ⟨0x4806, 1, 1, 8, 0, 7, 0, 0, 18446744073709551615, false⟩, -- STK_LOST_UNITS
  ⟨0x4807, 0, 64, 0, 0, 5, 0, 0, 0, false⟩, -- STK_CHANNEL_STATE
  ⟨0x4808, 0, 1, 4, 1, 1, 0, 0, 33554431, false⟩, -- STK_GROUP_SELECT
  ⟨0x4808, 1, 1, 0, 0, 1, 0, 0, 0, false⟩, -- STK_GROUP
  ⟨0x4809, 0, 1, 1, 2, 1, 0, 0, 255, false⟩, -- STK_FORMAT
  ⟨0x6800, 0, 1, 4, 0, 5, 16384, 0, 4294967295, false⟩, -- TLB_CAPACITY
  ⟨0x6800, 1, 1, 4, 0, 5, 0, 0, 4294967295, false⟩, -- TLB_USED
  ⟨0x6801, 0, 1, 2, 0, 5, 0, 0, 65535, false⟩, -- TLB_PENDING_FAULTS
  ⟨0x6801, 1, 1, 4, 1, 1, 1000, 1, 60000, false⟩, -- TLB_FAULT_TIMEOUT
  ⟨0x6801, 2, 1, 4, 1, 1, 50, 1, 1000, false⟩, -- TLB_XLATE_TIMEOUT
  ⟨0x6802, 0, 1, 0, 0, 5, 0, 0, 0, false⟩, -- TLB_STATS
  ⟨0x6802, 1, 1, 8, 0, 7, 0, 0, 18446744073709551615, false⟩, -- TLB_GRAIN_ERRORS
  ⟨0x6803, 0, 1, 0, 2, 3, 0, 0, 0, false⟩, -- TLB_INVALIDATE
  ⟨0x6804, 0, 1, 2, 1, 1, 0, 0, 16383, false⟩, -- TLB_ENTRY_SELECT
  ⟨0x6804, 1, 1, 0, 0, 1, 0, 0, 0, false⟩, -- TLB_ENTRY
  ⟨0x5000, 0, 1, 2, 0, 7, 0, 0, 65535, false⟩, -- CLE_QUADS
  ⟨0x5000, 1, 1, 2, 0, 5, 0, 0, 65535, false⟩, -- CLE_QUADS_GATED
  ⟨0x5001, 0, 1, 2, 0, 5, 0, 0, 65535, false⟩] -- CLE_CONTEXTS_ASSIGNED

def dict6 : List DEnt := [
  ⟨0x5001, 1, 1, 2, 0, 5, 0, 0, 65535, false⟩, -- CLE_JOBS_USED
  ⟨0x5002, 0, 1, 2, 1, 3, 0, 0, 4095, false⟩, -- CLE_CONTEXT_SELECT
  ⟨0x5002, 1, 1, 0, 1, 3, 0, 0, 0, false⟩, -- CLE_CONTEXT
  ⟨0x5002, 2, 1, 1, 2, 3, 0, 0, 255, false⟩, -- CLE_CONTEXT_CONTROL
  ⟨0x5002, 3, 1, 1, 2, 1, 0, 0, 63, false⟩, -- CLE_CONTEXT_ASSIGN
  ⟨0x5003, 0, 1, 4, 1, 1, 5, 1, 1000, false⟩, -- CLE_CHUNK_TIMEOUT
  ⟨0x5003, 1, 1, 4, 1, 1, 2000, 200, 10000, false⟩, -- CLE_LOST_TIMEOUT
  ⟨0x5003, 2, 1, 1, 1, 1, 2, 0, 8, false⟩, -- CLE_REISSUE_LIMIT
  ⟨0x5004, 0, 1, 8, 0, 5, 0, 0, 18446744073709551615, false⟩, -- CLE_STALE_RESULTS
  ⟨0x5004, 1, 1, 8, 0, 7, 0, 0, 18446744073709551615, false⟩, -- CLE_HALTS
  ⟨0x5005, 0, 1, 0, 0, 5, 0, 0, 0, false⟩, -- CLE_STATS
  ⟨0x5100, 0, 1, 0, 2, 1, 0, 0, 0, false⟩, -- WIN_GRANT
  ⟨0x5100, 1, 1, 0, 2, 1, 0, 0, 0, false⟩, -- WIN_BIND
  ⟨0x5101, 0, 1, 8, 1, 3, 0, 0, 4611686018427387903, false⟩, -- WIN_SELECT
  ⟨0x5101, 1, 1, 0, 0, 3, 0, 0, 0, false⟩, -- WIN_RECORD
  ⟨0x5101, 2, 1, 0, 2, 3, 0, 0, 0, false⟩, -- WIN_REARM
  ⟨0x5102, 0, 1, 4, 1, 1, 100, 1, 10000, false⟩, -- WIN_REARM_TIMEOUT
  ⟨0x5102, 1, 1, 4, 1, 1, 100, 10, 10000, false⟩, -- WIN_CONTRIB_TIMEOUT
  ⟨0x5103, 0, 1, 4, 0, 5, 0, 0, 4294967295, false⟩, -- WIN_USED
  ⟨0x5104, 0, 1, 0, 0, 5, 0, 0, 0, false⟩, -- WIN_STATS
  ⟨0x5105, 0, 1, 8, 0, 5, 0, 0, 18446744073709551615, false⟩, -- WIN_SOURCE_STALLS
  ⟨0x1000, 0, 1, 2, 1, 1, 0, 0, 4095, true⟩, -- MAR_NODE_COORD
  ⟨0x1000, 1, 1, 2, 1, 1, 0, 0, 4095, true⟩, -- MAR_RING_SIZE
  ⟨0x1000, 2, 1, 1, 1, 1, 0, 0, 127, true⟩] -- MAR_PORT_ENABLE

def dict7 : List DEnt := [
  ⟨0x1000, 3, 1, 2, 1, 1, 65535, 0, 65535, true⟩, -- MAR_PAIR_PARTNER
  ⟨0x1010, 0, 1, 2, 1, 1, 0, 0, 4095, false⟩, -- MAR_ROUTE_SELECT
  ⟨0x1010, 1, 1, 4, 1, 1, 0, 0, 262143, true⟩, -- MAR_ROUTE
  ⟨0x1010, 2, 1, 1, 2, 1, 0, 0, 255, false⟩, -- MAR_ROUTE_RESET
  ⟨0x1011, 0, 1, 0, 0, 5, 0, 0, 0, false⟩, -- MAR_FAILED_LINKS
  ⟨0x1012, 0, 1, 8, 0, 5, 0, 0, 18446744073709551615, false⟩, -- MAR_TRANSIT_BYTES
  ⟨0x1012, 1, 1, 8, 0, 5, 0, 0, 18446744073709551615, false⟩, -- MAR_SPILL_BYTES
  ⟨0x1013, 0, 1, 4, 0, 5, 65536, 0, 4294967295, false⟩, -- MAR_TAGS_FREE
  ⟨0x1013, 1, 1, 8, 0, 5, 0, 0, 18446744073709551615, false⟩, -- MAR_TAG_STALLS
  ⟨0x1013, 2, 1, 4, 1, 1, 5, 1, 100, false⟩, -- MAR_TAG_QUARANTINE
  ⟨0x1014, 0, 1, 2, 0, 5, 0, 0, 256, false⟩, -- MAR_RANK_UNITS_USED
  ⟨0x1014, 1, 1, 8, 0, 5, 0, 0, 18446744073709551615, false⟩, -- MAR_RANK_REFUSALS
  ⟨0x1015, 0, 1, 0, 0, 5, 0, 0, 0, false⟩, -- MAR_STATS
  ⟨0x1020, 0, 7, 1, 0, 5, 0, 0, 255, false⟩, -- LNK_STATE
  ⟨0x1021, 0, 7, 0, 0, 5, 0, 0, 0, false⟩, -- LNK_STATS
  ⟨0x1022, 0, 7, 0, 0, 5, 0, 0, 0, false⟩, -- LNK_CREDITS
  ⟨0x1023, 0, 1, 4, 1, 1, 1000, 200, 100000, false⟩, -- LNK_REPLAY_TIMEOUT
  ⟨0x1023, 1, 1, 1, 1, 1, 8, 2, 64, false⟩, -- LNK_REPLAY_LIMIT
  ⟨0x1023, 2, 1, 4, 1, 1, 2000, 1000, 100000, false⟩, -- LNK_DEAD_TIME
  ⟨0x1023, 3, 1, 4, 1, 1, 100, 10, 10000, false⟩, -- LNK_RETRY_INTERVAL
  ⟨0x1024, 0, 1, 8, 0, 5, 0, 0, 18446744073709551615, false⟩, -- LNK_REINJECTED
  ⟨0x1024, 1, 1, 8, 0, 5, 0, 0, 18446744073709551615, false⟩, -- LNK_REINJECT_EXPIRED
  ⟨0x1024, 2, 1, 8, 0, 5, 0, 0, 18446744073709551615, false⟩, -- LNK_DUP_DISCARDS
  ⟨0x7800, 0, 1, 2, 0, 5, 0, 0, 65535, false⟩] -- TWN_RANGES_USED

def dict8 : List DEnt := [
  ⟨0x7800, 1, 1, 0, 0, 5, 0, 0, 0, false⟩, -- TWN_PAIR
  ⟨0x7801, 0, 1, 0, 2, 1, 0, 0, 0, false⟩, -- TWN_ATTACH
  ⟨0x7801, 1, 1, 0, 2, 1, 0, 0, 0, false⟩, -- TWN_DETACH
  ⟨0x7801, 2, 1, 0, 2, 1, 0, 0, 0, false⟩, -- TWN_SWAP
  ⟨0x7802, 0, 1, 4, 1, 1, 0, 0, 1048575, false⟩, -- TWN_SELECT
  ⟨0x7802, 1, 1, 0, 0, 5, 0, 0, 0, false⟩, -- TWN_RECORD
  ⟨0x7803, 0, 1, 1, 1, 1, 0, 0, 1, false⟩, -- TWN_COMPARE
  ⟨0x7803, 1, 1, 4, 1, 1, 2000, 200, 100000, false⟩, -- TWN_COMPARE_WINDOW
  ⟨0x7803, 2, 1, 4, 1, 1, 1000, 100, 100000, false⟩, -- TWN_SECOND_TIMEOUT
  ⟨0x7803, 3, 1, 4, 1, 1, 20, 10, 10000, false⟩, -- TWN_PARTNER_TIMEOUT
  ⟨0x7803, 4, 1, 4, 1, 1, 100, 10, 10000, false⟩, -- TWN_BODY_WAIT
  ⟨0x7803, 5, 1, 4, 1, 1, 65536, 1024, 65536, false⟩, -- TWN_LAG_LIMIT
  ⟨0x7804, 0, 1, 0, 0, 5, 0, 0, 0, false⟩, -- TWN_STATS
  ⟨0x7804, 1, 1, 0, 0, 5, 0, 0, 0, false⟩, -- TWN_DIVERGENCE_LAST
  ⟨0x6000, 0, 1, 1, 1, 1, 0, 0, 46, false⟩, -- WGH_SELECT
  ⟨0x6001, 0, 8, 1, 1, 1, 0, 1, 255, false⟩, -- WGH_WEIGHT
  ⟨0x6002, 0, 8, 4, 1, 1, 0, 0, 4294967295, false⟩, -- WGH_RATE
  ⟨0x6003, 0, 8, 4, 1, 1, 65536, 0, 16777216, false⟩, -- WGH_BURST
  ⟨0x6004, 0, 8, 1, 1, 1, 0, 0, 255, false⟩, -- WGH_OVERHEAD
  ⟨0x6005, 0, 1, 0, 1, 1, 0, 0, 64, false⟩, -- WGH_GATE_LIST
  ⟨0x6005, 1, 1, 8, 1, 1, 0, 0, 18446744073709551615, false⟩, -- WGH_GATE_BASE
  ⟨0x6006, 0, 1, 1, 0, 5, 100, 1, 100, false⟩, -- WGH_THROTTLE
  ⟨0x6006, 1, 1, 1, 1, 1, 100, 10, 100, false⟩, -- WGH_THROTTLE_LIMIT
  ⟨0x6006, 2, 1, 1, 1, 1, 50, 10, 100, false⟩] -- WGH_SAFE_PERCENT

def dict9 : List DEnt := [
  ⟨0x6006, 3, 1, 1, 0, 5, 0, 0, 255, false⟩, -- WGH_SAFE_STATE
  ⟨0x6006, 4, 1, 1, 2, 1, 0, 0, 255, false⟩, -- WGH_SAFE_CLEAR
  ⟨0x6007, 0, 1, 0, 0, 5, 0, 0, 0, false⟩, -- WGH_CLASS_STATS
  ⟨0x6008, 0, 1, 0, 0, 5, 0, 0, 0, false⟩, -- WGH_GUARD
  ⟨0x7000, 0, 1, 1, 0, 5, 0, 0, 255, false⟩, -- LCK_PARTITIONS_ACTIVE
  ⟨0x7001, 0, 64, 0, 0, 3, 0, 0, 0, false⟩, -- LCK_PARTITION
  ⟨0x7002, 0, 64, 1, 2, 3, 0, 0, 255, false⟩, -- LCK_PARTITION_CONTROL
  ⟨0x7003, 0, 1, 1, 1, 1, 255, 0, 255, true⟩, -- LCK_LD_PARTITION
  ⟨0x7004, 0, 64, 0, 1, 1, 0, 0, 0, true⟩, -- LCK_TENANT_CRED
  ⟨0x7005, 0, 1, 0, 1, 1, 0, 0, 16, true⟩, -- LCK_OBSERVER_CRED
  ⟨0x7006, 0, 1, 8, 0, 7, 0, 0, 18446744073709551615, false⟩, -- LCK_SECURITY_EVENTS
  ⟨0x7007, 0, 1, 0, 0, 7, 0, 0, 0, false⟩, -- LCK_CERT_CHAIN
  ⟨0x7007, 1, 1, 0, 2, 3, 0, 0, 0, false⟩, -- LCK_ATTEST
  ⟨0x7008, 0, 1, 1, 0, 5, 0, 0, 255, false⟩, -- LCK_TDI_STATE
  ⟨0x7009, 0, 1, 0, 0, 5, 0, 0, 0, false⟩, -- LCK_SWEEP_STATS
  ⟨0x8000, 0, 1, 1, 1, 1, 0, 0, 1, false⟩, -- IRQ_GLOBAL_DISABLE
  ⟨0x8001, 0, 1, 0, 1, 3, 0, 1, 4095, false⟩, -- IRQ_CQ_COALESCE
  ⟨0x8002, 0, 64, 2, 1, 1, 0, 0, 65535, false⟩, -- IRQ_HOLDOFF
  ⟨0x8003, 0, 1, 0, 0, 5, 0, 0, 0, false⟩, -- IRQ_STATS
  ⟨0x8010, 0, 1, 4, 0, 5, 1048576, 0, 4294967295, false⟩, -- IRQ_LOG_CAPACITY
  ⟨0x8010, 1, 1, 8, 0, 7, 0, 0, 18446744073709551615, false⟩, -- IRQ_LOG_NEXT_SEQ
  ⟨0x8010, 2, 1, 8, 0, 7, 0, 0, 18446744073709551615, false⟩, -- IRQ_LOG_OLDEST_SEQ
  ⟨0x8011, 0, 1, 8, 1, 7, 0, 0, 18446744073709551615, false⟩, -- IRQ_LOG_SELECT
  ⟨0x8011, 1, 1, 0, 0, 7, 0, 0, 0, false⟩] -- IRQ_LOG_READ

def dict10 : List DEnt := [
  ⟨0x8012, 0, 1, 2, 1, 5, 0, 0, 65535, false⟩, -- IRQ_SUMMARY_SELECT
  ⟨0x8012, 1, 1, 0, 0, 5, 0, 0, 0, false⟩, -- IRQ_SUMMARY_ENTRY
  ⟨0x8013, 0, 1, 8, 0, 5, 0, 0, 18446744073709551615, false⟩, -- IRQ_EVENTS_DROPPED
  ⟨0x8800, 0, 1, 1, 0, 5, 0, 0, 255, false⟩, -- SAH_CORES_UP
  ⟨0x8801, 0, 1, 8, 0, 7, 0, 0, 18446744073709551615, false⟩, -- SAH_ETH_MAC
  ⟨0x8801, 1, 1, 0, 1, 1, 0, 0, 0, true⟩, -- SAH_ETH_ADDR
  ⟨0x8801, 2, 1, 2, 1, 1, 4800, 0, 65535, true⟩, -- SAH_NASIDOM_PORT
  ⟨0x8801, 3, 1, 0, 0, 5, 0, 0, 0, false⟩, -- SAH_ETH_STATS
  ⟨0x8802, 0, 1, 0, 0, 5, 0, 0, 0, false⟩, -- SAH_RX_STATS
  ⟨0x8803, 0, 1, 0, 1, 1, 0, 0, 0, true⟩, -- SAH_WARDEN_ANCHOR
  ⟨0x8803, 1, 1, 0, 0, 5, 0, 0, 0, false⟩, -- SAH_SESSIONS
  ⟨0x8803, 2, 1, 4, 1, 1, 60, 10, 3600, false⟩, -- SAH_SESSION_IDLE
  ⟨0x8804, 0, 1, 0, 2, 3, 0, 0, 0, false⟩, -- SAH_RDMA_QP
  ⟨0x8804, 1, 1, 0, 2, 3, 0, 0, 0, false⟩, -- SAH_RDMA_REGION
  ⟨0x8804, 2, 1, 0, 2, 3, 0, 0, 0, false⟩, -- SAH_DRAIN
  ⟨0x8804, 3, 1, 0, 0, 5, 0, 0, 0, false⟩, -- SAH_RDMA_STATS
  ⟨0x8810, 0, 1, 4, 1, 1, 0, 800, 1600, true⟩, -- SAH_POWER_CAP
  ⟨0x8810, 1, 1, 4, 0, 5, 0, 0, 4294967295, false⟩, -- SAH_POWER
  ⟨0x8810, 2, 1, 4, 1, 1, 95, 70, 100, true⟩, -- SAH_TJ_TARGET
  ⟨0x8810, 3, 1, 4, 1, 1, 85, 60, 90, true⟩, -- SAH_HBM_TARGET
  ⟨0x8810, 4, 1, 0, 0, 5, 0, 0, 0, false⟩, -- SAH_TEMPS
  ⟨0x8810, 5, 1, 0, 0, 5, 0, 0, 0, false⟩, -- SAH_LOOP_STATE
  ⟨0x8811, 0, 1, 4, 0, 5, 120, 0, 2147483647, false⟩, -- SAH_TRIP_TEMP
  ⟨0x0000, 0, 1, 2, 0, 7, 18432, 0, 65535, false⟩] -- SAH_PART_NUMBER

def dict11 : List DEnt := [
  ⟨0x0000, 1, 1, 0, 0, 7, 0, 0, 0, false⟩, -- SAH_ORDER_CODE
  ⟨0x0000, 2, 1, 0, 0, 7, 0, 0, 0, false⟩, -- SAH_SERIAL
  ⟨0x0000, 3, 1, 0, 0, 7, 0, 0, 0, false⟩, -- SAH_ASSEMBLY
  ⟨0x0000, 4, 1, 2, 0, 7, 0, 0, 65535, false⟩, -- SAH_SLIVERS
  ⟨0x0000, 5, 1, 8, 0, 7, 0, 0, 18446744073709551615, false⟩, -- SAH_LENDABLE_BYTES
  ⟨0x0000, 6, 1, 2, 0, 7, 0, 0, 65535, false⟩, -- SAH_NODE_COORD
  ⟨0x0001, 0, 1, 0, 0, 7, 0, 0, 0, false⟩, -- SAH_SUMMARY
  ⟨0x0001, 1, 1, 8, 0, 7, 0, 0, 18446744073709551615, false⟩, -- SAH_SUMMARY_SEQ
  ⟨0x0001, 2, 1, 1, 2, 1, 0, 0, 255, false⟩, -- SAH_ALERT_CLEAR
  ⟨0x0002, 0, 1, 8, 0, 7, 0, 0, 18446744073709551615, false⟩, -- FW_VERSION
  ⟨0x0002, 1, 1, 0, 2, 3, 0, 0, 0, false⟩, -- FW_HOST_DECLARE
  ⟨0x0002, 2, 1, 0, 0, 1, 0, 0, 0, false⟩, -- FW_HOST_RECORDS
  ⟨0x0003, 0, 1, 8, 0, 7, 0, 0, 18446744073709551615, false⟩, -- SAH_NODE_TIME
  ⟨0x0003, 1, 1, 8, 1, 1, 0, 0, 18446744073709551615, false⟩, -- SAH_WALL_TIME
  ⟨0x8820, 0, 1, 0, 0, 5, 0, 0, 0, false⟩, -- FW_SLOTS
  ⟨0x8821, 0, 1, 4, 1, 1, 0, 0, 33554431, false⟩, -- FW_STAGE_OFFSET
  ⟨0x8821, 1, 1, 0, 3, 1, 0, 0, 0, false⟩, -- FW_STAGE_DATA
  ⟨0x8822, 0, 1, 1, 2, 1, 0, 0, 255, false⟩, -- FW_UPDATE
  ⟨0x8822, 1, 1, 1, 1, 1, 3, 1, 8, false⟩, -- FW_TRIAL_TRIES
  ⟨0x8823, 0, 1, 2, 0, 7, 0, 0, 64, false⟩, -- FW_SVN_MIN
  ⟨0x8824, 0, 1, 0, 0, 7, 0, 0, 0, false⟩, -- FW_MEASUREMENTS
  ⟨0x8825, 0, 1, 0, 0, 5, 0, 0, 0, false⟩, -- FW_WATCHDOG
  ⟨0x8825, 1, 1, 1, 2, 1, 0, 0, 255, false⟩, -- FW_RESTART
  ⟨0x8826, 0, 1, 0, 0, 5, 0, 0, 0, false⟩] -- FW_HANDOFF_LAST

def dict12 : List DEnt := [
  ⟨0xA000, 0, 1, 1, 2, 1, 0, 0, 255, false⟩, -- TST_NODE_RECOVER
  ⟨0xA000, 1, 1, 1, 2, 1, 0, 0, 255, false⟩, -- TST_COLD_RESET
  ⟨0xA001, 0, 1, 2, 2, 1, 0, 0, 1023, false⟩, -- TST_SLICE_RESET
  ⟨0xA002, 0, 16, 1, 2, 1, 0, 0, 255, false⟩, -- TST_STACK_BIST
  ⟨0xA003, 0, 1, 2, 2, 1, 0, 0, 1023, false⟩, -- TST_QUAD_BIST
  ⟨0xA004, 0, 24, 1, 2, 1, 0, 0, 255, false⟩, -- TST_CXL_HOLD
  ⟨0xA005, 0, 24, 1, 2, 1, 0, 0, 255, false⟩, -- TST_CXL_MARGIN
  ⟨0xA006, 0, 7, 1, 2, 1, 0, 0, 255, false⟩, -- TST_LINK_MARGIN
  ⟨0xA007, 0, 64, 1, 2, 1, 0, 0, 255, false⟩, -- TST_NAND_CHANNEL
  ⟨0xA008, 0, 1, 0, 0, 1, 0, 0, 0, false⟩, -- TST_RESULT
  ⟨0xA009, 0, 1, 0, 0, 5, 0, 0, 0, false⟩, -- TST_BOOT_REPORT
  ⟨0xA00A, 0, 1, 0, 0, 5, 0, 0, 0, false⟩, -- TST_RESET_STATS
  ⟨0x9000, 0, 1, 0, 0, 5, 0, 1, 26, false⟩, -- RAS_COUNTS
  ⟨0x9000, 1, 1, 0, 0, 5, 0, 0, 0, false⟩, -- RAS_CLASS_COUNTS
  ⟨0x9001, 0, 1, 4, 1, 1, 1000, 1, 1000000, false⟩, -- RAS_CE_THRESHOLD
  ⟨0x9001, 1, 1, 4, 1, 1, 60, 1, 3600, false⟩, -- RAS_CE_WINDOW
  ⟨0x9002, 0, 1, 8, 0, 7, 0, 0, 18446744073709551615, false⟩, -- RAS_POISON_READS
  ⟨0x9002, 1, 1, 8, 0, 7, 0, 0, 18446744073709551615, false⟩, -- RAS_POISON_WRITES
  ⟨0x9002, 2, 1, 8, 0, 5, 0, 0, 18446744073709551615, false⟩, -- RAS_WINDOW_POISONED
  ⟨0x9003, 0, 1, 8, 0, 5, 0, 0, 18446744073709551615, false⟩, -- RAS_LEDGER_LOST
  ⟨0x9003, 1, 1, 8, 0, 5, 0, 0, 18446744073709551615, false⟩, -- RAS_LEDGER_POISONED
  ⟨0x9004, 0, 1, 0, 0, 5, 0, 0, 0, false⟩, -- RAS_LIMITS
  ⟨0x9004, 1, 1, 1, 2, 1, 0, 0, 255, false⟩] -- RAS_LIMIT_CLEAR

/-- Every entry of the dictionary. -/
def dict : List DEnt :=
  dict1 ++ dict2 ++ dict3 ++ dict4 ++ dict5 ++ dict6 ++ dict7 ++ dict8 ++ dict9 ++ dict10 ++ dict11 ++ dict12

/-- The entry that defines an index and subindex, if one does (R14, R541). -/
def dictFind (index sub : Nat) : Option DEnt :=
  dict.find? fun e => e.index == index && decide (e.sub ≤ sub) && decide (sub < e.sub + e.count)

/-- Whether an index has any entry (R541: a subindex out of range is ABSENT too). -/
def dictKey (index sub : Nat) : Nat := index * 256 + sub

/-- PGA_DRAIN_WINDOW -/
def rPgaDrainWindow (s : State) : Nat := tget 100 s.regs 0x201400
/-- CXL_DC_ACCEPT_TIMEOUT -/
def rCxlDcAcceptTimeout (s : State) : Nat := tget 10000 s.regs 0x112000
/-- CXL_DC_RELEASE_TIMEOUT -/
def rCxlDcReleaseTimeout (s : State) : Nat := tget 10000 s.regs 0x112001
/-- CXL_POISON_INJECT -/
def rCxlPoisonInject (s : State) : Nat := tget 0 s.regs 0x112100
/-- CXL_PRIV_LD -/
def rCxlPrivLd (s : State) : Nat := tget 65535 s.regs 0x112200
/-- LDG_TIMEOUT -/
def rLdgTimeout (s : State) : Nat := tget 20 s.regs 0x300100
/-- LDG_PROXY_ALLOWANCE -/
def rLdgProxyAllowance (s : State) : Nat := tget 1 s.regs 0x300101
/-- LDG_READMIT_AUTO -/
def rLdgReadmitAuto (s : State) : Nat := tget 1 s.regs 0x300700
/-- CAR_MODE_NEXT -/
def rCarModeNext (s : State) : Nat := tget 1 s.regs 0x380001
/-- CAR_DIRTY_HIGH -/
def rCarDirtyHigh (s : State) : Nat := tget 10 s.regs 0x380200
/-- CAR_DIRTY_LOW -/
def rCarDirtyLow (s : State) : Nat := tget 5 s.regs 0x380201
/-- CAR_PIN_LIMIT -/
def rCarPinLimit (s : State) : Nat := tget 25 s.regs 0x380202
/-- CAR_STAGE_LIMIT -/
def rCarStageLimit (s : State) : Nat := tget 50 s.regs 0x380203
/-- CAR_STAGE_HOLD -/
def rCarStageHold (s : State) : Nat := tget 1000 s.regs 0x380204
/-- CAR_HISTORY_ENABLE -/
def rCarHistoryEnable (s : State) : Nat := tget 1 s.regs 0x381200
/-- HBM_RETRAIN_INTERVAL -/
def rHbmRetrainInterval (s : State) : Nat := tget 1000 s.regs 0x400400
/-- HBM_PAUSE_CONCURRENCY -/
def rHbmPauseConcurrency (s : State) : Nat := tget 4 s.regs 0x400401
/-- HBM_SCRUB_PERIOD -/
def rHbmScrubPeriod (s : State) : Nat := tget 24 s.regs 0x400700
/-- STK_GC_START -/
def rStkGcStart (s : State) : Nat := tget 500 s.regs 0x480201
/-- STK_THROTTLE -/
def rStkThrottle (s : State) : Nat := tget 200 s.regs 0x480202
/-- STK_RESERVE -/
def rStkReserve (s : State) : Nat := tget 50 s.regs 0x480203
/-- STK_THROTTLE_WB -/
def rStkThrottleWb (s : State) : Nat := tget 256 s.regs 0x480204
/-- STK_WEAR_SPREAD -/
def rStkWearSpread (s : State) : Nat := tget 300 s.regs 0x480300
/-- STK_ERASE_LIMIT -/
def rStkEraseLimit (s : State) : Nat := tget 3000 s.regs 0x480301
/-- STK_READ_LIMIT -/
def rStkReadLimit (s : State) : Nat := tget 100000 s.regs 0x480302
/-- STK_PATROL_PERIOD -/
def rStkPatrolPeriod (s : State) : Nat := tget 168 s.regs 0x480303
/-- STK_RETENTION_AGE -/
def rStkRetentionAge (s : State) : Nat := tget 90 s.regs 0x480304
/-- STK_REFRESH_BITS -/
def rStkRefreshBits (s : State) : Nat := tget 100 s.regs 0x480305
/-- STK_CHECKPOINT_BYTES -/
def rStkCheckpointBytes (s : State) : Nat := tget 2000000000000 s.regs 0x480400
/-- TLB_FAULT_TIMEOUT -/
def rTlbFaultTimeout (s : State) : Nat := tget 1000 s.regs 0x680101
/-- TLB_XLATE_TIMEOUT -/
def rTlbXlateTimeout (s : State) : Nat := tget 50 s.regs 0x680102
/-- CLE_CHUNK_TIMEOUT -/
def rCleChunkTimeout (s : State) : Nat := tget 5 s.regs 0x500300
/-- CLE_LOST_TIMEOUT -/
def rCleLostTimeout (s : State) : Nat := tget 2000 s.regs 0x500301
/-- CLE_REISSUE_LIMIT -/
def rCleReissueLimit (s : State) : Nat := tget 2 s.regs 0x500302
/-- WIN_REARM_TIMEOUT -/
def rWinRearmTimeout (s : State) : Nat := tget 100 s.regs 0x510200
/-- WIN_CONTRIB_TIMEOUT -/
def rWinContribTimeout (s : State) : Nat := tget 100 s.regs 0x510201
/-- MAR_NODE_COORD -/
def rMarNodeCoord (s : State) : Nat := tget 0 s.regs 0x100000
/-- MAR_RING_SIZE -/
def rMarRingSize (s : State) : Nat := tget 0 s.regs 0x100001
/-- MAR_PORT_ENABLE -/
def rMarPortEnable (s : State) : Nat := tget 0 s.regs 0x100002
/-- MAR_PAIR_PARTNER -/
def rMarPairPartner (s : State) : Nat := tget 65535 s.regs 0x100003
/-- MAR_TAG_QUARANTINE -/
def rMarTagQuarantine (s : State) : Nat := tget 5 s.regs 0x101302
/-- LNK_REPLAY_TIMEOUT -/
def rLnkReplayTimeout (s : State) : Nat := tget 1000 s.regs 0x102300
/-- LNK_REPLAY_LIMIT -/
def rLnkReplayLimit (s : State) : Nat := tget 8 s.regs 0x102301
/-- LNK_DEAD_TIME -/
def rLnkDeadTime (s : State) : Nat := tget 2000 s.regs 0x102302
/-- LNK_RETRY_INTERVAL -/
def rLnkRetryInterval (s : State) : Nat := tget 100 s.regs 0x102303
/-- TWN_COMPARE -/
def rTwnCompare (s : State) : Nat := tget 0 s.regs 0x780300
/-- TWN_COMPARE_WINDOW -/
def rTwnCompareWindow (s : State) : Nat := tget 2000 s.regs 0x780301
/-- TWN_SECOND_TIMEOUT -/
def rTwnSecondTimeout (s : State) : Nat := tget 1000 s.regs 0x780302
/-- TWN_PARTNER_TIMEOUT -/
def rTwnPartnerTimeout (s : State) : Nat := tget 20 s.regs 0x780303
/-- TWN_BODY_WAIT -/
def rTwnBodyWait (s : State) : Nat := tget 100 s.regs 0x780304
/-- TWN_LAG_LIMIT -/
def rTwnLagLimit (s : State) : Nat := tget 65536 s.regs 0x780305
/-- WGH_SAFE_PERCENT -/
def rWghSafePercent (s : State) : Nat := tget 50 s.regs 0x600602
/-- IRQ_GLOBAL_DISABLE -/
def rIrqGlobalDisable (s : State) : Nat := tget 0 s.regs 0x800000
/-- SAH_NASIDOM_PORT -/
def rSahNasidomPort (s : State) : Nat := tget 4800 s.regs 0x880102
/-- SAH_SESSION_IDLE -/
def rSahSessionIdle (s : State) : Nat := tget 60 s.regs 0x880302
/-- SAH_TJ_TARGET -/
def rSahTjTarget (s : State) : Nat := tget 95 s.regs 0x881002
/-- SAH_HBM_TARGET -/
def rSahHbmTarget (s : State) : Nat := tget 85 s.regs 0x881003
/-- FW_TRIAL_TRIES -/
def rFwTrialTries (s : State) : Nat := tget 3 s.regs 0x882201
/-- RAS_CE_THRESHOLD -/
def rRasCeThreshold (s : State) : Nat := tget 1000 s.regs 0x900100
/-- RAS_CE_WINDOW -/
def rRasCeWindow (s : State) : Nat := tget 60 s.regs 0x900101
/-- FW_STAGE_OFFSET -/
def rFwStageOffset (s : State) : Nat := tget 0 s.regs 0x882100
/-- LDG_LOOKUP_PGA -/
def rLdgLookupPga (s : State) : Nat := tget 0 s.regs 0x301000

/-- The thermal design power of the assembly in W (R613). -/
def designPower (a : Asm) : Nat := 1136 + (a.hbmStacks - 8) * 91 / 2 + 50 * (a.dies - 1)

/-- SAH_POWER_CAP: its default is the design power. -/
def rSahPowerCap (s : State) : Nat := tget (designPower s.asm) s.regs 0x881000

/-- A plain register's key, default and value written; the default is never listed. -/
def setReg (key dflt v : Nat) (s : State) : State := { s with regs := tset dflt s.regs key v }

end Sys2Proof.Machine
end

