-- ==== Sys2Proof/Machine/Ops.lean ====
section
/-! DEFINITION. The shared operations: sending, counting, events (R498 to R501), MSI-X messages (R483 to R490) and the
request and answer of Nasidom (R520 to R530). -/
namespace Sys2Proof.Machine

/-! ### Sending, drawing, counting -/

/-- Latch an alert of the privileged view (R107): 0 THERMAL_WARN, 1 CHANNEL_FENCED, 2 TWIN_LOST, 3 WATCHDOG. -/
def latchAlert (i : Nat) (s : State) : State := { s with cxl := { s.cxl with alerts := setBit s.cxl.alerts i } }

/-- Send one item. -/
def emit (e : Emit) (s : State) : State := { s with out := e :: s.out }

/-- Send an Ethernet frame of Nasidom, DTLS or RDMA, counted in `SAH_ETH_STATS`. -/
def sendFrame (e : Emit) (s : State) : State :=
  emit e { s with sah := { s.sah with ethStats := s.sah.ethStats.set 4 (s.sah.ethStats.getD 4 0 + 1) } }

/-- The next free value (log 5, DESIGN CHOICE). -/
def draw (s : State) : Nat := Config.fresh s.fresh

/-- The free value at `draw` has been taken. -/
def drawn (s : State) : State := { s with fresh := s.fresh + 1 }

/-- A list of counts with `n` added at position `i`. -/
def bump (l : List Nat) (i n : Nat) : List Nat := l.set i (l.getD i 0 + n)

/-- A table of counts with `n` added at key `k`. -/
def tbump (t : Tbl Nat) (k n : Nat) : Tbl Nat := tset 0 t k (tget 0 t k + n)

/-- The sum of a table of counts. -/
def tsum (t : Tbl Nat) : Nat := t.foldl (fun a p => a + p.2) 0

/-- Run an operation for each item of a list, in order. -/
def each {α : Type} (l : List α) (f : α → State → State) (s : State) : State := l.foldl (fun s a => f a s) s

/-- Milliseconds and microseconds in node time (ns). -/
def msec (n : Nat) : Nat := n * 1000000
def usec (n : Nat) : Nat := n * 1000

/-! ### The image in service (R556, R559) -/

/-- A header field of an image (R556). -/
def imageField (i : Image) (off w : Nat) : Nat := fromLE ((List.range w).map fun k => tget 0 i.bytes (off + k))

def fwVersion (s : State) : Nat := imageField s.fw.running 8 8
def fwSvn (s : State) : Nat := imageField s.fw.running 6 2

/-- Whether the firmware's background work pauses: during a Sahtin restart, and while Sahtin stays stopped (R568, R569). -/
def firmwareHeld (s : State) : Bool := s.fw.update != 0 || s.fw.stopped

/-! ### Interrupt controllers of the management cores (R493) -/

/-- Assert an internal source at every management core's controller. -/
def assertSource (src : Nat) (s : State) : State :=
  { s with evt := { s.evt with sic := [0, 1, 2, 3].foldl (fun t c =>
      let k := (tfind t c).getD {}
      tput t c { k with pending := if src ∈ k.pending then k.pending else src :: k.pending }) s.evt.sic } }

/-- Deassert an internal source. -/
def deassertSource (src : Nat) (s : State) : State :=
  { s with evt := { s.evt with sic := s.evt.sic.map fun p =>
      (p.1, { p.2 with pending := p.2.pending.filter (· != src) }) } }

/-! ### Events -/

/-- The summary position of an event code (R501). -/
def summaryPos (code : Nat) : Nat := 8 * bits code 10 6 + bits code 0 10 - 1

/-- DETAIL padded with zeros to 48 B (R498). -/
def pad48 (b : Bytes) : Bytes := (b ++ zeros 48).take 48

/-- Raise an event (R498): it is counted in its summary entry (R501) and waits for the event engine, or is dropped and counted while the
queue is full (R500). -/
def raise (code sev : Nat) (part : Option Nat) (detail : Bytes) (s : State) : State :=
  let e := (tfind s.evt.summary (summaryPos code)).getD {}
  if s.evt.queue.length < 4096 then
    { s with evt := { s.evt with
        queue := s.evt.queue ++ [{ code := code, severity := sev, part := part, time := s.now, detail := pad48 detail }]
        summary := tput s.evt.summary (summaryPos code) { e with count := e.count + 1, time := s.now } } }
  else
    { s with evt := { s.evt with
        dropped := s.evt.dropped + 1,
        summary := tput s.evt.summary (summaryPos code)
          { count := e.count + 1, dropped := e.dropped + 1, time := s.now } } }

/-- An event record's 64 B (R498). -/
def eventBytes (e : Event) : Bytes :=
  toLE 8 (packBits [(40, e.seq), (16, e.code), (2, e.severity), (6, e.part.getD 0)]) ++
  toLE 8 (packBits [(63, e.time), (1, b2n e.part.isNone)]) ++ pad48 e.detail

/-- Count an error of a structure and its class (R593, R607): corrected errors are class 0. -/
def countError (structure_ cls : Nat) (s : State) : State :=
  { s with ras := { s.ras with
      corrected := if cls = 0 then tbump s.ras.corrected structure_ 1 else s.ras.corrected,
      uncorrectable := if cls = 0 then s.ras.uncorrectable else tbump s.ras.uncorrectable structure_ 1,
      classes := tbump s.ras.classes cls 1 } }

/-- The DETAIL of an error event (R607). -/
def errorDetail (s : State) (structure_ cls unit addr path requester lines : Nat) : Bytes :=
  packLE [(4, packBits [(8, structure_), (3, cls), (5, 0), (16, unit)]), (4, tget 0 s.ras.uncorrectable structure_),
    (8, addr), (8, path), (8, requester), (8, lines)]

/-- An uncorrectable error of class 2 or 1 met on a path: counted and raised as UE_CONTAINED (R600, R606). -/
def contained (structure_ cls unit addr path requester : Nat) (part : Option Nat) (s : State) : State :=
  let s := countError structure_ cls s
  raise 0x3802 2 part (errorDetail s structure_ cls unit addr path requester 0) s

/-- A corrected error of a structure's unit, counted in the window of R595; CE_STORM is raised when the count reaches
the threshold. -/
def corrected (structure_ unit : Nat) (s : State) : State :=
  let s := countError structure_ 0 s
  let k := structure_ * 65536 + unit
  let n := tget 0 s.ras.window k + 1
  let s := { s with ras := { s.ras with window := tset 0 s.ras.window k n } }
  if n = rRasCeThreshold s then
    raise 0x3801 1 none (errorDetail s structure_ 0 unit 0 0 0 0) s
  else s

/-- A security event of R50, R204 or R230, counted by partition. -/
def security (part : Nat) (detail : Bytes) (s : State) : State :=
  let s := { s with lck := { s.lck with secEvents := tbump s.lck.secEvents part 1 } }
  raise 0x0802 2 (some part) detail s

/-! ### MSI-X (R483 to R491) -/

/-- A logical device's number: port × 16 + logical device. -/
def ldKey (port ld : Nat) : Nat := port * 16 + ld

def msixOf (s : State) (k : Nat) : MsiX := (tfind s.msix k).getD {}

/-- Whether a vector's group is held off (R489). -/
def heldOff (s : State) (m : MsiX) (vec : Nat) : Bool := decide (s.now < tget 0 m.heldUntil (vec / 32))

/-- Whether a vector may be delivered now: neither masked nor globally disabled (R483, R491). -/
def deliverable (s : State) (m : MsiX) (vec : Nat) : Bool :=
  decide (vec ∈ m.unmasked) && rIrqGlobalDisable s == 0

/-- Send a vector's message and start its group's hold-off (R489). -/
def sendVector (k vec : Nat) (s : State) : State :=
  let m := msixOf s k
  let h := tget 0 m.holdoff (vec / 32)
  let m := { m with
    pending := m.pending.filter (· != vec),
    heldUntil := if h = 0 then m.heldUntil else tput m.heldUntil (vec / 32) (s.now + usec h),
    stats := bump m.stats 1 1 }
  let e := tget (0, 0) m.table vec
  emit (.msix (k / 16) (k % 16) vec e.1 e.2) { s with msix := tput s.msix k m }

/-- A source fires a vector (R483): sent, made pending, or merged into a pending bit. -/
def fireVector (k vec : Nat) (s : State) : State :=
  let m := msixOf s k
  let m := { m with stats := bump m.stats 0 1 }
  let s' := { s with msix := tput s.msix k m }
  if vec ∈ m.pending then { s with msix := tput s.msix k { m with stats := bump m.stats 2 1 } }
  else if deliverable s m vec && !heldOff s m vec then sendVector k vec s'
  else
    { s with msix := tput s.msix k { m with
        pending := vec :: m.pending,
        stats := if heldOff s m vec then bump m.stats 3 1 else m.stats } }

/-- The vectors of a group that are pending and deliverable, ascending (R489). -/
def readyVectors (s : State) (m : MsiX) (g : Nat) : List Nat :=
  (List.range 32).filterMap fun i =>
    let v := 32 * g + i
    if v ∈ m.pending && deliverable s m v then some v else none

/-- A group's release: one message for each of its deliverable pending vectors; a new hold-off starts if any was sent
(R489). -/
def releaseGroup (k g : Nat) (s : State) : State :=
  let m := msixOf s k
  let ready := readyVectors s m g
  let s := { s with msix := tput s.msix k { m with heldUntil := tdel m.heldUntil g } }
  each ready (sendVector k) s

/-- A context's queue fires its vector; the count and the timer return to 0 (R485, R487). -/
def fireContext (ctx : Nat) (s : State) : State :=
  match tfind s.cle.ctxs ctx with
  | none => s
  | some c =>
    let s := { s with cle := { s.cle with ctxs := tput s.cle.ctxs ctx { c with n := 0, timerAt := none } } }
    fireVector (ldKey c.port c.ld) c.vector s

/-- A completion record with IRQ set was written (R485). -/
def countCompletion (ctx : Nat) (s : State) : State :=
  match tfind s.cle.ctxs ctx with
  | none => s
  | some c =>
    let c := { c with n := c.n + 1, timerAt := if c.n = 0 then some s.now else c.timerAt }
    let s := { s with cle := { s.cle with ctxs := tput s.cle.ctxs ctx c } }
    if c.countThr ≤ c.n then fireContext ctx s else s

/-! ### Nasidom requests and answers -/

/-- Statuses of R522 and R553. -/
def stOk : Nat := 0
def stAbsent : Nat := 1
def stDenied : Nat := 2
def stReadOnly : Nat := 3
def stBadValue : Nat := 4
def stBusy : Nat := 5
def stMalformed : Nat := 6
def stTooMany : Nat := 7
def stAccepted : Nat := 8
def stStale : Nat := 9
def stBookFull : Nat := 0x100
def stNoCapacity : Nat := 0x101
def stIsetFull : Nat := 0x102
def stBadAlign : Nat := 0x103
def stViewConflict : Nat := 0x104
def stRejected : Nat := 0x105
def stTimeout : Nat := 0x106
def stNotWindow : Nat := 0x107
def stWrongPartition : Nat := 0x108
def stBadFormat : Nat := 0x109
def stBadLength : Nat := 0x10A
def stBadQueue : Nat := 0x10B
def stBadVector : Nat := 0x10C
def stRankSpace : Nat := 0x10D
def stStreamFull : Nat := 0x10E
def stNoTier : Nat := 0x10F
def stWindow : Nat := 0x110
def stNotDurable : Nat := 0x111
def stNotHome : Nat := 0x112
def stNotDrained : Nat := 0x113
def stNoPartner : Nat := 0x114
def stTwinFull : Nat := 0x115
def stNoKeys : Nat := 0x116
def stEpochWrap : Nat := 0x117
def stAccess : Nat := 0x118
def stRemote : Nat := 0x119
def stIncompatible : Nat := 0x11A
def stUnreachable : Nat := 0x11B
def stRecovered : Nat := 0x11C

def sessionOf (s : State) (sid : Nat) : Option Session := tfind s.sah.sessions sid

def setSession (sid : Nat) (x : Session) (s : State) : State :=
  { s with sah := { s.sah with sessions := tput s.sah.sessions sid x } }

/-- The role mark of a session's role (R11): bit 0 warden, bit 1 tenant, bit 2 observer. -/
def roleBit (role : Nat) : Nat := if role = 1 then 1 else if role = 2 then 2 else 4

/-- A session's value of a `_SELECT` entry, with the entry's default (R520). -/
def selectOf (x : Session) (key dflt : Nat) : Nat := tget dflt x.selects key

/-- How long an EXEC may run before it is answered ACCEPTED (R525). -/
def execLimit : Nat := msec 100

/-- Requests of a session that have run for 100 ms are answered ACCEPTED, once each (R525); the answer is kept among the last 64 (R530). -/
def acceptOverdue (sid : Nat) (s : State) : State :=
  match sessionOf s sid with
  | none => s
  | some x =>
    let late := x.running.filter fun r => !r.2.2.2 && decide (r.2.1 + execLimit ≤ s.now)
    let s := setSession sid { x with
      running := x.running.map fun r => if r.2.1 + execLimit ≤ s.now then (r.1, r.2.1, r.2.2.1, true) else r
      cache := (late.foldl (fun c r => (r.1, stAccepted, 0, []) :: c) x.cache).take 64 } s
    each late (fun r s => sendFrame (.nasidom sid r.1 stAccepted 0 []) s) s

/-- The status a CMD entry reports when it is read (R10). -/
def setStatus (key status : Nat) (s : State) : State :=
  { s with sah := { s.sah with cmdStatus := tset 0 s.sah.cmdStatus key status } }

/-- Keep a response among the session's last 64 (R530). -/
def keepResponse (req status total : Nat) (body : Bytes) (x : Session) : Session :=
  { x with cache := ((req, status, total, body) :: x.cache).take 64 }

/-- Answer a request: the response is sent and kept among the session's last 64 (R530). A request already answered
ACCEPTED completes with a notice that is kept until its entry is read (R525, R527). -/
def finish (q : Ask) (key status : Nat) (body : Bytes) (s : State) : State :=
  let s := acceptOverdue q.sid (setStatus key status s)
  match sessionOf s q.sid with
  | none => s
  | some x =>
    let accepted := x.running.any fun r => r.1 == q.req && r.2.2.2
    let x := { x with running := x.running.filter (fun r => r.1 != q.req) }
    if accepted then
      let x := { x with dones := x.dones ++ [{ entry := key, req := q.req, status := status, result := body,
                                               due := s.now + msec 200 }] }
      sendFrame (.notice q.sid 3 q.req key status (packLE [(1, 3), (1, 0), (1, 0), (5, 0)] ++ body)) (setSession q.sid x s)
    else
      sendFrame (.nasidom q.sid q.req status body.length body)
        (setSession q.sid (keepResponse q.req status body.length body x) s)

/-- Answer a READ, a staged part or a SUBSCRIBE: `total` is the length of the whole value (R521, R523). No status of a CMD
entry changes. -/
def reply (q : Ask) (status total : Nat) (body : Bytes) (s : State) : State :=
  match sessionOf s q.sid with
  | none => s
  | some x =>
    let x := { x with running := x.running.filter (fun r => r.1 != q.req) }
    sendFrame (.nasidom q.sid q.req status total body) (setSession q.sid (keepResponse q.req status total body x) s)

/-- Refuse a request: answered without touching a CMD entry's status, and no longer outstanding. -/
def refuse (q : Ask) (status : Nat) (s : State) : State :=
  match sessionOf s q.sid with
  | none => s
  | some x =>
    let x := { x with running := x.running.filter (fun r => r.1 != q.req) }
    sendFrame (.nasidom q.sid q.req status 0 []) (setSession q.sid (keepResponse q.req status 0 [] x) s)

/-- Whether a session's declaration was refused (R552). -/
def undeclared (x : Session) : Bool := match x.declared with | some (_, _, 1) => true | _ => false

/-- Receive a request (R519 to R530, R552): dropped while Nasidom does not answer or the session is closed; answered
from the cache, STALE, MALFORMED, TOO_MANY, DENIED or INCOMPATIBLE where those rules say so; otherwise `act` runs with the request
counted as outstanding. `changes` marks a WRITE, an EXEC or a SUBSCRIBE that adds. -/
def ask (q : Ask) (roles key : Nat) (changes : Bool) (act : Session → State → State) (s : State) : State :=
  if !s.sah.up then s
  else match sessionOf s q.sid with
  | none => s
  | some x =>
    let s := acceptOverdue q.sid (setSession q.sid { x with lastAt := s.now } s)
    match x.cache.find? (fun c => c.1 == q.req) with
    | some c => sendFrame (.nasidom q.sid q.req c.2.1 c.2.2.1 c.2.2.2) s
    | none =>
      if (x.running.any fun r => r.1 == q.req) then s
      else if !x.cache.isEmpty && (x.cache.all fun c => decide (q.req < c.1)) then
        sendFrame (.nasidom q.sid q.req stStale 0 []) s
      else if q.version != 1 || q.reserved != 0 then refuse q stMalformed s
      else if 64 ≤ (x.running.filter fun r => !r.2.2.2).length then refuse q stTooMany s
      else if !bitOf roles (if x.role = 1 then 0 else if x.role = 2 then 1 else 2) then refuse q stDenied s
      else if changes && undeclared x then refuse q stIncompatible s
      else match sessionOf s q.sid with
        | none => s
        | some x =>
          let x := { x with running := x.running ++ [(q.req, s.now, key, false)] }
          act x (setSession q.sid x s)

/-- A WRITE to a stored entry waits for both copies of the configuration store (R543); its answer is sent then. `sel` is the
object that a selected entry names (log 50, DEDUCED). -/
def storeLater (q : Ask) (key sel value : Nat) (blob : Bytes) (s : State) : State :=
  { s with sah := { s.sah with stored := s.sah.stored ++ [{ ask := q, key := key, value := value, blob := blob, sel := sel }] } }

/-- Whether a tenant session may act on a partition (R11, R520): the warden may act on every one. -/
def ownsPart (x : Session) (part : Nat) : Bool := x.role != 2 || x.part == part

/-- A partition record (R460). -/
def partOf (s : State) (p : Nat) : Partition := (tfind s.lck.parts p).getD {}

end Sys2Proof.Machine
end

