-- ==== Sys2Proof/Machine/Route.lean ====
section
/-! DEFINITION. Routing in the fabric (R336 to R353), the queues of the schedulers (R430 to R432), transaction tags (R360)
and the ways a node sends a packet. -/
namespace Sys2Proof.Machine

/-! ### Coordinates (R336, R337) -/

/-- The coordinates of this node. -/
def hereAt (s : State) : Nat := rMarNodeCoord s

/-- Coordinate of dimension `d` (0 x, 1 y, 2 z) of a 12-bit node coordinate. -/
def coordOf (c d : Nat) : Nat := bits c (4 * d) 4

/-- The ring size of a dimension. -/
def ringSize (s : State) (d : Nat) : Nat := bits (rMarRingSize s) (4 * d) 4 + 1

/-- Whether coordinates lie in a torus whose sizes are packed as in MAR_RING_SIZE (R336). -/
def inSizes (sizes c : Nat) : Bool := decide (c < 4096) && [0, 1, 2].all fun d => decide (coordOf c d ≤ bits sizes (4 * d) 4)

/-- Whether coordinates lie in the populated torus (R336). -/
def inTorus (s : State) (c : Nat) : Bool := inSizes (rMarRingSize s) c

/-- The coordinates `h` hops from `c` along dimension `d` in direction `dir` (0 +, 1 −). -/
def hopFrom (s : State) (c d dir h : Nat) : Nat :=
  let n := ringSize s d
  putBits c (4 * d) 4 ((coordOf c d + (if dir = 0 then h else n - h % n)) % n)

/-- The node at the other end of a port's cable (R337, R338). -/
def neighbour (s : State) (port : Nat) : Nat :=
  if port = 6 then rMarPairPartner s else hopFrom s (hereAt s) (port % 3) (port / 3) 1

/-- The name of a port's link in the failed-link table (R346): coordinates + 4096 × dimension. -/
def linkName (s : State) (port : Nat) : Nat :=
  if port = 6 then min (hereAt s) (rMarPairPartner s) + 4096 * 3
  else if port < 3 then hereAt s + 4096 * port
  else neighbour s port + 4096 * (port % 3)

/-- Every node of the populated torus but this one. -/
def otherNodes (s : State) : List Nat :=
  ((List.range (ringSize s 2)).flatMap fun z => (List.range (ringSize s 1)).flatMap fun y =>
    (List.range (ringSize s 0)).map fun x => 256 * z + 16 * y + x).filter (· != hereAt s)

/-! ### Links -/

def linkOf (s : State) (port : Nat) : Link := (tfind s.lnk.ports port).getD {}
def setLink (port : Nat) (l : Link) (s : State) : State :=
  { s with lnk := { s.lnk with ports := tput s.lnk.ports port l } }

/-- Whether a port is up (R385). -/
def portUp (s : State) (port : Nat) : Bool := (linkOf s port).state == 3

/-- Credits a sender has on a VC (R375). -/
def creditsOf (l : Link) (vc : Nat) : Nat :=
  (l.farBuffers.getD vc 0 + 4096 + l.totals.getD vc 0 - l.sentUnits.getD vc 0 % 4096) % 4096

/-! ### Schedulers (R429 to R432) -/

/-- Default weight of a class (R448). -/
def dfltWeight (c : Nat) : Nat :=
  if c = 2 then 64 else if c = 3 || c = 4 then 32 else if c = 5 || c = 6 then 16 else 4

/-- Default overhead at a scheduler (R448). -/
def dfltOverhead (k : Nat) : Nat := if k < 16 then 0 else if k < 23 then 52 else 9

/-- A scheduler at its defaults (R446, R448). -/
def freshSched (k : Nat) : Sched :=
  { cls := (List.range 8).map fun c => (c, { weight := dfltWeight c, nextWeight := dfltWeight c,
                                             overhead := dfltOverhead k, nextOverhead := dfltOverhead k }) }

def schedOf (s : State) (k : Nat) : Sched :=
  (tfind s.wgh.sched k).getD { freshSched k with lastSlot := s.now / 64 }
def setSched (k : Nat) (x : Sched) (s : State) : State := { s with wgh := { s.wgh with sched := tput s.wgh.sched k x } }
def classOf (x : Sched) (c : Nat) : WClass := (tfind x.cls c).getD {}
def setClass (k c : Nat) (w : WClass) (s : State) : State :=
  let x := schedOf s k
  setSched k { x with cls := tput x.cls c w } s

/-- Queue sizes (R432). -/
def queueLimit (k c : Nat) : Nat :=
  if k < 16 then (if c = 0 then 512 else 1024) else if k < 23 then 256 else if c = 2 then 2048 else 1024

/-- Whether a class queue is full. -/
def queueFull (s : State) (k c : Nat) : Bool := decide (queueLimit k c ≤ (classOf (schedOf s k) c).queue.length)

/-- Put a transfer at the end of a class queue. -/
def enqueue (k c : Nat) (i : QItem) (s : State) : State :=
  let w := classOf (schedOf s k) c
  setClass k c { w with queue := w.queue ++ [i], peak := max w.peak (w.queue.length + 1) } s

/-! ### Packets -/

/-- The class of an opcode (R356): 0 request, 1 response, 2 bypass, 3 reserved. -/
def opClass (p : Packet) : Nat := bits p.opcode 6 2

/-- The opcodes of R356. -/
def knownOpcode (o : Nat) : Bool :=
  (decide (1 ≤ o) && decide (o ≤ 0x0B)) || (decide (0x41 ≤ o) && decide (o ≤ 0x43)) ||
  (decide (0x81 ≤ o) && decide (o ≤ 0x8B))

/-- Payload bytes of a MANAGE subcode (R358). -/
def manageLength (p : Packet) : Nat :=
  match bits p.aux 0 8 with
  | 1 => if bitOf (leAt p.payload 9 1) 0 then 40 else 16
  | 3 | 5 | 10 => 16
  | 4 | 6 | 9 => 8
  | 8 => 128
  | _ => 0

/-- Whether a MANAGE packet's AUX, payload length or a reserved field of its payload is not as R358 has it, or a partition is no partition
(R9, R12). -/
def manageBad (p : Packet) : Bool :=
  let b := p.payload
  let zero := fun (off n : Nat) => leAt b off n == 0
  let sub := bits p.aux 0 8
  sub == 0 || decide (10 < sub) || p.aux != packBits (if sub = 8 then [(8, 8), (6, 32), (6, 32)] else [(8, sub)]) ||
  b.length != manageLength p ||
  match sub with
  | 1 => decide (64 ≤ leAt b 8 1) || decide (4 ≤ leAt b 9 1) || !zero 10 6 ||
         (bitOf (leAt b 9 1) 0 && !zero 38 2)
  | 3 => decide (2 ^ 62 ≤ leAt b 0 8)
  | 4 => decide (64 ≤ leAt b 0 1) || !zero 1 7
  | 5 => decide (64 ≤ leAt b 8 1) || !zero 9 7
  | 6 => !zero 4 4
  | 9 => !zero 1 1 || !zero 4 4
  | 10 => !zero 10 6
  | _ => false

/-- Whether a STAMP payload has a reserved field that is not 0, a reserved KIND, or an event beyond COUNT (R9, R406, R407). -/
def stampBad (b : Bytes) : Bool :=
  let n := bits (leAt b 0 8) 40 2 + 1
  b.length != 24 || bits (leAt b 0 8) 58 6 != 0 ||
  (List.range 4).any fun i =>
    let e := leAt b (8 + 4 * i) 4
    if i < n then decide (4 < bits e 28 3) else e != 0

/-- Payload bytes that an opcode may have: at least and at most (R356). -/
def payloadRange (p : Packet) : Nat × Nat :=
  match p.opcode with
  | 0x02 | 0x08 => (64, 64)
  | 0x03 | 0x41 => (0, 1024)
  | 0x05 => (24, 24)
  | 0x06 | 0x83 | 0x85 | 0x8A => (8, 8)
  | 0x07 | 0x84 => (16, 16)
  | 0x0B => (0, 256)
  | 0x42 => (0, 64)
  | 0x43 => (0, 64)
  | 0x82 => (0, 24)
  | _ => (0, 0)

/-- Whether AUX is as the table of R356 has it, with the twin fields of R405 and R413 and the pieces of R361 and log 36, DESIGN CHOICE. A packet index beyond the
packet count is a reserved encoding (log 132, DESIGN CHOICE). -/
def auxFits (p : Packet) : Bool :=
  let a := p.aux
  match p.opcode with
  | 0x01 => decide (bits a 0 3 ≤ 4) && decide (a < 2 ^ 13)
  | 0x03 => decide (bits a 0 6 ≤ bits a 6 6) && decide (a < 2 ^ 12)
  | 0x04 | 0x05 | 0x06 | 0x07 | 0x84 | 0x88 => a == 0
  | 0x09 => decide (a < 1024)
  | 0x0A => decide (bits a 0 2 ≤ 2) && bits a 43 9 == 0 && (p.twin || bits a 52 12 == 0)
  | 0x41 => decide (bits a 0 6 ≤ bits a 6 6) && decide (bits a 12 2 ≤ 2) && decide (a < 2 ^ 44)
  | 0x42 => bits a 0 12 == 0 && decide (bits a 12 2 ≤ 2) && decide (a < 2 ^ 44)
  | 0x43 => decide (a ≤ 2)
  | _ => true

/-- Whether the header fields that an opcode does not use are 0 (R354). -/
def headerFits (p : Packet) : Bool :=
  (p.opcode == 0x08 || (p.seq == 0 && (p.opcode == 0x42 || p.wgen == 0))) &&
  (if opClass p = 1 then decide (p.status < 9) else p.status == 0) &&
  (opClass p != 2 && p.opcode != 0x0B || p.view == 0)

/-- Whether a packet is malformed (R9, R354, R356, R358, R407). -/
def malformedPacket (p : Packet) : Bool :=
  !knownOpcode p.opcode || p.rsvd != 0 || !p.more.isEmpty || decide (2 ^ 62 ≤ p.pga) || decide (9 < p.view) || !headerFits p || !auxFits p ||
  decide (p.payload.length < (payloadRange p).1) || decide ((payloadRange p).2 < p.payload.length) ||
  (p.opcode == 0x43 && !decide (p.payload.length ∈ [0, 64])) || (p.opcode == 0x0B && manageBad p) ||
  (p.opcode == 0x05 && leAt p.payload 2 6 != 0) || (p.opcode == 0x07 && decide (1 < leAt p.payload 8 8)) ||
  (p.opcode == 0x82 && stampBad p.payload) || (p.opcode == 0x84 && leAt p.payload 10 6 != 0)

/-- A packet's traffic class where nothing else fixes it (R431; a response in passing: log 31, DESIGN CHOICE). -/
def packetClass (p : Packet) : Nat :=
  if opClass p = 2 then 0
  else if p.opcode = 0x0A || p.opcode = 0x43 then 1
  else if p.opcode = 0x09 then 3
  else if p.opcode = 0x03 || p.opcode = 0x05 || p.opcode = 0x06 || p.opcode = 0x07 || p.opcode = 0x08 then 4
  else if p.opcode = 0x01 && bits p.aux 0 3 == 4 then 4
  else if p.opcode = 0x0B && bits p.aux 0 8 == 8 then 5
  else 2

def setMarStats (f : MarStats → MarStats) (s : State) : State := { s with mar := { s.mar with stats := f s.mar.stats } }

/-- Discard a malformed packet (R356). -/
def countMalformed (s : State) : State := setMarStats (fun m => { m with malformed := m.malformed + 1 }) s

/-- Count a stray response (R393). -/
def countStray (s : State) : State := setMarStats (fun m => { m with stray := m.stray + 1 }) s

/-- Hand a packet to this node's Porter or homes (R341, eject). -/
def eject (p : Packet) (s : State) : State :=
  emit (.ejected p) (setMarStats (fun m => { m with ejected := m.ejected + 1 }) s)

/-- The bytes a packet takes in an area of DRAM. -/
def packetBytes (p : Packet) : Nat := 40 + p.payload.length

/-- The bytes of the largest packet (R354, R356). -/
def largestPacket : Nat := 1064

/-- Bytes in the transit area, and its size (R348). -/
def transitBytes (s : State) : Nat := s.mar.transit.foldl (fun a t => a + packetBytes t.pkt) 0
def transitSize : Nat := 512 * 2 ^ 20

/-- The transit area is full: it has no room for a packet of the largest size (R348). -/
def transitFull (s : State) : Bool := decide (transitSize < transitBytes s + largestPacket)

/-- A packet enters the transit area (R348). -/
def enterTransit (t : Transit) (s : State) : State :=
  let s := setMarStats (fun m => { m with transit := m.transit + 1, waypoint := m.waypoint + b2n t.atWpt }) s
  let s := { s with mar := { s.mar with transit := s.mar.transit ++ [t] } }
  if transitFull s then raise 0x0403 1 none (packLE [(8, transitBytes s)]) s else s

/-- Place a packet in the transit area; while it is full, or others wait for it, the packet waits outside it (R348). -/
def toTransit (p : Packet) (cls : Nat) (atWpt : Bool) (expires : Option Nat) (s : State) : State :=
  let t : Transit := { pkt := p, cls := cls, expires := expires, atWpt := atWpt }
  if transitFull s || !s.mar.transitWait.isEmpty then { s with mar := { s.mar with transitWait := s.mar.transitWait ++ [t] } }
  else enterTransit t s

/-- Packets that wait for room in the transit area enter it in their order (R348). -/
def refillTransit (s : State) : State :=
  each s.mar.transitWait (fun t s =>
    if transitFull s || s.mar.transitWait.head? != some t then s
    else enterTransit t { s with mar := { s.mar with transitWait := s.mar.transitWait.tail } }) s

/-! ### Directions and virtual channels (R339 to R342) -/

/-- A routing-table entry: what was written since the last MAR_ROUTE_RESET, else dimension order inside the torus that was populated then and
not valid outside it (R350). -/
def routeEntry (s : State) (c : Nat) : Nat :=
  match tfind s.mar.route c with
  | some e => e
  | none => if inSizes s.mar.routeSize c then 1 else 0

/-- Whether a path of `h` hops from this node crosses a failed link (R340). -/
def pathCut (s : State) (d dir h : Nat) : Bool :=
  (decide (0 < h) && !portUp s (d + 3 * dir)) ||
  (List.range h).any fun i =>
    hopFrom s (hereAt s) d dir (if dir = 0 then i else i + 1) + 4096 * d ∈ s.mar.failed

/-- The direction toward a target in a dimension, or none when it is unreachable (R340). -/
def chooseDir (s : State) (t d : Nat) : Option Nat :=
  let n := ringSize s d
  let plus := (coordOf t d + n - coordOf (hereAt s) d) % n
  let minus := (coordOf (hereAt s) d + n - coordOf t d) % n
  let short := if plus ≤ minus then 0 else 1
  let hops := fun (dir : Nat) => if dir = 0 then plus else minus
  if bitOf (routeEntry s t) (3 + d) then some (1 - short)
  else
    let cut := pathCut s d short (hops short)
    let other := pathCut s d (1 - short) (hops (1 - short))
    if cut && !other then some (1 - short) else if cut && other then none else some short

/-- The VC of a packet on a ring link or, with DL clear, the pair port (R342). -/
def vcOf (p : Packet) : Nat := if opClass p = 2 then 4 else 2 * opClass p + b2n p.dl

/-- Whether the link is the date line of its ring (R342). -/
def dateLine (s : State) (d dir : Nat) : Bool :=
  if dir = 0 then coordOf (hereAt s) d == ringSize s d - 1 else coordOf (hereAt s) d == 0

/-- Bytes in the spill queue, and its size (R344). -/
def spillBytes (s : State) : Nat := s.mar.spill.foldl (fun a p => a + packetBytes p.1) 0
def spillSize : Nat := 256 * 2 ^ 20

/-- The spill queue has no room for a packet of the largest size (R344). -/
def spillRoomless (s : State) : Bool := decide (spillSize < spillBytes s + largestPacket)

/-- Put a generated request in the spill queue (R344). -/
def toSpill (p : Packet) (cls : Nat) (s : State) : State :=
  let s := { s with mar := { s.mar with spill := s.mar.spill ++ [(p, cls)] } }
  if spillRoomless s && !s.mar.spillFull then
    raise 0x0401 1 none (packLE [(8, spillBytes s)]) { s with mar := { s.mar with spillFull := true } }
  else s

/-- Send a routed packet on a port: it waits in the port's class queue, for a place there, or, generated while serving
another request and without a credit, in the spill queue while that has room (R344, R432). -/
def sendOn (port : Nat) (p : Packet) (cls : Nat) (enters gen : Bool) (s : State) : State :=
  let p := { p with hops := p.hops + 1 }
  let need := if opClass p = 2 && enters && port != 6 then 2 else 1
  let item : QItem := { len := p.payload.length, vc := vcOf p, need := need, pkt := some p }
  if gen && !spillRoomless s && (creditsOf (linkOf s port) (vcOf p) == 0 || queueFull s (16 + port) cls) then toSpill { p with hops := p.hops - 1 } cls s
  else if queueFull s (16 + port) cls then
    { s with mar := { s.mar with portWait := s.mar.portWait ++ [(port, item, cls)] } }
  else enqueue (16 + port) cls item s

/-- The response that answers an unreachable request (R353). -/
def unreachableRsp (s : State) (p : Packet) : Packet :=
  { opcode := if p.opcode = 0x0A then 0x43 else 0x42, dest := p.src, src := hereAt s, tag := p.tag, twin := p.twin,
    pga := p.pga, partition := p.partition, status := 6 }

/-- Where a packet goes from this node (R341, R351): the answer of one routing decision. -/
inductive Hop where
  | hopLimit
  | waypoint
  | eject
  | unreachable
  | legFull (w : Nat)
  | down (p : Packet)
  | send (port : Nat) (p : Packet) (enters : Bool)
  deriving DecidableEq, Repr

/-- Dimension-order routing of R341 for a packet that is to leave this node; `arr` is the dimension it arrived in, or
none when it starts here. -/
def routeRing (s : State) (p : Packet) (arr : Option Nat) : Hop :=
  let t := if p.wpt then p.waypoint else p.dest
  match [0, 1, 2].find? fun d => coordOf t d != coordOf (hereAt s) d with
  | none => .eject
  | some d =>
    let enters := arr != some d
    match if enters then chooseDir s t d else some p.dir with
    | none => .unreachable
    | some dir =>
      let p := if enters then { p with dir := dir, dl := false } else p
      if !portUp s (d + 3 * dir) then .down p
      else .send (d + 3 * dir) { p with dl := p.dl || dateLine s d dir } enters

/-- How many packets of this node are on their first leg to a waypoint (R352). -/
def firstLegs (s : State) (w : Nat) : Nat := (s.mar.firstLeg.filter fun l => l.1 == w).length

/-- A packet of this node takes a place of its waypoint when it is set on its way there (R352); forwards, whose source is another node,
take none (log 132, DESIGN CHOICE). -/
def takeLeg (old p : Packet) (s : State) : State :=
  if p.wpt && !old.wpt && p.src == hereAt s then { s with mar := { s.mar with firstLeg := s.mar.firstLeg ++ [(p.waypoint, p.tag)] } } else s

/-- A packet that is lost at its source on its first leg holds its place no longer (R352). -/
def freeLeg (p : Packet) (s : State) : State :=
  if p.wpt && p.src == hereAt s then { s with mar := { s.mar with firstLeg := s.mar.firstLeg.erase (p.waypoint, p.tag) } } else s

/-- One routing decision (R341) with the routing table's KIND at injection and re-injection (R351). `arr` is the
dimension of the link the packet arrived on; `here` says it is injected or re-injected here, `atWpt` that this is its
waypoint. -/
def routeHop (s : State) (p : Packet) (arr : Option Nat) (here atWpt : Bool) : Hop :=
  if p.hops = 127 then .hopLimit
  else if p.wpt && p.waypoint == hereAt s then .waypoint
  else if !p.wpt && p.dest == hereAt s then .eject
  else if !here || p.wpt then routeRing s p arr
  else
    let e := routeEntry s p.dest
    let kind := bits e 1 2
    if bits e 0 1 = 0 || kind = 3 then .unreachable
    else if kind = 2 && portUp s 6 then .send 6 { p with dir := 0, dl := false } false
    else if kind = 1 && !atWpt then
      if p.src = hereAt s && 32 ≤ firstLegs s (bits e 6 12) then .legFull (bits e 6 12)
      else
        let p := { p with wpt := true, waypoint := bits e 6 12 }
        if p.waypoint = hereAt s then .waypoint else routeRing s p none
    else routeRing s p none

/-- What happens to a packet whose answer by R353 has no further packet to answer: a response or bypass message is
discarded and counted. -/
def dropUnreachable (p : Packet) (s : State) : State :=
  setMarStats (fun m => if opClass p = 2 then { m with bypassDiscards := m.bypassDiscards + 1 }
    else { m with unreachable := m.unreachable + 1 }) s

/-- Carry out a routing decision that needs no answer packet. -/
def doHop (h : Hop) (p : Packet) (cls : Nat) (gen : Bool) (s : State) : State :=
  match h with
  | .hopLimit => freeLeg p (setMarStats (fun m => { m with hopLimit := m.hopLimit + 1 }) s)
  | .waypoint => toTransit { p with wpt := false, waypoint := hereAt s } cls true none s
  | .eject => eject p s
  | .unreachable => freeLeg p (dropUnreachable p s)
  | .legFull _ => { s with mar := { s.mar with legWait := s.mar.legWait ++ [(p, cls)] } }
  | .down q =>
    if opClass q = 2 then freeLeg p (setMarStats (fun m => { m with bypassDiscards := m.bypassDiscards + 1 }) s)
    else toTransit q cls false none (takeLeg p q s)
  | .send port q enters => sendOn port q cls enters gen (takeLeg p q s)

/-- A packet in transit as it starts its new route (R348). -/
def Transit.again (t : Transit) : Packet := { t.pkt with dir := 0, dl := false }

/-- Whether a packet in transit has outlived its re-injection (R390). -/
def transitLive (s : State) (t : Transit) : Bool := match t.expires with | some e => decide (s.now < e) | none => true

/-- The port that a packet would leave on. -/
def leavesOn (s : State) (p : Packet) (atWpt : Bool) : Option Nat :=
  match routeHop s p none true atWpt with
  | .send k _ _ => some k
  | _ => none

/-- The packets in transit of a packet class (R343) that would leave on a port, in arrival order (R348). -/
def aheadOn (s : State) (port : Option Nat) (c : Nat) : List Transit :=
  if port.isNone then []
  else s.mar.transit.filter fun t => opClass t.pkt == c && transitLive s t && leavesOn s t.again t.atWpt == port

/-- Count a packet that this node injects (R368). -/
def countInjected (s : State) : State := setMarStats (fun m => { m with injected := m.injected + 1 }) s

/-- Route a packet from this node (R341, R351); an unreachable request is answered (R353), with `send`. -/
def routeWith (send : Packet → Nat → State → State) (p : Packet) (cls : Nat) (arr : Option Nat) (here atWpt gen : Bool) (s : State) :
    State :=
  let h := routeHop s p arr here atWpt
  if h = .unreachable && opClass p = 0 then
    send (unreachableRsp s p) 2 (freeLeg p (setMarStats (fun m => { m with unreachable := m.unreachable + 1 }) s))
  else doHop h p cls gen s

/-- A packet leaves the transit area on a new route (R348); at its waypoint its source is told (R352), with `send`. -/
def leaveWith (send : Packet → Nat → State → State) (t : Transit) (s : State) : State :=
  if !(s.mar.transit.contains t) then s
  else
    let s := refillTransit { s with mar := { s.mar with transit := s.mar.transit.erase t } }
    let s := routeWith send t.again t.cls none true t.atWpt false s
    if t.atWpt && t.pkt.src != hereAt s then send { opcode := 0x8B, dest := t.pkt.src, src := hereAt s, tag := t.pkt.tag } 0 s else s

/-- Inject a response or a bypass message that a routing decision gives rise to, behind the packets in transit on its port and class (R348);
`fuel` bounds the packets that leave for it. -/
def injectBehind : Nat → Packet → Nat → State → State
  | 0, p, cls, s => doHop (routeHop s p none true false) p cls false (countInjected s)
  | fuel + 1, p, cls, s =>
    let s := countInjected s
    let s := each (aheadOn s (leavesOn s p false) (opClass p)) (leaveWith (injectBehind fuel)) s
    doHop (routeHop s p none true false) p cls false s

/-- Route a packet from this node (R341, R351, R353). -/
def routeFrom (p : Packet) (cls : Nat) (arr : Option Nat) (here atWpt gen : Bool) (s : State) : State :=
  routeWith (injectBehind s.mar.transit.length) p cls arr here atWpt gen s

/-- A packet leaves the transit area (R348, R352). -/
def leaveTransit (t : Transit) (s : State) : State := leaveWith (injectBehind s.mar.transit.length) t s

/-- Packets in transit leave in arrival order, ahead of a new packet on the same port and packet class (R348). -/
def transitFirst (port : Option Nat) (c : Nat) (s : State) : State := each (aheadOn s port c) leaveTransit s

/-- Inject a packet on a traffic class (R341); SRC stands in the packet, since a forward keeps its ingress node's (R355). -/
def inject (p : Packet) (cls : Nat) (s : State) : State :=
  routeFrom p cls none true false false (transitFirst (leavesOn s p false) (opClass p) (countInjected s))

/-- Inject a request generated while another is served (R344). -/
def injectGen (p : Packet) (cls : Nat) (s : State) : State :=
  routeFrom p cls none true false true (transitFirst (leavesOn s p false) (opClass p) (countInjected s))

/-- Inject a packet of this node on a port that its route fixes, without the routing table (R398, R399). -/
def injectOn (port : Nat) (p : Packet) (cls : Nat) (enters : Bool) (s : State) : State :=
  sendOn port p cls enters false (transitFirst (some port) (opClass p) (countInjected s))

/-- Inject a bypass message to a node (R345). -/
def sendBypass (opcode dest tag pga aux : Nat) (payload : Bytes) (s : State) : State :=
  inject { opcode := opcode, dest := dest, src := hereAt s, tag := tag, pga := pga, aux := aux, payload := payload } 0 s

/-- Answer a request packet. -/
def respondTo (p : Packet) (status : Nat) (payload : Bytes) (aux : Nat) (s : State) : State :=
  inject { opcode := 0x42, dest := p.src, src := hereAt s, tag := p.tag, twin := p.twin, pga := p.pga,
           partition := p.partition, status := status, payload := payload, aux := aux } (packetClass p) s

/-! ### Transaction tags (R360) -/

/-- The first unreserved or reserved tag that is free (R360; which tags are reserved: log 32, DESIGN CHOICE). -/
def freeTag (s : State) (reserved : Bool) : Option Nat :=
  let lo := if reserved then 61440 else 0
  let used := s.mar.tags.filter fun p => decide (lo ≤ p.1)
  match tfresh used (used.length + 1) lo with
  | some t => if t < (if reserved then 65536 else 61440) then some t else none
  | none => none

/-- How long a request's answer may take before its path times out (R588; the bound of each path: log 33, DEDUCED). -/
def pathTimeout (s : State) : Nat := msec (8 * rLdgTimeout s)

/-- The packets of a request: a CHUNK_WRITE of more than 1,024 B, or of several stretches, leaves in pieces under one tag (R297, R361), each with its poison map
of a copied block (log 59, DESIGN CHOICE). -/
def partsOf (p : Packet) : List Packet :=
  if p.opcode = 0x03 && (decide (1024 < p.payload.length) || !p.more.isEmpty) then
    let l := ((p.pga, p.mval, p.payload) :: p.more).flatMap fun x =>
      (List.range ((x.2.2.length + 1023) / 1024)).map fun i => (x.1, x.2.1, (x.2.2.drop (1024 * i)).take 1024)
    l.zipIdx.map fun x => { p with
      pga := x.1.1
      mval := x.1.2.1
      payload := x.1.2.2
      aux := packBits [(6, x.2), (6, l.length - 1)]
      host := bits p.host (16 * x.2) 16
      more := [] }
  else [p]

/-- Open a tag for a request and send it. -/
def openTag (t : Nat) (p : Packet) (use : TagUse) (npk cls : Nat) (gen : Bool) (s : State) : State :=
  let r : TagRec := { use := use, dest := p.dest, npk := npk, due := s.now + pathTimeout s, twinned := p.twin, pga := p.pga }
  let s := { s with mar := { s.mar with tags := tput s.mar.tags t r } }
  each (partsOf { p with tag := t, src := hereAt s }) (fun p s => if gen then injectGen p cls s else inject p cls s) s

/-- A request finds no free tag: it waits and is counted (R360). -/
def tagStall (w : Waiting) (s : State) : State :=
  { s with mar := { s.mar with waiting := s.mar.waiting ++ [w], stalls := s.mar.stalls + 1 } }

/-- Originate a request (R360): with no free tag it waits at its source. `gen` marks one generated while another request
is served, which takes a reserved tag (R344). -/
def request (p : Packet) (use : TagUse) (npk cls : Nat) (gen : Bool) (s : State) : State :=
  match freeTag s gen with
  | some t => openTag t p use npk cls gen s
  | none => tagStall { pkt := p, use := use, npk := npk, cls := cls, gen := gen } s

/-- Free a tag: it is quarantined (R360). -/
def freeTagNow (t : Nat) (s : State) : State :=
  { s with mar := { s.mar with tags := tmod s.mar.tags t fun r =>
      { r with isOpen := false, held := false, data := [], got := [], due := s.now + msec (rMarTagQuarantine s) } } }

/-- The open record of a tag. -/
def openTagOf (s : State) (t : Nat) : Option TagRec :=
  match tfind s.mar.tags t with
  | some r => if r.isOpen then some r else none
  | none => none

end Sys2Proof.Machine
end

