-- ==== Sys2Proof/Machine/Answer.lean ====
section
/-! DEFINITION. How a home's answer leaves: to a host of this node, to an engine, or as a packet (R40, R44, R62, R86, R91,
R101, R102, R124, R357, R413). -/
namespace Sys2Proof.Machine

/-! ### Event logs of a logical device (R101, R102) -/

def ldOf (s : State) (k : Nat) : Ld := (tfind s.cxl.lds k).getD {}
def setLd (k : Nat) (x : Ld) (s : State) : State := { s with cxl := { s.cxl with lds := tput s.cxl.lds k x } }

/-- The time an event record carries: the timestamp the host set, or 0 (R99). -/
def ldTime (s : State) (x : Ld) : Nat := if x.stampBase = 0 then 0 else x.stampBase + (s.now - x.stampAt)

/-- Add a record to a log (R101): at 256 records it is dropped and the overflow counted with its times. The log's interrupt, where
the host enabled it, fires vector 0 (R482, R484). -/
def logAdd (k log : Nat) (body : Bytes) (s : State) : State :=
  let x := ldOf s k
  let l := (tfind x.logs log).getD {}
  let t := ldTime s x
  let l := if 256 ≤ l.records.length then
      { l with overflow := l.overflow + 1, first := if l.overflow = 0 then t else l.first, last := t }
    else { l with records := l.records ++ [(l.next, toLE 8 t ++ body)], next := if l.next = 65535 then 1 else l.next + 1 }
  let s := setLd k { x with logs := tput x.logs log l } s
  if bits x.policy (8 * log) 2 = 1 then fireVector k 0 s else s

/-- The Tarnason vendor record of an access error (R102): LDA, binding, operation (0 a read or a request for a line, 1 a write, 2 an
invalidation, 3 a clean eviction, 4 ATOMIC or APPEND, 5 COMMIT, 6 an unsupported opcode) and cause: the STATUS of the answer, or 9
for UNAVAILABLE (R466; the codes: log 110, DESIGN CHOICE). -/
def vendorRecord (lda entry op cause : Nat) : Bytes :=
  (List.range 16).map (fun i => BitVec.ofNat 8 (Config.vendorUuid i)) ++
    packLE [(8, lda), (4, entry), (1, op), (1, cause), (2, 0)]

/-- Record an access error in a logical device's Warning log (R62, R102). -/
def accessRecord (k lda entry op cause : Nat) (s : State) : State := logAdd k 1 (vendorRecord lda entry op cause) s

/-- The General Media Event record of a poisoned read (R600, path 1). -/
def mediaRecord (lda : Nat) : Bytes := packLE [(8, 1), (8, lda)]

/-! ### Hosts of this node -/

/-- The half that a logical device of a port belongs to (R85); 0 on an x16 port. -/
def halfOf (s : State) (port ld : Nat) : Nat := b2n (((tfind s.cxl.ports port).getD {}).bifurcated && decide (8 ≤ ld))

/-- The transfers in the interactive queue of a port, or of a half (R429, R432). -/
def portQueue (s : State) (port half : Nat) : List QItem := (classOf (schedOf s (23 + port)) 2).queue.filter fun i => i.half == half

/-- DevLoad of a port, or of the half of a logical device (R91, R432): 0 light, 1 optimal, 2 moderate, 3 severe. -/
def devLoad (s : State) (port ld : Nat) : Nat :=
  let n := (portQueue s port (halfOf s port ld)).length
  let q := if ((tfind s.cxl.ports port).getD {}).bifurcated then 1024 else 2048
  if n * 4 < q then 0 else if n * 2 < q then 1 else if n * 100 < q * 85 then 2 else 3

def bookOf (s : State) (n : Nat) : BookEntry := (tfind s.pga.book n).getD {}
def setBook (n : Nat) (e : BookEntry) (s : State) : State := { s with pga := { s.pga with book := tput s.pga.book n e } }

/-- A request of a binding has completed: its in-flight count falls (R65). -/
def countDown (bind : Option Nat) (s : State) : State :=
  match bind with
  | some n =>
    match tfind s.pga.book n with
    | some e => setBook n { e with count := e.count - 1 } s
    | none => s
  | none => s

/-- Whether an answer's status makes it an access error at its requester (R44, R353, R588). -/
def isAccess (status : Nat) : Bool := status == 1 || status == 3 || status == 6 || status == 7 || status == 8

/-- The answer a host of this node receives (R86, R119): data, completion, or both; poison for a read that failed, a normal
completion and an error record for a write that was dropped (R44, R62). -/
def sendHost (h : HostReq) (r : MRsp) (s : State) : State :=
  let d := devLoad s h.port h.ld
  let bad := isAccess r.status
  let poison := bad || r.status == 2
  let ndr := fun kind s => emit (.ndr h.port h.ld h.tag kind d) s
  let drs := fun s => emit (.drs h.port h.ld h.tag (if bad then [] else r.data) poison d) s
  let s := match h.opcode with
    | 0 => ndr 0 s
    | 1 => ndr (if bad then 0 else r.granted) s
    | 2 => drs s
    | _ => drs (ndr (if bad then 0 else r.granted) s)
  let k := ldKey h.port h.ld
  let s := if bad || (r.status == 2 && h.opcode == 0) then
      accessRecord k h.lda (h.bind.getD 0) h.op (if r.cause = 0 then r.status else r.cause)
        { s with pga := { s.pga with accessErrors := if r.status = 1 then tbump s.pga.accessErrors h.part 1 else s.pga.accessErrors } }
    else s
  if r.status = 2 && 2 ≤ h.opcode then
    logAdd k 2 (mediaRecord h.lda) { s with ras := { s.ras with poisonReads := tbump s.ras.poisonReads h.part 1 } }
  else s

/-- Complete a host's outstanding request (R40, R64). -/
def hostAnswer (id : Nat) (r : MRsp) (s : State) : State :=
  match tfind s.cxl.reqs id with
  | none => s
  | some h =>
    countDown h.bind (sendHost h r { s with cxl := { s.cxl with reqs := tdel s.cxl.reqs id } })

/-! ### Engines -/

/-- The accesses of the Clerks and their queues; `a` of each names its record in `cle.access`. -/
def clerkKind (k : EngKind) : Bool :=
  match k with
  | .chunkRead | .chunkWrite | .descriptor | .record | .counter | .rankList | .atomic | .append | .commit => true
  | _ => false

/-- The flash pass's commit of a rewritten block has completed (R460, R462): REKEY_UNITS and the count of units rewritten advance. -/
def rekeyUnitDone (p : Nat) (r : MRsp) (s : State) : State :=
  if leAt r.data 0 2 != 0 || (partOf s p).state != 2 then s
  else { s with lck := { s.lck with
    parts := tput s.lck.parts p { partOf s p with rekeyUnits := (partOf s p).rekeyUnits + 1 }
    stats := bump s.lck.stats 4 1 } }

/-- An engine of this node takes a response (R124): an access of a Clerk is no longer in flight at its binding (R65), and
the response waits until the engine's own step uses it. -/
def deliver (ref : EngRef) (r : MRsp) (s : State) : State :=
  if ref.kind == .sweep then rekeyUnitDone ref.a r s else
  let s := if clerkKind ref.kind then
      match tfind s.cle.access ref.a with
      | some x => each (x.bind :: x.also.filterMap fun n => (tfind s.cle.access n).map (·.bind)) (fun b s => countDown (some b) s) s
      | none => s
    else s
  { s with taken := s.taken ++ [(ref, r)] }

/-- The first response an engine has taken for a purpose. -/
def takenFor (s : State) (ref : EngRef) : Option MRsp := (s.taken.find? fun p => p.1 == ref).map (·.2)

/-- The responses taken for a purpose are used. -/
def useTaken (p : EngRef → Bool) (s : State) : State := { s with taken := s.taken.filter fun t => !p t.1 }

/-! ### Packets (R356, R361, R413) -/

/-- AUX of a response: packet index, packet count less 1, state granted, and for a twinned request ROLE, PARTNER, TERM. -/
def rspAux (s : State) (idx count granted role : Nat) : Nat :=
  packBits [(6, idx), (6, count - 1), (2, granted), (2, role), (12, if role = 0 then 0 else rMarPairPartner s),
    (16, if role = 0 then 0 else s.twn.term)]

/-- The pieces of at most 1,024 B. -/
def chunksOf : Nat → Bytes → List Bytes
  | 0, _ => []
  | fuel + 1, b => if b.length ≤ 1024 then [b] else b.take 1024 :: chunksOf fuel (b.drop 1024)

/-- A DATA or DONE response (R356); DATA in as many packets as it needs (R361). `isData` marks an answer that carries a
read's data. -/
def sendRsp (dest tag pga part wgen : Nat) (twin isData : Bool) (cls : Nat) (r : MRsp) (s : State) : State :=
  let base : Packet := { dest := dest, src := hereAt s, tag := tag, pga := pga, partition := part, wgen := wgen,
                         twin := twin, status := r.status }
  if isData && r.status != 1 then
    let ps := chunksOf 64 r.data
    each ps.zipIdx (fun p s => inject { base with
      opcode := 0x41, payload := p.1, aux := rspAux s p.2 ps.length r.granted r.role } cls s) s
  else inject { base with opcode := 0x42, payload := r.data, aux := rspAux s 0 1 r.granted r.role } cls s

/-! ### The acceptance record (R391, R392) -/

/-- Time of the acceptance record (R391). -/
def acceptTime (s : State) : Nat := s.now / 64000 % 16384

/-- The entry of a source and tag. -/
def acceptEntry (s : State) (src tag : Nat) : Nat := tget 0 s.lnk.accept (src * 65536 + tag)

def setAccept (src tag v : Nat) (s : State) : State :=
  { s with lnk := { s.lnk with accept := tset 0 s.lnk.accept (src * 65536 + tag) v } }

/-- A multi-packet operation has been applied and answered, or is discarded (R392). -/
def acceptClosed (src tag : Nat) (s : State) : State := setAccept src tag (acceptTime s + 2 ^ 14) s

/-- Answer a memory request (R119): the response goes where its requester is. -/
def answer (r : MReq) (rsp : MRsp) (s : State) : State :=
  let isData := r.kind == .readShared || r.kind == .readOwn || r.kind == .readCurrent || r.kind == .engineRead
  let cls := if r.kind == .engineRead || r.kind == .engineWrite || r.contrib then 4 else 2
  let s := match r.who with
    | .nodeEngine c t => if r.op != 1 && r.op != 2 && bitOf (acceptEntry s c t) 15 then acceptClosed c t s else s
    | _ => s
  if r.noRsp then s
  else match r.who with
  | .host id => hostAnswer id rsp s
  | .engine ref => deliver ref rsp s
  | .node c t => sendRsp c t (hereAt s * 2 ^ 50 + r.dpa) r.part rsp.wgen r.twin isData cls rsp s
  | .nodeEngine c t => sendRsp c t (hereAt s * 2 ^ 50 + r.dpa) r.part rsp.wgen r.twin isData cls rsp s

end Sys2Proof.Machine
end

