-- ==== Sys2Proof/Machine/Stamp.lean ====
section
/-! DEFINITION. What a home does for a twinned range whenever it applies an event (13): order stamps and the change map. -/
namespace Sys2Proof.Machine

def twinOf (s : State) (entry : Nat) : Option Twin := tfind s.twn.recs entry
def setTwin (entry : Nat) (t : Twin) (s : State) : State := { s with twn := { s.twn with recs := tput s.twn.recs entry t } }

/-- A twin record takes a state; STATE_TIME is when it last changed (R401). -/
def twinState (entry : Nat) (t : Twin) (st : Nat) (s : State) : State :=
  setTwin entry { t with state := st, stateTime := if t.state = st then t.stateTime else s.now } s

/-- Add to one of TWN_STATS: 0 messages, 1 stamped, 2 applied, 3 patches, 4 units, 5 divergences, 6 second missing,
7 takeovers, 8 swaps, 9 splits (R428). -/
def twnCount (i n : Nat) (s : State) : State := { s with twn := { s.twn with stats := bump s.twn.stats i n } }

/-- Whether the node has a partner (R397). -/
def hasPartner (s : State) : Bool := rMarPairPartner s != 0xFFFF && s.twn.named

/-- The port that joins this node directly to the node it names as its partner (R398). -/
def pairLink (s : State) : Option Nat :=
  if rMarPairPartner s = 0xFFFF then none
  else if bitOf (rMarPortEnable s) 6 then some 6
  else (List.range 6).find? fun p => ringSize s (p % 3) != 1 && neighbour s p == rMarPairPartner s

/-- The port of the stamp link (R398). -/
def stampLink (s : State) : Option Nat := if hasPartner s then pairLink s else none

/-- Whether the partner is reachable (R399). -/
def partnerReachable (s : State) : Bool :=
  hasPartner s && s.twn.seen && decide (s.now < s.twn.seenPair + usec (rTwnPartnerTimeout s))

/-- Send a packet to the named partner on the port that joins them, one hop. -/
def pairSend (p : Packet) (cls : Nat) (s : State) : State :=
  match pairLink s with
  | some port => if portUp s port then injectOn port { p with dest := rMarPairPartner s } cls (port != 6) s else s
  | none => s

/-- Send a packet to the partner on the stamp link, one hop (R398, R404). -/
def stampSend (p : Packet) (cls : Nat) (s : State) : State := if (stampLink s).isSome then pairSend p cls s else s

/-- The payload of a STAMP message with one event (R407). -/
def stampPayload (s : State) (order src tag kind : Nat) (respond : Bool) : Bytes :=
  toLE 8 (packBits [(40, order), (2, 0), (16, s.twn.term), (6, 0)]) ++
  toLE 4 (packBits [(12, src), (16, tag), (3, kind), (1, b2n respond)]) ++ zeros 12

/-- Mark the 32 KiB units that lines of a range lie in (R419). -/
def markUnits (entry : Nat) (lines : List Nat) (s : State) : State :=
  match twinOf s entry with
  | none => s
  | some t =>
    let base := (bookOf s entry).base
    setTwin entry { t with changed := ascending (t.changed ++ lines.map fun l => (l * 64 - base) / 32768) } s

/-- Remember the lines that a lead has written since it took over (R417). -/
def noteSince (entry : Nat) (lines : List Nat) (s : State) : State :=
  match twinOf s entry with
  | none => s
  | some t => match t.since with
    | none => s
    | some l => setTwin entry { t with since := some (ascending (l ++ lines)) } s

/-- The lead applies an event on a twinned range (R406, R407): while the range is syncing or in sync it is stamped, with RESPOND
exactly while in sync (R413; a range that is being swapped is in sync: log 112, DEDUCED), but clear for a request that came with TWIN
clear (`both` false, R404); a solo or syncing range marks the units a change touches (R419, R426). `lines` are the DPA
lines touched, `writes` whether they changed. -/
def stampEvent (entry kind src tag : Nat) (both : Bool) (lines : List Nat) (writes : Bool) (s : State) : State :=
  match twinOf s entry with
  | none => s
  | some t =>
    if t.role != 1 then s
    else
      let s := if writes && (t.state == 1 || t.state == 3) then markUnits entry lines s else s
      let s := if writes then noteSince entry lines s else s
      if t.state = 1 || t.state = 2 || t.state = 5 then
        let order := s.twn.order
        let s := stampSend { opcode := 0x82, src := hereAt s,
                             payload := stampPayload s order src tag kind (both && t.state != 1) } 0 s
        let s := twnCount 0 1 (twnCount 1 1 s)
        let s := { s with twn := { s.twn with
          order := (order + 1) % 2 ^ 40,
          history := (s.twn.history ++ [(order, lines.headD 0 * 64, lines.length)]).drop
            (if 65536 ≤ s.twn.history.length then 1 else 0) } }
        match twinOf s entry with
        | some t => setTwin entry { t with lastOrder := order } s
        | none => s
      else s

/-- ROLE of a twin's responses (R413): 1 lead in sync, 2 follower in sync, 3 while syncing, solo or stale; 0 for a range that is not
twinned or is unusable (log 112, DEDUCED). -/
def twinRole (s : State) (entry : Nat) : Nat :=
  match twinOf s entry with
  | none => 0
  | some t => if t.state = 2 || t.state = 5 then t.role else if t.state = 6 then 0 else 3

end Sys2Proof.Machine
end

