-- ==== Sys2Proof/Machine/Mem.lean ====
section
/-! DEFINITION. DRAM lines (06): where an address lies (R51, R185), when its stack serves (R192, R196, R198), the codewords of a line
(R200, R201), the symbol decoder and device marks (R202), how a line is read, written, cleared and re-keyed (R203 to R205, R462), and
critical words (R208, R209). A line is named by its DRAM address div 64. -/
namespace Sys2Proof.Machine

/-! ### Places -/

def nStacks (s : State) : Nat := s.asm.hbmStacks

/-- The stack of a DRAM line (R51). -/
def lineStack (s : State) (l : Nat) : Nat := l / 1024 % nStacks s

/-- The pseudo-channel of a DRAM line (R51). -/
def linePc (s : State) (l : Nat) : Nat := (l / 16 % 64 + l / 1024 / nStacks s) % 64

/-- The pseudo-channel address of a DRAM line's first byte (R51). -/
def lineOffset (s : State) (l : Nat) : Nat := l / 1024 / nStacks s * 1024 + l % 16 * 64

/-- Where the byte at a pseudo-channel address lies (R185): piece, bank, bank group, row and column line. -/
def addrPiece (c : Nat) : Nat := c / 1024
def addrBank (c : Nat) : Nat := addrPiece c % 32
def addrGroup (c : Nat) : Nat := addrBank c % 8
def addrRow (c : Nat) : Nat := addrPiece c / 32
def addrColumn (c : Nat) : Nat := c % 1024 / 64

/-- Bytes that a pseudo-channel addresses: rows 0 to 61,035 (R186). -/
def pcBytes : Nat := 2000000000

/-- Bank and row of a DRAM line within its pseudo-channel (R185), and whether requests reach that row (R186). -/
def lineBank (s : State) (l : Nat) : Nat := addrBank (lineOffset s l)
def lineRow (s : State) (l : Nat) : Nat := addrRow (lineOffset s l)
def lineInside (s : State) (l : Nat) : Bool := decide (lineOffset s l < pcBytes)

/-- The sliver of a DRAM line: stack × 64 + pseudo-channel (R52). -/
def lineSliver (s : State) (l : Nat) : Nat := lineStack s l * 64 + linePc s l

/-- Whether the clerk slice of a quad is in reset (R307, R572). -/
def sliceDown (s : State) (q : Nat) : Bool := decide (s.now < tget 0 s.cle.inReset q)

def stackOf (s : State) (k : Nat) : Stack := (tfind s.mem.hbmStacks k).getD {}

def setStack (k : Nat) (x : Stack) (s : State) : State := { s with mem := { s.mem with hbmStacks := tput s.mem.hbmStacks k x } }

/-! ### When a stack serves -/

/-- How long a pause lasts (R195), how long a change of level (R192), and how long before its end the new set becomes active (t3). -/
def pauseTime : Nat := 1200
def changeTime : Nat := 4600
def changeTail : Nat := 1100

/-- Whether a change of level has begun (R192, R193). -/
def changingNow (s : State) (x : Stack) : Bool := x.changing.isSome && decide (x.changeFrom ≤ s.now)

/-- The active level (R191): that of a change from its step t3 on. -/
def levelNow (s : State) (x : Stack) : Nat :=
  match x.changing with
  | some k => if x.changeDue ≤ s.now + changeTail then k else x.level
  | none => x.level

/-- Pseudo-channels of a stack that are paused now (R195). -/
def pausedNow (s : State) (x : Stack) : List Nat := (x.pauseAt.filter fun p => decide (s.now < p.2 + pauseTime)).map (·.1)

/-- Whether a stack is drained (R198): HBM_STACK_DRAIN has completed for it, and no lending-book entry is other than free. -/
def isDrained (s : State) (x : Stack) : Bool := x.drained && s.pga.book.isEmpty

/-- Whether the Storekeeper's background work pauses (R38, R198, R241): a stack is drained, or Sahtin restarts. -/
def bgPaused (s : State) : Bool := firmwareHeld s || s.mem.hbmStacks.any fun p => isDrained s p.2

/-- Whether a stack is in self-refresh: from t2 to t4 of a change of level (R192), and while it is retrained (R199). -/
def inSelfRefresh (s : State) (x : Stack) : Bool :=
  x.retraining || (x.changing.isSome && decide (x.changeFrom + 1000 ≤ s.now) && decide (s.now + 600 < x.changeDue))

/-- Whether a stack serves requests: not while it is drained or retrained (R198, R199) or its level changes (R192). -/
def stackServes (s : State) (k : Nat) : Bool :=
  let x := stackOf s k
  !isDrained s x && !x.retraining && !changingNow s x

/-- Whether a DRAM line may be accessed now: its stack serves and its pseudo-channel is not paused (R196). -/
def lineServes (s : State) (l : Nat) : Bool :=
  stackServes s (lineStack s l) && !decide (linePc s l ∈ pausedNow s (stackOf s (lineStack s l)))

/-- The timing set of a level (R191). -/
def timingSet (x : Stack) (k : Nat) : TimingSet := (tfind x.sets k).getD {}

/-- Add to one of HBM_STATS: 0 reads, 1 writes, 2 row hits, 3 misses, 4 conflicts, 5 refreshes, 6 pauses, 7 corrected
symbols, 8 uncorrectable, 9 integrity failures, 10 level changes, 11 device marks (R211). -/
def hbmCount (k i n : Nat) (s : State) : State :=
  setStack k { stackOf s k with stats := bump (stackOf s k).stats i n } s

/-- Open the row of a line, counted as a hit, a miss or a conflict (R187). -/
def openLine (l : Nat) (s : State) : State :=
  let k := lineStack s l
  let x := stackOf s k
  let bank := linePc s l * 32 + lineBank s l
  let row := lineRow s l + 1
  let was := tget 0 x.openRow bank
  setStack k { x with openRow := tset 0 x.openRow bank row,
                      stats := bump x.stats (if was = row then 2 else if was = 0 then 3 else 4) 1 } s

/-- Those of 1,024 lines from a frame's first that `want` names are read (`stat` 0) or written (1): the sixteen of a pseudo-channel lie in one
row (R185, R187, R211). -/
def openLines (k lo stat : Nat) (want : Nat → Bool) (s : State) : State :=
  each (List.range 64) (fun g s =>
    let n := ((List.range 16).filter fun i => want (16 * g + i)).length
    if n = 0 then s else hbmCount k stat n (hbmCount k 2 (n - 1) (openLine (lo + 16 * g) s))) s

/-- A level of a stack is trained, its training rows written (R199): the set's values are free (log 115, DESIGN CHOICE). -/
def trainLevel (stack k : Nat) (s : State) : State :=
  let x := stackOf s stack
  let pcs := List.range 64
  let t : TimingSet :=
    { timings := Config.trained stack k 0
      equalisation := Config.fresh s.fresh
      readDelay := pcs.map fun pc => (pc, Config.fresh (s.fresh + 1 + 2 * pc))
      writeDelay := pcs.map fun pc => (pc, Config.fresh (s.fresh + 2 + 2 * pc)) }
  setStack stack { x with sets := tput x.sets k t, trainRows := pcs.map fun pc => (pc, Config.fresh (s.fresh + 129 + pc)) }
    { s with fresh := s.fresh + 193 }

/-! ### Codewords (R200, R201) -/

/-- The 64 metadata bits of a line whose TAG is `tag` (R201). -/
def metaWord (m : LineMeta) (tag : Nat) : Nat := packBits [(1, b2n m.valid), (1, b2n m.poison), (16, m.epoch), (44, tag), (2, 0)]

/-- Symbols 0 to 8 of codeword k of a burst, of a line's stored 64 B and its metadata bits (R200). -/
def dataSymbols (stored : Bytes) (word k : Nat) : List Nat :=
  ((List.range 8).map fun d => leAt stored (16 * k + 2 * d) 2) ++ [bits word (16 * k) 16]

/-- The check symbols of a codeword (log 116, DESIGN CHOICE); the all-zero codeword's are zero (R205). -/
def checkSymbols (d : List Nat) : List Nat :=
  if d.all (· == 0) then [0, 0] else [Config.checkSymbol d 0 % 65536, Config.checkSymbol d 1 % 65536]

/-- The four codewords of eleven symbols that a line travels as (R200). -/
def burstOf (stored : Bytes) (word : Nat) : List (List Nat) :=
  (List.range 4).map fun k => dataSymbols stored word k ++ checkSymbols (dataSymbols stored word k)

/-! ### The symbol decoder -/

/-- The error symbols of one codeword. -/
def wordErrors (d : List (Nat × Nat)) (k : Nat) : List Nat := (d.filter fun p => p.1 == k).map (·.2)

/-- R202: one codeword decodes when at most one symbol errs, or, with a device marked, when no other symbol errs. -/
def wordDecodes (mark : Option Nat) (errs : List Nat) : Bool :=
  match mark with
  | some m => errs.all (· == m)
  | none => decide (errs.length ≤ 1)

def lineDecodes (mark : Option Nat) (d : List (Nat × Nat)) : Bool :=
  [0, 1, 2, 3].all fun k => wordDecodes mark (wordErrors d k)

/-- Mark a device of a pseudo-channel (R202). -/
def markDevice (k pc dev : Nat) (s : State) : State :=
  let x := stackOf s k
  if (tfind x.marks pc).isSome then s
  else
    raise 0x1403 1 none (packLE [(1, k), (1, pc), (1, dev)])
      (setStack k { x with marks := tput x.marks pc dev, stats := bump x.stats 11 1 } s)

/-- One corrected symbol: counted where R203 has it counted, and the device marked at 16 within the last 1 s (R202). -/
def countSymbol (k pc dev : Nat) (counted : Bool) (s : State) : State :=
  let x := stackOf s k
  let c := (s.now :: (tget [] x.symbols (pc * 16 + dev)).filter fun t => decide (s.now < t + 1000000000)).take 16
  let s := setStack k { x with symbols := tput x.symbols (pc * 16 + dev) c, stats := if counted then bump x.stats 7 1 else x.stats } s
  let s := corrected 1 k s
  if 16 ≤ c.length then markDevice k pc dev s else s

/-- Count the corrections of a line that decodes; a device that errs in all four codewords is marked (R202). -/
def countCorrections (l : Nat) (d : List (Nat × Nat)) (counted : Bool) (s : State) : State :=
  let k := lineStack s l
  let pc := linePc s l
  let s := each d (fun p s => countSymbol k pc p.2 counted s) s
  let whole := (List.range 11).filter fun dev => [0, 1, 2, 3].all fun w => (w, dev) ∈ d
  each whole (fun dev s => markDevice k pc dev s) s

/-! ### Reading and writing -/

/-- What a line read gives: data and 0 good, 1 poisoned, 2 uncorrectable, 3 integrity failure (R203). -/
structure LineRead where
  data : Bytes := []
  status : Nat := 0
  deriving DecidableEq, Repr

def rawLine (s : State) (l : Nat) : Bytes := (List.range 64).map fun i => tget 0 s.mem.data (l * 64 + i)

/-- Write one DRAM byte; a zero byte is not listed. -/
def putByte (a : Nat) (b : Byte) (s : State) : State := { s with mem := { s.mem with data := tset 0 s.mem.data a b } }

/-- Write bytes from an address upward. -/
def putBytes : Nat → Bytes → State → State
  | _, [], s => s
  | a, b :: bs, s => putBytes (a + 1) bs (putByte a b s)

def lineMeta (s : State) (l : Nat) : LineMeta := (tfind s.mem.info l).getD {}

/-- Set a line's metadata; the cleared state is not listed. -/
def setMeta (l : Nat) (m : LineMeta) (s : State) : State :=
  { s with mem := { s.mem with info := if m = {} then tdel s.mem.info l else tput s.mem.info l m } }

/-- The seed of a live epoch of a partition whose keys are held (R459, R597). -/
def liveSeed (s : State) (p epoch : Nat) : Option Nat :=
  let x := partOf s p
  if (p, epoch) ∈ s.ras.lostKeys then none
  else if epoch = x.current && x.current != 0 && x.seedCur != 0 then some x.seedCur
  else if epoch = x.previous && x.previous != 0 && x.seedPrev != 0 then some x.seedPrev
  else none

/-- R203: how a decoded line resolves for a request of a partition at a DPA line. -/
def resolveLine (s : State) (l part dpaLine : Nat) : LineRead :=
  let m := lineMeta s l
  if m.poison then ⟨rawLine s l, 1⟩
  else if !m.valid then ⟨zeros 64, 0⟩
  else match liveSeed s part m.epoch with
    | none => ⟨[], 3⟩
    | some seed =>
      if m.part = part && m.seed == seed && m.line == dpaLine then ⟨rawLine s l, 0⟩ else ⟨[], 3⟩

/-- Read a line (R203), with its counts; no event is raised here, since the effect belongs to the reader's path. -/
def readLine (l part dpaLine : Nat) (s : State) : LineRead × State :=
  let k := lineStack s l
  let s := hbmCount k 0 1 (openLine l s)
  let d := (tfind s.mem.damage l).getD []
  if lineDecodes (tfind (stackOf s k).marks (linePc s l)) d then
    let r := resolveLine s l part dpaLine
    let s := countCorrections l d (r.status == 0 && (lineMeta s l).valid) s
    (r, if r.status = 3 then hbmCount k 9 1 s else s)
  else (⟨[], 2⟩, hbmCount k 8 1 s)

/-- The error event of a line read that failed, and the security event of an integrity failure (R204, R600). -/
def reportLine (r : LineRead) (l dpaLine part path requester : Nat) (s : State) : State :=
  if r.status < 2 then s
  else
    let s := contained 1 (if path = 1 || path = 2 || path = 8 || path = 15 then 1 else 2)
      (lineStack s l) (dpaLine * 64) path requester (some part) s
    if r.status = 3 then security part (packLE [(8, dpaLine * 64), (1, part)]) s else s

/-- Write a whole line under the partition's current epoch (R205), poisoned or not. -/
def writeLine (l part dpaLine : Nat) (data : Bytes) (poison : Bool) (s : State) : State :=
  let x := partOf s part
  let s := hbmCount (lineStack s l) 1 1 (openLine l s)
  let s := putBytes (l * 64) data s
  let s := { s with mem := { s.mem with damage := tdel s.mem.damage l } }
  setMeta l { valid := true, poison := poison, epoch := x.current, part := part, seed := x.seedCur, line := dpaLine } s

/-- The bytes a partial write or re-key write merges over, and whether the line ends poisoned (R205). -/
def mergeBase (r : LineRead) : Bytes × Bool :=
  if r.status = 0 then (r.data, false) else if r.status = 1 then (r.data, true) else (zeros 64, true)

/-- A partial write of one line (R205): read, resolve, merge, write under the current epoch. -/
def mergeLine (l part dpaLine : Nat) (data : Bytes) (be : Nat) (poison : Bool) (requester : Nat) (s : State) : State :=
  let (r, s) := readLine l part dpaLine s
  let s := reportLine r l dpaLine part 2 requester s
  let b := mergeBase r
  writeLine l part dpaLine (mergeBytes b.1 data be) (b.2 || poison) s

/-- Clear a line (R59, R205): the all-zero codeword. -/
def clearLine (l : Nat) (s : State) : State :=
  let s := putBytes (l * 64) (zeros 64) s
  setMeta l {} { s with mem := { s.mem with damage := tdel s.mem.damage l } }

/-- Set a line's poison flag, its data kept (R135, R596). A line never written becomes poisoned zeros. -/
def poisonLine (l part dpaLine : Nat) (s : State) : State :=
  let m := lineMeta s l
  if m.valid then setMeta l { m with poison := true } s
  else
    let x := partOf s part
    setMeta l { valid := true, poison := true, epoch := x.current, part := part, seed := x.seedCur, line := dpaLine } s

/-- A key of the set of a partition's epoch (R452, R453), named by the epoch's seed: 0 K_LINE, 1 K_LTAG, 2 H_LINE, 3 K_UNIT, 4 K_UTAG,
5 H_UNIT (log 116, DESIGN CHOICE). -/
def keyOfSet (m : LineMeta) (which : Nat) : Nat := Config.keySet m.seed m.part m.epoch which

/-- Counter block j of a line (R457). -/
def counterBlock (m : LineMeta) (j : Nat) : Nat := packBits [(44, m.line), (6, m.part), (16, m.epoch), (2, j)]

/-- The ciphertext of a line (R457): its bytes XORed with AES-256 under K_LINE of four counter blocks. -/
def lineCipher (m : LineMeta) (plain : Bytes) : Bytes :=
  List.zipWith (fun (a b : Byte) => a ^^^ b) plain
    ((List.range 4).flatMap fun j => toLE 16 (Config.aes (keyOfSet m 0) (counterBlock m j)))

/-- TAG of a line (R457). -/
def lineTag (m : LineMeta) (cipher : Bytes) : Nat :=
  Config.aes (keyOfSet m 1) (Config.ghash (keyOfSet m 2) (toLE 16 (counterBlock m 0) ++ cipher)) % 2 ^ 44

/-- The stored 64 B and metadata bits of a line: zeros when it is cleared (R205), else ciphertext, VALID, POISON, EPOCH and TAG (R201). -/
def storedLine (s : State) (l : Nat) : Bytes × Nat :=
  let m := lineMeta s l
  if !m.valid then (zeros 64, 0)
  else
    let c := lineCipher m (rawLine s l)
    (c, metaWord m (lineTag m c))

/-- The burst a DRAM line travels as (R200). -/
def lineBurst (s : State) (l : Nat) : List (List Nat) := burstOf (storedLine s l).1 (storedLine s l).2

/-! ### Critical words (R146, R208, R209) -/

/-- The six copies of a value: three on the die, and three on pseudo-channel 0 of stacks 0, 3 and 6. -/
def critCopies (v : Nat) : List CritCopy :=
  List.replicate 3 { value := v } ++ [0, 3, 6].map fun k => { value := v, sliver := some (k * 64) }

/-- A word's six copies. -/
def critOf (s : State) (w : Nat) : List CritCopy := tget (critCopies 0) s.mem.crit w

/-- A write of a critical word: all six copies (R208). The area has room for 256 words. -/
def writeCritical (w value : Nat) (s : State) : State :=
  if 256 ≤ w then s else { s with mem := { s.mem with crit := tput s.mem.crit w (critCopies value) } }

/-- Three copies by vote (R209): the value on which two sound copies agree. -/
def voteCopies (c : List CritCopy) : Option Nat :=
  match (c.filter fun x => !x.damaged).map (·.value) with
  | [a, b] => if a = b then some a else none
  | [a, b, d] => if a = b || a = d then some a else if b = d then some b else none
  | _ => none

/-- Copies that do not hold a voted value. -/
def strayCopies (c : List CritCopy) (v : Nat) : Nat := (c.filter fun x => x.damaged || x.value != v).length

/-- The words that the spec names (R55, R146, R336), by number (log 117, DESIGN CHOICE): 0 to 15 the bases of the slices' tables, 16 the
base of the overflow pool, 17 `LDG_TIMEOUT`, 18 `LDG_PROXY_ALLOWANCE`, 19 the lending book's root address, 20 its generation, 21
`MAR_NODE_COORD`, 22 `MAR_RING_SIZE`. -/
def critEntries : List (Nat × Nat) := [(0x300100, 17), (0x300101, 18), (0x100000, 21), (0x100001, 22)]

/-- A dictionary entry's value is written to its critical word, if it has one (R208). -/
def noteCritical (key value : Nat) (s : State) : State :=
  match critEntries.find? fun p => p.1 == key with
  | some (_, w) => writeCritical w value s
  | none => s

/-- The generation of the lending book changes (R55): its critical word is written. -/
def writeGeneration (g : Nat) (s : State) : State := writeCritical 20 g { s with pga := { s.pga with generation := g } }

/-- The critical-word area is initialised (R576, t4): the structure bases, and the values of the configuration store. -/
def initCritical (s : State) : State :=
  let s := each (List.range (nStacks s) ++ [16, 19]) (fun w s => writeCritical w (Config.critBase w % 2 ^ 64) s)
    { s with mem := { s.mem with crit := [] } }
  let s := each critEntries (fun p s => noteCritical p.1 (tget (match dictFind (p.1 / 256) (p.1 % 256) with | some e => e.dflt | none => 0)
    s.store p.1) s) s
  writeGeneration s.pga.generation s

/-- The node enters its fault state (R209, R577, R584): only a cold reset ends it. -/
def enterFault (s : State) : State :=
  { s with rst := { s.rst with nodeState := 4, faultN := false, ready := false, recovering := false } }

/-- A critical word is read in service (R209), by vote over its on-die copies: `mask` names the copies found damaged. A stray copy is
rewritten and counted; without two that agree the word is lost. -/
def readCritical (w mask : Nat) (s : State) : State :=
  if (tfind s.mem.crit w).isNone then s
  else
    let c := (critOf s w).zipIdx.map fun p => if bitOf mask p.2 then { p.1 with damaged := true } else p.1
    match voteCopies (c.take 3) with
    | none => enterFault (raise 0x1405 3 none (packLE [(8, w)]) (countError 3 4 { s with mem := { s.mem with crit := tput s.mem.crit w c } }))
    | some v =>
      { s with mem := { s.mem with
        crit := tput s.mem.crit w (List.replicate 3 { value := v } ++ c.drop 3)
        critRepairs := s.mem.critRepairs + strayCopies (c.take 3) v } }

/-- During node recovery the on-die copies are reloaded from the DRAM copies by the same vote (R209; log 117, DESIGN CHOICE); answers the first
word that is lost. -/
def reloadCritical (s : State) : Option Nat × State :=
  s.mem.crit.foldl (fun (acc : Option Nat × State) p =>
    match voteCopies (p.2.drop 3) with
    | none => (some (acc.1.getD p.1), acc.2)
    | some v =>
      let s := acc.2
      (acc.1, { s with mem := { s.mem with
        crit := tput s.mem.crit p.1 (critCopies v)
        critRepairs := s.mem.critRepairs + strayCopies (p.2.drop 3) v } })) (none, s)

/-- The canonical form of DRAM: keys strictly rising, no byte of 0 and no cleared metadata listed. -/
def Memory.wf (m : Mem) : Bool := tcanon 0 m.data && tcanon {} m.info && tsorted m.damage

end Sys2Proof.Machine
end

