-- ==== Sys2Proof/Machine/FlashUnit.lean ====
section
/-! DEFINITION. A unit as it stands on flash (07, 15): its metadata, encryption, tags and codewords, and what a read of it brings. -/
namespace Sys2Proof.Machine

/-! ### Metadata, ciphertext and tags (R218, R219, R458) -/

/-- A key of the set of the unit's partition and EPOCH (R219, R452), numbered as in `keyOfSet`. -/
def unitKey (u : FlashUnit) (which : Nat) : Nat := Config.keySet u.seed u.part u.epoch which

/-- Sub-block k of a unit's data: 4 KiB. -/
def plainBlock (u : FlashUnit) (k : Nat) : Bytes := (List.range 4096).map fun i => tget 0 u.data (4096 * k + i)

/-- The tweak of sub-block k (R219). -/
def blockTweak (u : FlashUnit) (k : Nat) : Nat := u.logical * 16 + k

/-- The ciphertext of sub-block k (R219). -/
def blockCipher (u : FlashUnit) (k : Nat) : Bytes := Config.xts (unitKey u 3) (blockTweak u k) (plainBlock u k)

/-- The 32 B block that tag k covers with the ciphertext (R219, R458; its layout: log 116, DESIGN CHOICE). -/
def tagBlock (u : FlashUnit) (k : Nat) : Bytes :=
  packLE [(8, u.logical), (2, k), (2, u.gen), (2, u.part), (2, u.epoch), (8, u.origSeq), (8, 0)]

/-- Tag k (R458). -/
def blockTag (u : FlashUnit) (k : Nat) : Nat := Config.aes (unitKey u 4) (Config.ghash (unitKey u 5) (tagBlock u k ++ blockCipher u k))

/-- The 448 B of unit metadata (R218): the header, the poison flags and the sixteen tags. -/
def unitMeta (u : FlashUnit) : Bytes :=
  packLE [(8, u.seq), (8, packBits [(33, u.logical), (14, u.gen), (1, 0), (16, u.epoch)]), (8, packBits [(6, u.part), (2, u.kind)]),
    (8, u.origSeq), (8, u.writeTime), (24, 0), (128, u.poison.foldl setBit 0)] ++
  (List.range 16).flatMap fun k => toLE 16 (blockTag u k)

/-! ### Codewords and pages (R215, R217) -/

/-- The plane that codeword k lies in, and its position in that plane's page (R217). -/
def codewordPlane (k : Nat) : Nat := k / 4
def codewordPosition (k : Nat) : Nat := k % 4

/-- Codeword k (R217): sub-block k, its 28 B of the metadata, and 260 B of parity. -/
def codeword (u : FlashUnit) (k : Nat) : Bytes :=
  let data := blockCipher u k ++ ((unitMeta u).drop (28 * k)).take 28
  data ++ toLE 260 (Config.parity data)

/-- The page of plane p (R217): its four codewords, 17,536 B. -/
def unitPage (u : FlashUnit) (p : Nat) : Bytes := ((List.range 16).filter fun k => codewordPlane k == p).flatMap (codeword u)

/-! ### Reading a unit (R229, R230) -/

/-- The shifts that step 2 has: at most 8 of the retry table, one a byte (R229; log 128, DESIGN CHOICE). -/
def shiftsOf (s : State) : Nat := min 8 s.stk.retryTable.length

/-- How codeword k decoded; a shift that the table does not hold is not tried, and step 3 follows. -/
def codewordStep (s : State) (r : UnitRead) (k : Nat) : Nat :=
  let x := r.steps.getD k 0
  if x ≤ 8 && shiftsOf s < x then 9 else x

/-- The reads beyond the normal one that a codeword's page needs (R229): up to 8 shifted, then 3 and then 7 soft ones. -/
def retryReads (s : State) (step : Nat) : Nat :=
  if step ≤ 8 then step else if step = 9 then shiftsOf s + 3 else shiftsOf s + 10

/-- The step that the worst codeword of a plane's page climbed to. -/
def pageStep (s : State) (r : UnitRead) (p : Nat) : Nat :=
  ((List.range 16).filter fun k => codewordPlane k == p).foldl (fun a k => max a (codewordStep s r k)) 0

/-- The step that the unit's worst codeword climbed to. -/
def unitStep (s : State) (r : UnitRead) : Nat := (List.range 4).foldl (fun a p => max a (pageStep s r p)) 0

/-- Codewords that failed step 4. -/
def lostCodewords (s : State) (r : UnitRead) : Nat := ((List.range 16).filter fun k => 10 < codewordStep s r k).length

/-- Whether a unit decoded (R230). -/
def decodes (s : State) (r : UnitRead) : Bool := decide (unitStep s r ≤ 10)

/-- Whether a unit read for a partition passes its epoch and its tags (R219, R230): its keys are live, the tags were made for this logical
unit and partition, and no sub-block is other than it was written. -/
def unitSound (s : State) (u : FlashUnit) (r : UnitRead) (part logical : Nat) : Bool :=
  u.part == part && u.logical == logical && liveSeed s part u.epoch == some u.seed && r.altered.all fun k => decide (16 ≤ k)

end Sys2Proof.Machine
end

