-- ==== Sys2Proof/Machine/FlashOps.lean ====
section
/-! DEFINITION. The Storekeeper's shared operations (07): where a unit lies, groups and their free count, the journal, the
placing of programs, reads of units, and a LUN's suspension. -/
namespace Sys2Proof.Machine

def setStk (f : Stk → Stk) (s : State) : State := { s with stk := f s.stk }

/-! ### Physical units (R215, R216) -/

/-- The target of a unit: channel × 8 + target. -/
def unitTarget (p : Nat) : Nat := p / 2 ^ 24

/-- A unit's group index within its target, LUNs interleaved (R216). -/
def unitIndex (s : State) (p : Nat) : Nat := p % 2 ^ 24 / max 1 s.stk.pages

/-- The number of a unit's group: target × 65,536 + index. -/
def unitGroup (s : State) (p : Nat) : Nat := unitTarget p * 65536 + unitIndex s p

/-- A LUN's number: target × 8 + LUN. -/
def groupLun (s : State) (g : Nat) : Nat := g / 65536 * 8 + g % 65536 % max 1 s.stk.luns
def unitLun (s : State) (p : Nat) : Nat := groupLun s (unitGroup s p)

/-- The physical unit number of a group's page. -/
def groupUnit (s : State) (g page : Nat) : Nat := g / 65536 * 2 ^ 24 + g % 65536 * max 1 s.stk.pages + page

/-- The mark of a lost unit (R220). -/
def lostUnit : Nat := 0x1FFFFFFFF

def groupOf (s : State) (g : Nat) : Group := (tfind s.stk.groups g).getD {}
def setGroup (g : Nat) (x : Group) (s : State) : State := setStk (fun k => { k with groups := tput k.groups g x }) s

/-- All groups of the usable targets. -/
def totalGroups (s : State) : Nat := s.stk.targets.length * s.stk.groupsPerTarget

/-- Free groups of the usable targets (R223: a group not listed has never been used). -/
def freeGroups (s : State) : Nat :=
  totalGroups s - (s.stk.groups.filter fun p => p.2.state != 0 && s.stk.targets.any fun t => t.1 == p.1 / 65536).length

/-- Live units of a group. -/
def liveUnits (s : State) (g : Nat) : List Nat :=
  (s.stk.live.filter fun p => unitGroup s p.1 == g).map (·.1)

/-- The map entry of a logical unit; an entry not listed is not valid, and its GEN counts the clears of its range. -/
def mapEntry (s : State) (b : Nat) : MapEntry :=
  (tfind s.stk.map b).getD
    { gen := (s.stk.clears.filter fun c => decide (c.1 ≤ b) && decide (b < c.1 + c.2)).length % 16384 }
def setMap (b : Nat) (m : MapEntry) (s : State) : State := setStk (fun k => { k with map := tput k.map b m }) s

/-- Wall time in seconds: 0 until it is written after a cold boot (R544, R580). -/
def wallTime (s : State) : Nat := if s.sah.wall = 0 then 0 else s.sah.wall + (s.now - s.sah.wallAt) / 1000000000

def stkCount (i n : Nat) (s : State) : State := setStk (fun k => { k with stats := bump k.stats i n }) s

/-! ### Free-group thresholds (R240) -/

/-- Whether free groups are below `n` hundredths of a per cent of all groups. -/
def below (s : State) (n : Nat) : Bool := decide (freeGroups s * 10000 < totalGroups s * n)

/-- Compare the free groups with the thresholds; FREE_LOW and FREE_RESERVE are raised when they begin to hold. -/
def compareFree (s : State) : State :=
  let low := below s (rStkThrottle s)
  let res := below s (rStkReserve s)
  let s := if low && !s.stk.freeLow then raise 0x1804 1 none (packLE [(4, freeGroups s), (4, totalGroups s)]) s else s
  let s := if res && !s.stk.freeReserve then raise 0x1805 2 none (packLE [(4, freeGroups s), (4, totalGroups s)]) s else s
  setStk (fun k => { k with freeLow := low, freeReserve := res }) s

/-! ### Free groups of a LUN and system groups (R216, R223, R225 to R227, R236) -/

/-- The LUNs of the usable targets, ascending. -/
def allLuns (s : State) : List Nat :=
  s.stk.targets.flatMap fun p => (List.range (max 1 s.stk.luns)).map fun l => p.1 * 8 + l

/-- The channel of a LUN. -/
def lunChannel (lun : Nat) : Nat := lun / 64

/-- The free groups of a LUN with their ERASES: those listed, and the first one never used. One whose opening record is on its way is
spoken for (R225). -/
def freeOnLun (s : State) (lun : Nat) : List (Nat × Nat) :=
  let l := lun % 8
  let mine := s.stk.groups.filter fun p => groupLun s p.1 == lun
  let opening := (s.stk.journal.filter fun j => j.2.type == 3).map (·.2.arg)
  let at_ := fun (i : Nat) => lun / 8 * 65536 + i * max 1 s.stk.luns + l
  let never := (List.range (mine.length + opening.length + 1)).find? fun i =>
    !(mine.any fun p => p.1 == at_ i) && !decide (at_ i ∈ opening)
  let fresh := match never with
    | some i => if at_ i % 65536 < s.stk.groupsPerTarget then [(at_ i, 0)] else []
    | none => []
  ((mine.filter fun p => p.2.state == 0 && !decide (p.1 ∈ opening)).map fun p => (p.1, p.2.erases)) ++ fresh

/-- The free group of a LUN with the lowest ERASES, the lowest number first (R236). -/
def bestFree (s : State) (lun : Nat) : Option Nat :=
  match freeOnLun s lun with
  | [] => none
  | g :: gs => some (gs.foldl (fun a b => if b.2 < a.2 then b else a) g).1

/-- A group becomes a system group (R223). -/
def takeSystem (g : Nat) (s : State) : State := setGroup g { groupOf s g with state := 6 } s

/-- Two free groups, on two channels where there are two (R225, R230). Which they are: from the LUN that `i` says on, going round (log 129,
DESIGN CHOICE). -/
def freePair (i : Nat) (s : State) : Option (Nat × Nat) :=
  let ls := allLuns s
  let turned := ls.drop (i % max 1 ls.length) ++ ls.take (i % max 1 ls.length)
  match turned.find? fun l => (bestFree s l).isSome with
  | none => none
  | some l =>
    let has := fun (m : Nat) => m != l && (bestFree s m).isSome
    let other := (turned.find? fun m => lunChannel m != lunChannel l && has m).orElse fun _ => turned.find? has
    match bestFree s l, other.bind (bestFree s) with
    | some a, some b => some (a, b)
    | some a, none => (bestFree (takeSystem a s) l).map fun b => (a, b)
    | none, _ => none

/-- Take `n` pairs of system groups, as far as there are free ones. -/
def takePairs : Nat → State → List (Nat × Nat) × State
  | 0, s => ([], s)
  | n + 1, s =>
    match freePair n s with
    | none => ([], s)
    | some p =>
      let a := takePairs n (takeSystem p.1 (takeSystem p.2 s))
      (p :: a.1, a.2)

/-! ### The journal (R225) -/

/-- A journal record as it stands in a journal page (R225). -/
def journalBytes (seq : Nat) (j : Journal) : Bytes :=
  packLE [(8, seq), (8, j.first % 2 ^ 33), (4, j.count), (1, j.type), (3, 0)]

/-- Both copies of a record are programmed, in a page of the newest journal pair. -/
def programRecord (seq : Nat) (s : State) : State :=
  match s.stk.jpairs with
  | [] => s
  | p :: _ =>
    let s := emit (.flash 5 (groupUnit s p.2 s.stk.jnext) seq) (emit (.flash 5 (groupUnit s p.1 s.stk.jnext) seq) s)
    setStk (fun k => { k with jnext := k.jnext + 1 }) s

/-- A new journal pair is taken when there is none, or its pages are used up (one record a page: log 129, DESIGN CHOICE). -/
def journalPair (s : State) : State :=
  if !s.stk.jpairs.isEmpty && decide (s.stk.jnext < s.stk.pages) then s
  else
    let a := takePairs 1 s
    compareFree (setStk (fun k => { k with jpairs := a.1 ++ k.jpairs, jnext := 0 }) a.2)

/-- Append a record to the journal, under the next SEQ. -/
def addRecord (j : Journal) (s : State) : State :=
  let s := journalPair s
  programRecord s.stk.seq (setStk (fun k => { k with journal := tput k.journal k.seq j, seq := k.seq + 1 }) s)

/-- Plane blocks of a group turned out bad (R223). -/
def markPlanes (g mask : Nat) (s : State) : State :=
  let x := groupOf s g
  setGroup g { x with planeBad := (List.range 4).foldl (fun a i => if bitOf mask i then setBit a i else a) x.planeBad } s

/-! ### Open groups and the placing of programs (R224, R225, R236) -/

/-- Whether a group's opening record is not yet durable. -/
def openingOn (s : State) (key : Nat) : Bool :=
  s.stk.journal.any fun p => p.2.type == 3 && p.2.waits == key + 1

/-- Ask for a free group to be opened for writing: its opening record is journaled first (R225). `kind` 0 serves
write-backs, 1 relocation and refresh. -/
def openGroup (lun kind : Nat) (s : State) : State :=
  let key := lun * 2 + kind
  if openingOn s key then s
  else match bestFree s lun with
    | none => s
    | some g => addRecord { first := groupUnit s g 0, count := 0, type := 3, waits := key + 1, arg := g } s

/-- A LUN keeps two open groups (R224); under the reserve only relocation and refresh take a free one (R240). -/
def keepOpen (lun : Nat) (s : State) : State :=
  let need := fun (kind : Nat) (s : State) =>
    if s.stk.opened.any (fun p => p.1 == lun * 2 + kind) || (kind == 0 && s.stk.freeReserve) then s else openGroup lun kind s
  if s.stk.targets.any fun t => t.1 == lun / 8 then need 1 (need 0 s) else s

/-- Every LUN keeps its open groups (R224). -/
def keepAll (s : State) : State := each (allLuns s) keepOpen s

/-- The free groups are compared with the thresholds (R240); when the reserve ends, LUNs that gave up their open write-back group under it
open one again (R224). -/
def checkFree (s : State) : State :=
  let held := s.stk.freeReserve
  let s := compareFree s
  if held && !s.stk.freeReserve then keepAll s else s

/-- FLASH_WORN is raised when retired groups pass 10 per cent of all groups (R239). -/
def checkWorn (s : State) : State :=
  if totalGroups s < s.stk.retired * 10 && !s.stk.worn then
    setStk (fun k => { k with worn := true }) (raise 0x1803 1 none (packLE [(4, s.stk.retired)]) s)
  else s

/-- Retire a group (R239): journaled, no longer collected, and FLASH_WORN when retired groups pass 10 per cent. -/
def retireGroup (g cause : Nat) (s : State) : State :=
  let s := setGroup g { groupOf s g with state := 5, cause := cause } s
  let s := addRecord { first := groupUnit s g 0, count := 0, type := 2 }
    (setStk (fun k => { k with
      retired := k.retired + 1
      opened := k.opened.filter fun p => p.2 != g
      refresh := k.refresh.filter (· != g)
      collecting := if k.collecting = some g then none else k.collecting }) s)
  checkFree (checkWorn s)

/-- Programs of a LUN that have not ended. -/
def lunLoad (s : State) (lun : Nat) : Nat := (s.stk.programs.filter fun p => p.2.done == 0 && unitLun s p.2.phys == lun).length

/-- The next unit of an open group of a kind: the LUN and the group (R224). Of several, one of the LUN with the fewest programs (log 129,
DESIGN CHOICE). -/
def openPlace (s : State) (kind : Nat) : Option (Nat × Nat) :=
  match s.stk.opened.filter fun p => p.1 % 2 == kind && decide ((groupOf s p.2).next < s.stk.pages) with
  | [] => none
  | p :: rest =>
    let best := rest.foldl (fun (a : Nat × Nat × Nat) q =>
      let n := lunLoad s (q.1 / 2)
      if n < a.1 then (n, q) else a) (lunLoad s (p.1 / 2), p)
    some (best.2.1 / 2, best.2.2)

/-- Write-backs in progress: programs of KIND 0 not yet ended (R165). -/
def writeBacks (s : State) : Nat :=
  (s.stk.programs.filter fun p => p.2.unit.kind == 0 && (p.2.done == 0 || p.2.done == 4)).length

/-- How many write-backs may be in progress (R165, R240). -/
def writeBackLimit (s : State) : Nat := if s.stk.freeLow then min 8192 (rStkThrottleWb s) else 8192

/-! ### What a LUN does next (R232, R233) -/

/-- Relocation has had less than half of the channel's time while free groups are low (R232). -/
def relocFirst (s : State) (lun : Nat) : Bool :=
  let t := tget (0, 0) s.stk.chanTime (lunChannel lun)
  s.stk.freeLow && decide (t.2 * 2 ≤ t.1)

/-- Time that a LUN worked counts for its channel, and whether it served relocation (R232). -/
def creditSpan (lun d : Nat) (own : Bool) (s : State) : State :=
  let t := tget (0, 0) s.stk.chanTime (lunChannel lun)
  let spent := if s.stk.freeLow then tput s.stk.chanTime (lunChannel lun) (t.1 + d, t.2 + (if own then d else 0)) else []
  setStk (fun k => { k with chanTime := spent }) s

/-- The time of an operation on its channel. -/
def creditTime (lun : Nat) (o : LunOp) (s : State) : State :=
  let own := o.kind == 1 || (match tfind s.stk.programs o.target with | some p => p.unit.kind != 0 | none => false)
  creditSpan lun (if o.suspended then 0 else s.now - o.started) own s

/-- The next program of a LUN (R232): the oldest placed write-back, or else the oldest relocation; the other way round where relocation
is owed its half. -/
def nextProgram (lun : Nat) (s : State) : Option (Nat × Program) :=
  let ready := fun (p : Nat × Program) => unitLun s p.2.phys == lun && !p.2.started && p.2.done == 0
  let back := s.stk.programs.find? fun p => ready p && p.2.unit.kind == 0
  let reloc := s.stk.programs.find? fun p => ready p && p.2.unit.kind != 0
  if relocFirst s lun then reloc.orElse fun _ => back else back.orElse fun _ => reloc

/-- Start a program on an idle LUN. -/
def startProgram (lun n : Nat) (p : Program) (s : State) : State :=
  emit (.flash 0 p.phys n) (setStk (fun k => { k with
    programs := tput k.programs n { p with started := true },
    lunOps := tput k.lunOps lun { kind := 0, target := n, started := s.now } }) s)

/-- Start the erase of a group (R235). -/
def startErase (lun g : Nat) (s : State) : State :=
  emit (.flash 1 g 0) (setStk (fun k => { k with lunOps := tput k.lunOps lun { kind := 1, target := g, started := s.now } }) s)

/-- Whether a fill is being read on a LUN. -/
def readingOn (s : State) (lun : Nat) : Bool := s.stk.fills.any fun f => f.2.lun == some lun

/-- Whether a waiting fill is a demand fill. -/
def demandFill (s : State) (b : Nat) : Bool := match tfind s.stk.fills b with | some f => f.cls == 2 | none => true

/-- A fill is read on its LUN. -/
def readNow (lun b : Nat) (s : State) : State :=
  emit (.flash 2 (mapEntry s b).phys b) (setStk (fun k => { k with
    fills := match tfind k.fills b with | some f => tput k.fills b { f with lun := some lun, readAt := s.now } | none => k.fills }) s)

/-- The waiting fills of a LUN that `p` holds of are read, in arrival order. -/
def readWaiting (lun : Nat) (p : Nat → Bool) (s : State) : State :=
  let l := tget [] s.stk.lunWait lun
  each (l.filter p) (readNow lun) (setStk (fun k => { k with lunWait := tset [] k.lunWait lun (l.filter fun b => !p b) }) s)

/-- Whether a LUN's running operation may be suspended now (R233). -/
def maySuspend (s : State) (o : LunOp) : Bool :=
  !o.suspended &&
  (if o.kind = 0 then decide (o.started + usec 100 ≤ s.now) && decide (o.suspends < 4)
   else decide (o.started + usec 500 ≤ s.now) && decide (o.suspends < 16))

/-- A LUN in operation: waiting fills that may suspend it do so once it has run its slice, and are read; those that came before with them
(R233). Demand fills suspend programs and erases, stage and history fills only erases. -/
def trySuspend (lun : Nat) (s : State) : State :=
  match tfind s.stk.lunOps lun with
  | none => s
  | some o =>
    let may := fun (b : Nat) => o.kind == 1 || demandFill s b
    if !((tget [] s.stk.lunWait lun).any may) then s
    else if o.suspended then readWaiting lun may s
    else if maySuspend s o then
      let s := emit (.flash 3 lun o.target) (stkCount 9 1 (creditTime lun o (setStk (fun k => { k with
        lunOps := tput k.lunOps lun { o with suspended := true, suspends := o.suspends + 1 } }) s)))
      readWaiting lun (fun b => !demandFill s b && may b) (readWaiting lun (demandFill s) s)
    else s

/-- A group of a LUN that waits for its erase. -/
def nextErase (lun : Nat) (s : State) : Option Nat :=
  (s.stk.groups.find? fun p => p.2.state == 4 && groupLun s p.1 == lun).map (·.1)

/-- An idle LUN takes its next work in the order of R232: demand fills, write-backs, stage and history fills, relocation and refresh with
the erases that they make. Where relocation is owed its half of the channel, its programs and erases come first. -/
def serveLun (lun : Nat) (s : State) : State :=
  if (tfind s.stk.lunOps lun).isSome then trySuspend lun s
  else if readingOn s lun then readWaiting lun (demandFill s) s
  else
    let next := nextProgram lun s
    let owed := relocFirst s lun
    let reloc := match next with | some (_, p) => p.unit.kind != 0 | none => (nextErase lun s).isSome
    let s := if owed && reloc then s else readWaiting lun (demandFill s) s
    if readingOn s lun then s
    else
      let first := match next with | some (_, p) => p.unit.kind == 0 || owed | none => owed && reloc
      let s := if first then s else readWaiting lun (fun _ => true) s
      if readingOn s lun then s
      else match next with
        | some (n, p) => startProgram lun n p s
        | none =>
          match nextErase lun s with
          | some g => startErase lun g s
          | none => s

/-- A LUN's operation has ended: the LUN takes its next work. -/
def lunEnded (lun : Nat) (s : State) : State :=
  match tfind s.stk.lunOps lun with
  | none => serveLun lun s
  | some o => serveLun lun (setStk (fun k => { k with lunOps := tdel k.lunOps lun }) (creditTime lun o (assertSource 128 s)))

/-- Send a fill of a unit to its LUN (R232, R233). -/
def readUnit (b p : Nat) (s : State) : State :=
  let lun := unitLun s p
  serveLun lun (setStk (fun k => { k with lunWait := tset [] k.lunWait lun (tget [] k.lunWait lun ++ [b]) }) s)

/-- Place one unit program in an open group (R224): the next page, under the next program sequence number. -/
def placeUnit (lun g : Nat) (u : FlashUnit) (src : Nat) (s : State) : State :=
  let x := groupOf s g
  let seq := s.stk.seq
  let u := { u with seq := seq, origSeq := if u.kind = 0 then seq else u.origSeq,
                    writeTime := if u.kind = 0 then wallTime s else u.writeTime }
  let x := { x with next := x.next + 1, firstSeq := if x.next = 0 then seq else x.firstSeq, lastSeq := seq }
  let s := setGroup g x s
  serveLun lun (setStk (fun k => { k with
    seq := seq + 1,
    programs := tput k.programs k.nextProg { phys := groupUnit s g (x.next - 1), unit := u, src := src },
    nextProg := k.nextProg + 1,
    placed := if u.kind = 0 then k.placed + 65536 else k.placed }) s)

/-! ### Reads (R223, R229, R237) -/

/-- Groups that are erased or gone: a Sweep no longer waits for them (R467, t5). -/
def sweptGroups (gone : Nat → Bool) (s : State) : State :=
  { s with lck := { s.lck with parts := s.lck.parts.map fun p => (p.1, { p.2 with groups := p.2.groups.filter fun g => !gone g }) } }

/-- A group is due for refresh (R229, R237, R238). -/
def refreshLater (g : Nat) (s : State) : State :=
  if g ∈ s.stk.refresh then s else setStk (fun k => { k with refresh := k.refresh ++ [g] }) s

/-- A full open group is closed (R223), and its LUN opens another. One that has been read `STK_READ_LIMIT` times, or that had an uncorrectable
read, while it was open is due for refresh (R237, R239). -/
def closeIfFull (g : Nat) (s : State) : State :=
  let x := groupOf s g
  if x.state = 1 && decide (s.stk.pages ≤ x.next) then
    let s := setStk (fun k => { k with opened := k.opened.filter fun p => p.2 != g })
      (setGroup g { x with state := 2, programTime := wallTime s } s)
    keepOpen (groupLun s g) (if decide (rStkReadLimit s ≤ x.reads) || x.cause == 4 then refreshLater g s else s)
  else s

/-- The sixty-fourth of a group's pages that a unit lies in (R223). -/
def unitPart (s : State) (p : Nat) : Nat := p % 2 ^ 24 % max 1 s.stk.pages * 64 / max 1 s.stk.pages

/-- A read of a unit by whichever path: READS and ERR of its group, at `STK_READ_LIMIT` a refresh (R223, R237), and the steps that its
codewords climbed with the reads they took (R229). -/
def countRead (p : Nat) (r : UnitRead) (s : State) : State :=
  let g := unitGroup s p
  let i := unitPart s p
  let step := unitStep s r
  let s := match tfind s.stk.groups g with
    | none => s
    | some x =>
      let s := setGroup g { x with
        reads := x.reads + 1
        err := tset 0 x.err i (max (tget 0 x.err i) r.errors)
        soft := if 9 ≤ step then x.soft + 1 else x.soft } s
      if rStkReadLimit s ≤ x.reads + 1 && x.state == 2 then refreshLater g s else s
  let s := each (List.range 4) (fun plane s =>
    let n := pageStep s r plane
    let s := each (List.range (min n (shiftsOf s))) (fun i s => emit (.flash 6 p i) s) s
    let s := if 9 ≤ n then emit (.flash 7 p plane) s else s
    stkCount 3 (retryReads s n) s) s
  let s := if 9 ≤ step then refreshLater g (stkCount 4 1 s) else s
  stkCount 5 (lostCodewords s r) s

/-! ### Clears (R59, R222) -/

/-- Clear the map units of a DPA range (R59, R222): valid bits cleared, GEN raised, journaled; returns with the record's
SEQ waiting to be durable under `waits` and `arg`. -/
def clearUnits (first count waits arg : Nat) (s : State) : State :=
  let hit := fun (b : Nat) => decide (first ≤ b) && decide (b < first + count)
  addRecord { first := first, count := count, type := 1, waits := waits, arg := arg } (setStk (fun k => { k with
    clears := (first, count) :: k.clears,
    live := k.live.filter fun p => !(k.map.any fun m => hit m.1 && m.2.valid && m.2.phys == p.1),
    map := k.map.map fun p => if hit p.1 then (p.1, { phys := 0, valid := false, gen := (p.2.gen + 1) % 16384 }) else p }) s)

end Sys2Proof.Machine
end

