-- ==== Sys2Proof/Machine/Tier.lean ====
section
/-! DEFINITION. The DRAM cache (05): frames and their states (R155 to R166), fills and write-backs as seen from a frame, and how
a DPA line is reached in DRAM in either mode. -/
namespace Sys2Proof.Machine

/-! ### Places -/

/-- Frames of one stack (R155; the number of each assembly: log 9, DEDUCED). -/
def framesPerStack : Nat := 1906240

/-- Frames of the node. -/
def totalFrames (s : State) : Nat := framesPerStack * nStacks s

/-- The home stack of a block (R115). -/
def blockStack (s : State) (b : Nat) : Nat := b % nStacks s

/-- The frame set of a block (R155). -/
def frameSetOf (b : Nat) : Nat := Config.frameSet b % (framesPerStack / 16)

def frameOf (s : State) (b : Nat) : Option Frame := tfind s.car.frames b
def setFrame (b : Nat) (f : Frame) (s : State) : State := { s with car := { s.car with frames := tput s.car.frames b f } }

/-- The first DRAM line of a frame (R51, R155). -/
def frameLine (s : State) (b : Nat) (f : Frame) : Nat := (f.slot * nStacks s + blockStack s b) * 1024

/-- The DRAM line that holds a DPA line: itself in flat mode, its frame's in tiered mode (R52). -/
def dramLine (s : State) (dl : Nat) : Option Nat :=
  if s.car.tiered then (frameOf s (dl / 1024)).map fun f => frameLine s (dl / 1024) f + dl % 1024 else some dl

/-- Node time in the units of TOUCH (R120, R156). -/
def touchTime (s : State) : Nat := s.now / 64000 % 65536

/-- Age of a TOUCH value. -/
def touchAge (s : State) (t : Nat) : Nat := (touchTime s + 65536 - t) % 65536

/-- CAR_STATS: 0 hits, 1 misses, 2 demand, 3 stage, 4 history fills, 5 write-backs, 6 fill errors, 7 commits (R183). -/
def carCount (i n : Nat) (s : State) : State := { s with car := { s.car with stats := bump s.car.stats i n } }

/-- Whether a block's presence-filter bit is set: some line of it is tracked (R36). -/
def present (s : State) (b : Nat) : Bool := s.ldg.entries.any fun p => p.1 / 1024 == b

/-! ### Lines through the cache -/

/-- Whether an access to a line can go on: flat mode, a filled frame, or a full-line write to a frame being filled (R159); and a stack that
serves, with the pseudo-channel not paused (R192, R196, R198). -/
def lineReady (s : State) (dl : Nat) (full : Bool) : Bool :=
  (if s.car.tiered then
    match frameOf s (dl / 1024) with
    | some f => f.state != 1 || full
    | none => false
  else true) &&
  (match dramLine s dl with | some l => lineServes s l | none => false)

/-- Whether every line of a block's frame may be accessed now: its stack serves and none of its pseudo-channels is paused (R192, R196,
R198). -/
def blockServes (s : State) (b : Nat) : Bool :=
  stackServes s (blockStack s b) && (pausedNow s (stackOf s (blockStack s b))).isEmpty

/-- Whether the stacks of some lines serve them now. -/
def linesServe (s : State) (lines : List Nat) : Bool :=
  lines.all fun l => match dramLine s l with | some d => lineServes s d | none => true

/-- A block's tag header is looked up: the die holds the 65,536 headers of each stack that were used last, and any other costs one DRAM
read (R157; which is replaced: log 130, DESIGN CHOICE). -/
def lookTag (b : Nat) (s : State) : State :=
  let k := blockStack s b
  let l := tget [] s.car.tagCache k
  let held := decide (b ∈ l)
  let s := { s with car := { s.car with
    tagCache := tput s.car.tagCache k ((b :: (if held then l.filter (· != b) else l)).take 65536) } }
  if held then s else hbmCount k 0 1 s

/-- A line of a frame is touched; the read of STAGE_LINE ends STAGED (R156, R164). -/
def touchLine (dl : Nat) (isRead : Bool) (s : State) : State :=
  if s.car.tiered then
    match frameOf s (dl / 1024) with
    | some f =>
      setFrame (dl / 1024) { f with
        touch := touchTime s,
        staged := f.staged && !(isRead && f.stageLine == dl % 1024) } (lookTag (dl / 1024) s)
    | none => s
  else s

/-- A write sets the line's DIRTY bit (R157, R159, R206). -/
def dirtyLine (dl : Nat) (s : State) : State :=
  if s.car.tiered then
    match frameOf s (dl / 1024) with
    | some f =>
      setFrame (dl / 1024) { f with
        dirty := if dl % 1024 ∈ f.dirty then f.dirty else dl % 1024 :: f.dirty,
        state := if f.state = 2 then 3 else f.state } s
    | none => s
  else s

/-- Read a DPA line for a partition (R203). -/
def readDpa (dl part : Nat) (s : State) : LineRead × State :=
  match dramLine s dl with
  | some l => readLine l part dl (touchLine dl true s)
  | none => (⟨[], 2⟩, s)

/-- Write a whole DPA line (R205). -/
def writeDpa (dl part : Nat) (data : Bytes) (poison : Bool) (s : State) : State :=
  match dramLine s dl with
  | some l =>
    dirtyLine dl (writeLine l part dl data poison (touchLine dl false { s with ldg := { s.ldg with owed := tdel s.ldg.owed dl } }))
  | none => s

/-- A partial write of a DPA line (R205). -/
def mergePart (dl part : Nat) (data : Bytes) (be : Nat) (poison : Bool) (requester : Nat) (s : State) : State :=
  match dramLine s dl with
  | some l => dirtyLine dl (mergeLine l part dl data be poison requester (touchLine dl false s))
  | none => s

/-- Write the enabled bytes of a DPA line (R205). With all 64 enabled it is a full-line write and clears poison, a MemWrPtl as well as a
MemWr (R137 names the MemWr; log 124, DESIGN CHOICE). -/
def mergeDpa (dl part : Nat) (data : Bytes) (be : Nat) (poison : Bool) (requester : Nat) (s : State) : State :=
  if be = fullBE then writeDpa dl part data poison s else mergePart dl part data be poison requester s

/-- The bytes that a partial write of a DPA line merges over (R205). -/
def heldBytes (dl part : Nat) (s : State) : Bytes :=
  match dramLine s dl with
  | some l =>
    if lineDecodes (tfind (stackOf s (lineStack s l)).marks (linePc s l)) ((tfind s.mem.damage l).getD []) then
      (mergeBase (resolveLine s l part dl)).1
    else zeros 64
  | none => zeros 64

/-- Whether a line's own value is in DRAM: its frame is filled, or a write to it came before the fill (R159). -/
def lineHeld (s : State) (dl : Nat) : Bool :=
  if s.car.tiered then
    match frameOf s (dl / 1024) with
    | some f => f.state != 1 || decide (dl % 1024 ∈ f.dirty)
    | none => false
  else true

/-- Poison a DPA line, its value kept (R135, R147). A line whose value is not in DRAM is poisoned when its block has been filled (log 119, DEDUCED). -/
def poisonDpa (dl part : Nat) (s : State) : State :=
  match (if lineHeld s dl then dramLine s dl else none) with
  | some l => dirtyLine dl (poisonLine l part dl s)
  | none => { s with ldg := { s.ldg with owed := tput s.ldg.owed dl part } }

/-- Whether a line is poisoned, or is to be once its block is in DRAM. -/
def isPoisoned (s : State) (dl : Nat) : Bool :=
  (tfind s.ldg.owed dl).isSome || (match (if lineHeld s dl then dramLine s dl else none) with | some l => (lineMeta s l).poison | none => false)

/-- Poison a line under R135, counted once while it stays poisoned (R149; log 132, DESIGN CHOICE). -/
def poisonCounted (dl part : Nat) (s : State) : State :=
  poisonDpa dl part (if isPoisoned s dl then s else { s with ldg := { s.ldg with poisoned := tbump s.ldg.poisoned part 1 } })

/-- The poison of a DPA line is cleared (R137). -/
def clearPoisonDpa (dl : Nat) (s : State) : State :=
  let s := { s with ldg := { s.ldg with owed := tdel s.ldg.owed dl } }
  match dramLine s dl with
  | some l => if (lineMeta s l).poison then dirtyLine dl (setMeta l { lineMeta s l with poison := false } s) else s
  | none => s

/-- Report a line read that failed on a path (R204, R600). -/
def reportDpa (r : LineRead) (dl part path requester : Nat) (s : State) : State :=
  match dramLine s dl with
  | some l => reportLine r l dl part path requester s
  | none => s

/-! ### Allocating and freeing frames -/

/-- The blocks a stack's frames hold. -/
def stackBlocks (s : State) (k : Nat) : Tbl Frame := s.car.frames.filter fun p => blockStack s p.1 == k

/-- The frames of a block's set (R155). -/
def setMates (s : State) (b : Nat) : Tbl Frame :=
  (stackBlocks s (blockStack s b)).filter fun p => frameSetOf p.1 == frameSetOf b

/-- Whether a block's set has an invalid frame (R163). Below 16 frames on the stack no set can be full, and the hash need not be asked. -/
def hasRoom (s : State) (b : Nat) : Bool :=
  decide ((stackBlocks s (blockStack s b)).length < 16) || decide ((setMates s b).length < 16)

/-- The frame that a block takes: the lowest way of its set that holds nothing (R155; log 10, DESIGN CHOICE). -/
def freeSlot (s : State) (b : Nat) : Nat :=
  let used := (setMates s b).map (·.2.slot % 16)
  frameSetOf b * 16 + ((List.range 16).find? fun i => !decide (i ∈ used)).getD 0

/-- The DRAM contents of a frame are gone: nothing is listed there. -/
def wipeFrame (b : Nat) (f : Frame) (s : State) : State :=
  let lo := frameLine s b f
  { s with mem := { s.mem with
      data := s.mem.data.filter fun p => !(decide (lo * 64 ≤ p.1) && decide (p.1 < (lo + 1024) * 64)),
      info := s.mem.info.filter fun p => !(decide (lo ≤ p.1) && decide (p.1 < lo + 1024)),
      damage := s.mem.damage.filter fun p => !(decide (lo ≤ p.1) && decide (p.1 < lo + 1024)) } }

/-- Free a block's frame (R159). -/
def freeFrame (b : Nat) (s : State) : State :=
  match frameOf s b with
  | none => s
  | some f => { wipeFrame b f s with
      car := { s.car with
        frames := tdel s.car.frames b
        tagCache := tset [] s.car.tagCache (blockStack s b) ((tget [] s.car.tagCache (blockStack s b)).filter (· != b)) }
      stk := { s.stk with landed := tdel s.stk.landed b } }

/-- Discard a frame and the fill or write-back in progress for it (R159, drop); commits no longer wait on it. -/
def dropBlock (b : Nat) (s : State) : State :=
  let s := freeFrame b s
  { s with ldg := { s.ldg with owed := s.ldg.owed.filter fun p => p.1 / 1024 != b }
           car := { s.car with commits := s.car.commits.map fun p =>
             (p.1, { p.2 with blocks := p.2.blocks.filter (· != b), again := p.2.again.filter (· != b) }) }
           stk := { s.stk with
      fills := match tfind s.stk.fills b with
        | some f => if f.lun.isSome then tput s.stk.fills b { f with dropped := true } else tdel s.stk.fills b
        | none => s.stk.fills,
      lunWait := (s.stk.lunWait.map fun p => (p.1, p.2.filter (· != b))).filter fun p => !p.2.isEmpty,
      wbWait := s.stk.wbWait.filter (· != b),
      programs := s.stk.programs.map fun p =>
        (p.1, if p.2.unit.logical = b && p.2.unit.kind = 0 then { p.2 with dropped := true } else p.2) } }

/-- The groups of R163 a victim is sought in. -/
def victimGroup (s : State) (b : Nat) (f : Frame) : Nat :=
  (if f.state = 3 then 2 else 0) + b2n (present s b)

/-- The victim of a block's set (R163): clean or dirty, neither pinned nor staged, by group and then by age. -/
def victimOf (s : State) (b : Nat) : Option Nat :=
  let cs := (setMates s b).filter fun p => (p.2.state == 2 || p.2.state == 3) && !p.2.pinned && !p.2.staged
  let better := fun (x y : Nat × Frame) =>
    let gx := victimGroup s x.1 x.2
    let gy := victimGroup s y.1 y.2
    if gy < gx || (gy == gx && decide (touchAge s x.2.touch < touchAge s y.2.touch)) then y else x
  match cs with
  | [] => none
  | c :: cs => some (cs.foldl better c).1

/-- Take a frame for a block; its fill is on its way (R159). -/
def takeFrame (b part cls : Nat) (s : State) : State :=
  setFrame b { slot := freeSlot s b, state := 1, part := part, touch := touchTime s, unitGen := (mapEntry s b).gen,
               cls := cls } s

/-! ### Write-backs -/

/-- How line i of a frame reads for a write-back (R203): 0 good, 1 poisoned, 2 uncorrectable, 3 integrity failure. -/
def frameRead (s : State) (b : Nat) (f : Frame) (i : Nat) : Nat :=
  let l := frameLine s b f + i
  if lineDecodes (tfind (stackOf s (blockStack s b)).marks (linePc s l)) ((tfind s.mem.damage l).getD []) then
    (resolveLine s l f.part (b * 1024 + i)).status
  else 2

/-- The frame of a block is read for a write-back (R203, R211, R600 path 8): rows and reads are counted, corrections with them (R202), and
every line that does not decode or fails its integrity check is counted and reported. -/
def readFrame (b : Nat) (f : Frame) (s : State) : State :=
  let lo := frameLine s b f
  let k := blockStack s b
  let bad := ((List.range 1024).map fun i => (i, frameRead s b f i)).filter fun x => decide (2 ≤ x.2)
  let s := openLines k lo 0 (fun _ => true) s
  let s := each (s.mem.damage.filter fun p => decide (lo ≤ p.1) && decide (p.1 < lo + 1024)) (fun p s =>
    let r := frameRead s b f (p.1 - lo)
    if r = 2 then s else countCorrections p.1 p.2 (r == 0 && (lineMeta s p.1).valid) s) s
  each bad (fun x s => reportLine ⟨[], x.2⟩ (lo + x.1) (b * 1024 + x.1) f.part 8 0 (hbmCount k (if x.2 = 2 then 8 else 9) 1 s)) s

/-- The unit a write-back sends: every line of the block under the current epoch, poison flags with it (R161, R458). A line that cannot be
read goes poisoned, as zeros (R600 path 8). -/
def unitOf (s : State) (b : Nat) (f : Frame) : FlashUnit :=
  let lo := frameLine s b f
  let x := partOf s f.part
  let poison := (List.range 1024).filter fun i => frameRead s b f i != 0
  { logical := b, gen := f.unitGen, epoch := x.current, part := f.part, kind := 0, seed := x.seedCur, poison := poison,
    data := ((s.mem.data.filter fun p => decide (lo * 64 ≤ p.1) && decide (p.1 < (lo + 1024) * 64)).filter fun p =>
      (lineMeta s (p.1 / 64)).valid && decide (frameRead s b f (p.1 / 64 - lo) < 2)).map fun p => (p.1 - lo * 64, p.2) }

/-- A block cannot be placed (R159, R168, R240): its snapshot returns to DIRTY, the event is raised, and commits that wait
on it end NOT_DURABLE. -/
def cannotPlace (b : Nat) (s : State) : State :=
  match frameOf s b with
  | none => s
  | some f =>
    let s := setFrame b { f with state := 3, dirty := f.dirty ++ f.snapshot.filter (fun i => !decide (i ∈ f.dirty)),
                                 snapshot := [], victim := false } s
    let s := { s with car := { s.car with commits := s.car.commits.map fun p =>
      (p.1, if b ∈ p.2.blocks then
          { p.2 with
            blocks := p.2.blocks.filter (· != b)
            again := p.2.again.filter (· != b)
            status := stNotDurable }
        else p.2) } }
    raise 0x1002 2 (some f.part) (packLE [(8, b * 65536)]) s

/-- The write-back of a dirty block starts in a place: DIRTY is copied to the snapshot and cleared, and the whole block goes to
the Storekeeper, in the flash write-back class (R158, R159, R224). -/
def launchWriteBack (b : Nat) (place : Nat × Nat) (s : State) : State :=
  match frameOf s b with
  | none => s
  | some f =>
    let u := unitOf s b f
    let s := readFrame b f s
    let s := setFrame b { f with state := 4, snapshot := f.dirty, dirty := [] } s
    closeIfFull place.2 (placeUnit place.1 place.2 u 0 (emit (.writeBack b 6) (carCount 5 1 s)))

/-- Start a write-back (R159): with the reserve reached it cannot be placed; without a place, above the limit or while its stack does not serve
it waits (R165, R192, R224, R240). -/
def startWriteBack (b : Nat) (s : State) : State :=
  match frameOf s b with
  | none => s
  | some f =>
    if f.state != 3 then s
    else if s.stk.freeReserve then cannotPlace b s
    else if writeBackLimit s ≤ writeBacks s || !blockServes s b then
      setStk (fun k => { k with wbWait := if b ∈ k.wbWait then k.wbWait else k.wbWait ++ [b] }) s
    else match openPlace s 0 with
      | some place => launchWriteBack b place s
      | none =>
        let s := setStk (fun k => { k with wbWait := if b ∈ k.wbWait then k.wbWait else k.wbWait ++ [b] }) s
        match (allLuns s).find? fun l => (bestFree s l).isSome || openingOn s (l * 2) with
        | some l => openGroup l 0 s
        | none => s

/-- Write-backs that wait are started while they can be (R165). -/
def pumpWriteBacks : Nat → State → State
  | 0, s => s
  | fuel + 1, s =>
    match (if s.stk.freeReserve then s.stk.wbWait.head? else s.stk.wbWait.find? (blockServes s)) with
    | none => s
    | some b =>
      let rest := s.stk.wbWait.erase b
      if s.stk.freeReserve then pumpWriteBacks fuel (cannotPlace b (setStk (fun k => { k with wbWait := rest }) s))
      else if writeBackLimit s ≤ writeBacks s then s
      else match openPlace s 0 with
        | some place => pumpWriteBacks fuel (launchWriteBack b place (setStk (fun k => { k with wbWait := rest }) s))
        | none => s

/-- Commits that wait on a block whose write-back or fill has ended: done with it, or it is written back once more (R167). -/
def commitsAfter (b : Nat) (s : State) : State :=
  let again := s.car.commits.any fun p => decide (b ∈ p.2.again)
  let dirty := match frameOf s b with | some f => f.state == 3 | none => false
  let s := { s with car := { s.car with commits := s.car.commits.map fun p =>
    (p.1, if b ∈ p.2.again then
        { p.2 with
          again := p.2.again.filter (· != b),
          blocks := if dirty then p.2.blocks else p.2.blocks.filter (· != b) }
      else { p.2 with blocks := p.2.blocks.filter (· != b) }) } }
  if again && dirty then startWriteBack b s else s

/-- A write-back's program and map update are done (R159): the snapshot is released; a victim left clean is freed. -/
def writeBackEnds (b : Nat) (s : State) : State :=
  match frameOf s b with
  | none => s
  | some f =>
    if f.state != 4 then s
    else
      let f := { f with snapshot := [], state := if f.dirty.isEmpty then 2 else 3 }
      let s := setFrame b { f with victim := false } s
      let s := if f.victim && f.dirty.isEmpty && !present s b then freeFrame b s else s
      commitsAfter b s

/-! ### Fills -/

/-- The 1,024 lines a fill writes, where DIRTY is clear: data, poison and metadata under the current epoch (R159, R205). -/
def fillLines (b : Nat) (f : Frame) (data : Tbl Byte) (poison : Option (List Nat)) (s : State) : State :=
  let lo := frameLine s b f
  let x := partOf s f.part
  let clean := fun (i : Nat) => !decide (i ∈ f.dirty)
  match poison with
  | none => s
  | some bad =>
    let new : Tbl LineMeta := (List.range 1024).map fun i => (lo + i,
      if clean i then { valid := true, poison := decide (i ∈ bad), epoch := x.current, part := f.part, seed := x.seedCur,
                        line := b * 1024 + i }
      else lineMeta s (lo + i))
    let data := data.filter fun p => clean (p.1 / 64)
    { s with mem := { s.mem with
        info := (s.mem.info.filter fun p => decide (p.1 < lo)) ++ new.filter (fun p => p.2 != {}) ++
          (s.mem.info.filter fun p => decide (lo + 1024 ≤ p.1)),
        data := data.foldl (fun t p => tset 0 t (lo * 64 + p.1) p.2) s.mem.data } }

/-- A line or unit failed under a re-key pass (R464). -/
def rekeyFailed (p : Nat) (s : State) : State :=
  { s with lck := { s.lck with
    parts := tput s.lck.parts p { partOf s p with rekeyFails := (partOf s p).rekeyFails + 1 }
    stats := bump s.lck.stats 5 1 } }

/-- A fill ends (R159, R464): the lines it brings are written and the frame is clean, or dirty where a write came first.
`poison` is none for a unit whose map entry is not valid. The lines wait while the block's stack does not serve (R192, R196). -/
def fillEnds (b : Nat) (data : Tbl Byte) (poison : Option (List Nat)) (err : Bool) (s : State) : State :=
  match frameOf s b with
  | none => s
  | some f =>
    if f.state != 1 then s
    else if poison.isSome && !blockServes s b then
      setStk (fun k => { k with landed := tput k.landed b { data := data, poison := poison.getD [], err := err } }) s
    else
      let s := if poison.isSome then openLines (blockStack s b) (frameLine s b f) 1 (fun i => !decide (i ∈ f.dirty)) s else s
      let s := fillLines b f data poison s
      let s := setFrame b { f with state := if f.dirty.isEmpty then 2 else 3, fillErr := err } s
      let owed := s.ldg.owed.filter fun p => p.1 / 1024 == b
      let s := each owed (fun p s => poisonDpa p.1 p.2 { s with ldg := { s.ldg with owed := tdel s.ldg.owed p.1 } }) s
      let s := if err && f.cls == 7 then rekeyFailed f.part s else s
      let s := if err then carCount 6 1 (raise 0x1001 2 (some f.part) (packLE [(8, b * 65536)]) s) else s
      commitsAfter b s

/-- Fills that waited for their stacks end (R192, R196). -/
def pumpLanded (s : State) : State :=
  each s.stk.landed (fun p s =>
    if blockServes s p.1 then
      fillEnds p.1 p.2.data (some p.2.poison) p.2.err (setStk (fun k => { k with landed := tdel k.landed p.1 }) s)
    else s) s

/-- A fill meets an uncorrectable error (R159): FILL_ERR, and every line not written meanwhile is poisoned. -/
def fillFails (b : Nat) (s : State) : State := fillEnds b [] (some (List.range 1024)) true s

/-- Request a fill (R158): a unit that is not valid needs no flash, a lost one fails at once, and any other is read. Class 2 is
a demand fill, 3 a stage or history fill, 7 a fill of the key sweep. -/
def requestFill (b part cls : Nat) (s : State) : State :=
  let m := mapEntry s b
  if !m.valid then fillEnds b [] none false s
  else if m.phys = lostUnit then fillFails b s
  else
    readUnit b m.phys (emit (.fill b cls) (setStk (fun k => { k with
      fills := tput k.fills b { cls := cls, part := part } }) s))

/-- Take a frame and request its fill. -/
def startFill (b part cls : Nat) (s : State) : State := requestFill b part cls (takeFrame b part cls s)

/-- Blocks that a write-back cannot be refused for: dirty frames, oldest TOUCH first (R165). -/
def dirtyBlocks (s : State) : List Nat :=
  (sortBy (fun a b => decide (touchAge s b.2.touch ≤ touchAge s a.2.touch))
    (s.car.frames.filter fun p => p.2.state == 3 && !p.2.pinned)).map (·.1)

/-! ### Stage requests at a home (R174, R175) -/

def stagedFrames (s : State) : Nat := (s.car.frames.filter fun p => p.2.staged).length

/-- Mark a block staged (R174). -/
def markStaged (r : StageReq) (s : State) : State :=
  match frameOf s r.block with
  | some f => setFrame r.block { f with staged := true, stageLine := r.line, stageTime := s.now / 1000000 % 2 ^ 32 } s
  | none => s

end Sys2Proof.Machine
end

