-- ==== Sys2Proof/Machine/Ledger.lean ====
section
/-! DEFINITION. The Ledger's shared operations (04): home ranges, the stored lines of a presented line (R68, R69, R73), tracked
lines and their holders (R120 to R123), and recalls (R130 to R136). -/
namespace Sys2Proof.Machine

/-! ### Home ranges (R44, R54) -/

/-- The home entry that covers a DPA, with its number. -/
def homeAt (s : State) (dpa : Nat) : Option (Nat × BookEntry) :=
  s.pga.book.find? fun p => p.2.kind == 1 && decide (p.2.base ≤ dpa) && decide (dpa < p.2.base + p.2.length)

/-- ROLE of the range a DPA lies in (R413). -/
def twinRoleAt (s : State) (dpa : Nat) : Nat := match homeAt s dpa with | some (n, _) => twinRole s n | none => 0

/-- The PGA of a DPA of this node (R42). -/
def pgaOf (s : State) (dpa : Nat) : Nat := hereAt s * 2 ^ 50 + dpa

/-- DPA and home coordinates of a PGA (R42). -/
def pgaDpa (pga : Nat) : Nat := pga % 2 ^ 50
def pgaCoord (pga : Nat) : Nat := bits pga 50 12

/-- A home writes its error record of a write that is dropped (R44). -/
def homeError (r : MReq) (status : Nat) (s : State) : State :=
  let src := match r.who with | .node c _ | .nodeEngine c _ => c | _ => hereAt s
  if r.kind = .write || r.kind = .engineWrite then
    { s with pga := { s.pga with
      errors := { dpa := r.dpa, src := src, part := r.part, status := status, time := s.now } :: s.pga.errors } }
  else s

/-! ### Presented and stored lines (R68, R69, R73) -/

/-- Where the scale area of an MX range starts, as an offset in the range (R69). -/
def scaleStart (view : Nat) (length : Nat) : Nat := length * viewBytes view / (viewBytes view + 1)

/-- The DPA of the scale byte of the presented line stored at a DPA. -/
def scaleAt (h : BookEntry) (view dpa : Nat) : Nat :=
  h.base + scaleStart view h.length + (dpa - h.base) / viewBytes view

/-- The stored lines from a DPA over a number of bytes, ascending. -/
def linesOver (dpa n : Nat) : List Nat :=
  if n = 0 then [] else (List.range ((dpa + n - 1) / 64 - dpa / 64 + 1)).map fun i => dpa / 64 + i

/-- The stored lines that `n` presented lines from a DPA touch, ascending, scale lines included (R73, R129). -/
def storedLines (h : BookEntry) (view dpa n : Nat) : List Nat :=
  let l := linesOver dpa (n * viewBytes view)
  if viewMx view then ascending (l ++ linesOver (scaleAt h view dpa) n) else l

/-- Where the lines of a request start: an operation on an element names the element's own address where the binding has no view
(R291). -/
def reqStart (r : MReq) : Nat := if r.view = 0 && (r.op == 1 || r.op == 2 || r.op == 3) then r.dpa / 64 * 64 else r.dpa

/-- The stored lines of a request (R73, R129). -/
def reqLines (h : BookEntry) (r : MReq) : List Nat :=
  if r.more.isEmpty then storedLines h r.view (reqStart r) r.lines
  else ascending (r.stretches.flatMap fun x => storedLines h x.view (reqStart x) x.lines)

/-- The presented lines, as DPAs of their first stored byte, that touch a stored line under a view (R73). -/
def shownLines (h : BookEntry) (view line : Nat) : List Nat :=
  if view = 0 then [line * 64]
  else
    let e := viewBytes view
    let off := line * 64 - h.base
    let elems := if viewMx view then scaleStart view h.length else h.length
    let byElem := if off < elems then
        (List.range (64 / e + 2)).filterMap fun i =>
          let j := off / e + i
          if j * e < off + 64 && off < (j + 1) * e && j * e < elems then some (h.base + j * e) else none
      else []
    let byScale := if viewMx view then
        (List.range 64).filterMap fun i =>
          let o := off + i
          if elems ≤ o && o < h.length then some (h.base + (o - elems) * e) else none
      else []
    byElem ++ byScale

/-! ### Tracked lines (R118, R120 to R123) -/

def entryOf (s : State) (line : Nat) : Option LEntry := tfind s.ldg.entries line

/-- Overflow blocks a line's holders take (R122): two records in the entry, seven and a link in each block but the last, eight
in the last. -/
def overflowBlocks (n : Nat) : Nat := if n ≤ 2 then 0 else if n ≤ 10 then 1 else (n - 2 + 5) / 7

/-- Ledger sets and overflow blocks of a slice (R122). -/
def ledgerSets (s : State) : Nat := 8388608 / nStacks s
def overflowShare (s : State) : Nat := 1048576 / nStacks s

/-- The slice of a line (R115). -/
def sliceOf (s : State) (line : Nat) : Nat := line / 1024 % nStacks s

/-- The overflow blocks of a slice that chains take. -/
def blocksTaken (s : State) (k : Nat) : List Nat := s.ldg.entries.flatMap fun p => if sliceOf s p.1 = k then p.2.chain else []

/-- Lengthen a chain by `n` free blocks of a slice's share. Which free block is taken is not specified: the search starts at a free value
(log 5, DESIGN CHOICE). -/
def growChain (k : Nat) : Nat → List Nat → State → List Nat × State
  | 0, c, s => (c, s)
  | n + 1, c, s =>
    let used := blocksTaken s k ++ c
    let start := draw s
    let b := (((List.range (used.length + 1)).map fun i => (start + i) % overflowShare s).find? fun b => !decide (b ∈ used)).getD 0
    growChain k n (c ++ [b]) (drawn s)

/-- Set a line's entry; its chain has the blocks that its holders take (R122). An entry without holders is free. -/
def setEntry (line : Nat) (e : LEntry) (s : State) : State :=
  if e.holders.isEmpty then { s with ldg := { s.ldg with entries := tdel s.ldg.entries line } }
  else
    let n := overflowBlocks e.holders.length
    let a := growChain (sliceOf s line) (n - e.chain.length) (e.chain.take n) s
    { a.2 with ldg := { a.2.ldg with entries := tput a.2.ldg.entries line { e with chain := a.1 } } }

/-- A host's holder record (R121). -/
def holderRecord (coord port ld biId : Nat) : Nat := packBits [(12, coord), (5, port), (4, ld), (12, biId), (1, 1)]

/-- What identifies the host of a record: ingress node, port and logical device (R41). -/
def holderKey (h : Nat) : Nat := h % 2 ^ 21
def holderCoord (h : Nat) : Nat := bits h 0 12
def holderPort (h : Nat) : Nat := bits h 12 5
def holderLd (h : Nat) : Nat := bits h 17 4

/-- Whether a host is recorded on a line. -/
def holds (e : LEntry) (h : Nat) : Bool := e.holders.any fun p => holderKey p.1 == holderKey h

/-- Whether a host is the recorded owner of a line. -/
def ownsLine (s : State) (line h : Nat) : Bool :=
  match entryOf s line with
  | some e => e.owned && holds e h
  | none => false

/-- A request has come for some lines: TOUCH of their entries is the present time (R120). -/
def touchEntries (lines : List Nat) (s : State) : State :=
  { s with ldg := { s.ldg with entries := s.ldg.entries.map fun p =>
    if p.1 ∈ lines then (p.1, { p.2 with touch := touchTime s }) else p } }

/-- Whether a recall of a line is outstanding: while one is, a request for the line waits in its conflict queue (R131). -/
def heldLine (s : State) (line : Nat) : Bool := s.ldg.recalls.any fun p => p.2.line == line

/-- Record a host on a line as a holder or as its owner (R119). -/
def recordHolder (line h view : Nat) (owned : Bool) (s : State) : State :=
  let e := (entryOf s line).getD {}
  let hs := if owned then [(h, view)] else if holds e h then e.holders else e.holders ++ [(h, view)]
  setEntry line { e with owned := owned, holders := hs, touch := touchTime s } s

/-- Remove a host from a line. -/
def removeHolder (line h : Nat) (s : State) : State :=
  match entryOf s line with
  | none => s
  | some e =>
    let hs := e.holders.filter fun p => holderKey p.1 != holderKey h
    setEntry line { e with holders := hs, owned := e.owned && hs.length == e.holders.length } s

/-- The state of a line (R120): 0 free, 1 shared, 2 owned. -/
def lineState (s : State) (line : Nat) : Nat :=
  match entryOf s line with
  | none => 0
  | some e => if e.owned then 2 else 1

/-- Overflow blocks in use of a slice. -/
def overflowUsed (s : State) (k : Nat) : Nat := (blocksTaken s k).length

/-- The Ledger set of a line within its slice (R122). -/
def ledgerSetOf (s : State) (line : Nat) : Nat := Config.ledgerSet line % ledgerSets s

/-- The item of a list with the oldest TOUCH; of several, the lowest line (log 118, DESIGN CHOICE). -/
def oldestEntry (s : State) : Tbl LEntry → Option Nat
  | [] => none
  | c :: cs => some (cs.foldl (fun a b => if touchAge s a.2.touch < touchAge s b.2.touch then b else a) c).1

/-- Whether a line is of a range that this node follows: its Ledger neither blocks nor recalls it (R412). -/
def followed (s : State) (line : Nat) : Bool :=
  match homeAt s (line * 64) with
  | some (n, _) => match twinOf s n with | some t => t.role == 2 | none => false
  | none => false

/-- The entries of a list that may be victims (R138): unblocked, not being recalled already, and not followed (R412). -/
def freeToRecall (s : State) (t : Tbl LEntry) : Tbl LEntry :=
  t.filter fun p => (tfind s.ldg.blocked p.1).isNone && !heldLine s p.1 && !followed s p.1

/-- The victim of a full set (R138), and of an exhausted overflow share (R139). -/
def wayVictim (s : State) (line : Nat) : Option Nat :=
  oldestEntry s (freeToRecall s (s.ldg.entries.filter fun p => sliceOf s p.1 == sliceOf s line && ledgerSetOf s p.1 == ledgerSetOf s line))
def blockVictim (s : State) (line : Nat) : Option Nat :=
  oldestEntry s (freeToRecall s (s.ldg.entries.filter fun p =>
    sliceOf s p.1 == sliceOf s line && decide (2 < p.2.holders.length) && p.1 != line))

def sliceRec (s : State) (k : Nat) : Slice := (tfind s.ldg.slices k).getD {}
def setSlice (k : Nat) (x : Slice) (s : State) : State := { s with ldg := { s.ldg with slices := tput s.ldg.slices k x } }

/-! ### Recalls (R130 to R133) -/

def freshId (s : State) : Nat × State := (s.ldg.nextId, { s with ldg := { s.ldg with nextId := s.ldg.nextId + 1 } })

/-- BISnp messages outstanding on a port (R90). -/
def snoopsOut (s : State) (port : Nat) : Nat :=
  (s.ldg.recalls.filter fun p => !p.2.remote && p.2.due.isSome && holderPort p.2.holder == port).length +
  (s.ldg.proxies.filter fun p => p.2.due.isSome && p.2.port == port).length

/-- Send one BISnp on a port (R92), for one line or a block of them (R86). -/
def sendSnoop (port ld kind pga tag lines : Nat) (s : State) : State :=
  emit (.bisnp port ld ((ldOf s (ldKey port ld)).bi.getD 0) kind pga tag lines) s

/-- The waiting recalls that complete with a recall a block of `n` lines, for one holder and of one kind. -/
def blockMates (s : State) (rid : Nat) (r : Recall) (n : Nat) : List Nat :=
  let ids := (s.ldg.recalls.filter fun p => p.2.due.isNone && p.2.rides.isNone && !p.2.remote && p.2.view == 0 && p.2.owner == r.owner &&
    p.2.holder == r.holder && p.2.kind == r.kind && p.2.line / n == r.line / n).map (·.1)
  if r.view = 0 && ids.length == n then ids.filter (· != rid) else []

/-- AUX of a RECALL packet (R132, R405): BISnp kind, port, logical device, ledger timeout in ms, and for a twinned line the
partner in bits 63:52 (log 36, DESIGN CHOICE). -/
def recallAux (s : State) (r : Recall) (twin : Bool) : Nat :=
  packBits [(2, r.kind), (5, holderPort r.holder), (4, holderLd r.holder), (32, rLdgTimeout s), (9, 0),
    (12, if twin then rMarPairPartner s else 0)]

/-- Send a recall: a BISnp on this node's port, or a block form for aligned lines (R86; when it is used the spec leaves open: log 127, DESIGN
CHOICE), when the port has a place (R90), or a RECALL message to the ingress node, with
the backstop timer of R133. -/
def launchRecall (rid : Nat) (s : State) : State :=
  match tfind s.ldg.recalls rid with
  | none => s
  | some r =>
    if r.rides.isSome then s
    else
    let bump1 := fun (s : State) =>
      let k := sliceOf s r.line
      setSlice k { sliceRec s k with recallsSent := (sliceRec s k).recallsSent + 1 } s
    if r.remote then
      let twin := match homeAt s (r.line * 64) with | some (n, _) => (twinOf s n).isSome | none => false
      let r' := { r with due := some (s.now + msec (rLdgTimeout s + rLdgProxyAllowance s)) }
      let s := { s with ldg := { s.ldg with recalls := tput s.ldg.recalls rid r' } }
      bump1 (request { opcode := 0x0A, dest := holderCoord r.holder, pga := pgaOf s r.shown, view := r.view, twin := twin,
                       host := r.holder,
                       partition := (match homeAt s (r.line * 64) with | some (_, h) => h.part | none => 0),
                       aux := recallAux s r twin } (.recallOp rid) 1 1 true s)
    else if 1024 ≤ snoopsOut s (holderPort r.holder) then s
    else
      let due := some (s.now + msec (rLdgTimeout s))
      let mates := match blockMates s rid r 4 with | [] => blockMates s rid r 2 | l => l
      if mates.isEmpty || !Config.blockSnoop s.fresh then
        let s := { s with ldg := { s.ldg with recalls := tput s.ldg.recalls rid { r with due := due } } }
        bump1 (sendSnoop (holderPort r.holder) (holderLd r.holder) r.kind (pgaOf s r.shown) rid 1 (if mates.isEmpty then s else drawn s))
      else
        let n := mates.length + 1
        let recalls := s.ldg.recalls.map fun p => if p.1 ∈ mates then (p.1, { p.2 with rides := some rid }) else p
        let s := { s with ldg := { s.ldg with recalls := tput recalls rid { r with due := due, blk := n } } }
        bump1 (sendSnoop (holderPort r.holder) (holderLd r.holder) r.kind (pgaOf s (r.line / n * n * 64)) rid n (drawn s))

/-- The outstanding recall whose BISnp a new recall of the same presented line shares: a presented line that touches several recalled
stored lines is recalled by one BISnp (R73; log 111, DEDUCED). -/
def sameSnoop (s : State) (r : Recall) : Option Nat :=
  (s.ldg.recalls.find? fun p => p.2.rides.isNone && p.2.owner == r.owner && p.2.holder == r.holder && p.2.shown == r.shown &&
    p.2.kind == r.kind && p.2.line != r.line).map (·.1)

/-- The recalls that one BISnp serves, the recall it was sent for first (R73). -/
def withRiders (s : State) (rid : Nat) : List Nat :=
  rid :: (s.ldg.recalls.filter fun p => p.2.rides == some rid).map (·.1)

/-- Recalls that wait are sent while their ports have places (R90). -/
def pumpSnoops (s : State) : State :=
  let waiting := (s.ldg.recalls.filter fun p => p.2.due.isNone && p.2.rides.isNone).map (·.1)
  let s := each waiting launchRecall s
  each (s.ldg.proxies.filter fun p => p.2.due.isNone) (fun p s =>
    if 1024 ≤ snoopsOut s p.2.port then s
    else
      let x := { p.2 with due := some (s.now + p.2.span) }
      sendSnoop p.2.port p.2.ld p.2.kind p.2.pga p.1 1 { s with ldg := { s.ldg with proxies := tput s.ldg.proxies p.1 x } }) s

/-- Open the recalls of one holder of a stored line: one BISnp for each presented line that touches it (R73, R130). Answers with the new
recalls, which are still to be sent. -/
def recallHolder (owner : ROwner) (line kind : Nat) (stop : Bool) (h : Nat × Nat) (s : State) : List Nat × State :=
  let shown := match homeAt s (line * 64) with
    | some (_, e) => shownLines e h.2 line
    | none => [line * 64]
  shown.foldl (fun (acc : List Nat × State) a =>
    let n := freshId acc.2
    let r : Recall := { owner := owner, line := line, shown := a, holder := h.1, view := h.2, kind := kind, stop := stop,
                        remote := holderCoord h.1 != hereAt s || twinRoleAt s (line * 64) != 0 }
    let r := { r with rides := sameSnoop acc.2 r }
    (acc.1 ++ [n.1], { n.2 with ldg := { n.2.ldg with recalls := tput n.2.ldg.recalls n.1 r } })) ([], s)

/-- Recall some holders of lines, each with the same BISnp (R130). Answers with the recalls, in line order. -/
def recallThose (owner : ROwner) (kind : Nat) (stop : Bool) (who : List (Nat × List (Nat × Nat))) (s : State) : List Nat × State :=
  let a := who.foldl (fun (acc : List Nat × State) w =>
    w.2.foldl (fun (acc : List Nat × State) h =>
      let r := recallHolder owner w.1 kind stop h acc.2
      (acc.1 ++ r.1, r.2)) acc) ([], s)
  (a.1, if a.1.isEmpty then a.2 else pumpSnoops a.2)

/-- Recall holders of a line. -/
def recallHolders (owner : ROwner) (line kind : Nat) (stop : Bool) (hs : List (Nat × Nat)) (s : State) : List Nat × State :=
  recallThose owner kind stop [(line, hs)] s

/-- Recall every holder of every one of some lines. -/
def recallLines (owner : ROwner) (kind : Nat) (stop : Bool) (lines : List Nat) (s : State) : List Nat × State :=
  recallThose owner kind stop (lines.filterMap fun l => (entryOf s l).map fun e => (l, e.holders)) s

/-- A host's answer no stronger than its BISnp allows (R119): 0 I, 1 S, 2 E; kinds 0 Cur, 1 Data, 2 Inv. -/
def clipAnswer (kind ans : Nat) : Nat := if kind = 2 then 0 else if kind = 1 then min ans 1 else min ans 2

/-- Record what a holder answered for a line: removed, shared, or left as owner (R119). -/
def applyAnswer (line h view ans : Nat) (s : State) : State :=
  match entryOf s line with
  | none => s
  | some e =>
    if ans = 0 then removeHolder line h s
    else if ans = 1 then
      setEntry line { e with owned := e.owned && !holds e h } (if holds e h then s else recordHolder line h view false s)
    else s

/-- A recall has ended with an answer (R130): when it is the last for its holder and stored line, the strongest answer is
recorded. Answers the recall, if it was outstanding. -/
def endRecall (rid ans : Nat) (s : State) : State :=
  match tfind s.ldg.recalls rid with
  | none => s
  | some r =>
    let a := max r.best (clipAnswer r.kind ans)
    let rest := tdel s.ldg.recalls rid
    let mates := rest.filter fun p => p.2.line == r.line && p.2.holder == r.holder && p.2.owner == r.owner
    let s := { s with ldg := { s.ldg with recalls := rest } }
    if mates.isEmpty then pumpSnoops (applyAnswer r.line r.holder r.view a s)
    else
      let mine := fun (p : Nat × Recall) => p.2.line == r.line && p.2.holder == r.holder && p.2.owner == r.owner
      let rs := s.ldg.recalls.map fun p => if mine p then (p.1, { p.2 with best := max p.2.best a }) else p
      pumpSnoops { s with ldg := { s.ldg with recalls := rs } }

/-- A recall has ended by timeout (R135): the line is poisoned, its holder removed and POISON_TIMEOUT raised. Write-back data has
been applied before. -/
def timeoutRecall (rid : Nat) (s : State) : State :=
  match tfind s.ldg.recalls rid with
  | none => s
  | some r =>
    let part := match homeAt s (r.line * 64) with | some (_, h) => h.part | none => 0
    let s := { s with ldg := { s.ldg with recalls := tdel s.ldg.recalls rid } }
    let s := if r.stop then s else poisonCounted r.line part s
    let s := removeHolder r.line r.holder s
    pumpSnoops (raise 0x0C01 1 (some part) (packLE [(8, pgaOf s (r.line * 64)), (8, r.holder), (8, tget 0 s.ldg.writeBacks r.line)]) s)

/-! ### Reading and writing presented lines (R70 to R72) -/

/-- Several line reads as one: data joined; the worst status (2 uncorrectable and 3 integrity above 1 poison). -/
def readSpan (dpa n part path requester : Nat) (s : State) : LineRead × State :=
  let r := (linesOver dpa n).foldl (fun (acc : LineRead × State) l =>
    let x := readDpa l part acc.2
    let s := reportDpa x.1 l part path requester x.2
    (⟨acc.1.data ++ (if x.1.status < 2 then x.1.data else zeros 64), max acc.1.status x.1.status⟩, s)) (⟨[], 0⟩, s)
  (⟨(r.1.data.drop (dpa % 64)).take n, r.1.status⟩, r.2)

/-- Write bytes at a DPA as partial writes of the lines they lie in. -/
def writeSpan (dpa part requester : Nat) (data : Bytes) (poison : Bool) (s : State) : State :=
  each (linesOver dpa data.length) (fun l s =>
    let lo := max dpa (l * 64)
    let hi := min (dpa + data.length) (l * 64 + 64)
    let piece := zeros (lo - l * 64) ++ (data.drop (lo - dpa)).take (hi - lo)
    mergeDpa l part piece ((2 ^ (hi - lo) - 1) * 2 ^ (lo - l * 64)) poison requester s) s

/-- Read one presented line at a DPA (R70, R71). -/
def readShown (h : BookEntry) (view dpa part path requester : Nat) (s : State) : LineRead × State :=
  if view = 0 then readSpan dpa 64 part path requester s
  else
    let e := readSpan dpa (viewBytes view) part path requester s
    if viewMx view then
      let c := readSpan (scaleAt h view dpa) 1 part path requester e.2
      (⟨presentLine view e.1.data (fromLE c.1.data), max e.1.status c.1.status⟩, c.2)
    else (⟨presentLine view e.1.data 0, e.1.status⟩, e.2)

/-- The stored bytes that a partial store through views 1 to 4 writes (R72): those of every presented element with a byte enabled. -/
def storedEnables (view be : Nat) : Nat :=
  let w := elemBits (viewStored view) / 8
  let k := elemBits (viewShown view) / 8
  (List.range (64 / k)).foldl (fun n i => if elemEnabled be k i then n + (2 ^ w - 1) * 2 ^ (i * w) else n) 0

/-- Write the enabled bytes of a stretch of stored bytes, as a partial write of each line that has one (R72, R137). -/
def writeParts (dpa part requester : Nat) (data : Bytes) (be : Nat) (poison : Bool) (s : State) : State :=
  each (linesOver dpa data.length) (fun l s =>
    let lo := max dpa (l * 64)
    let hi := min (dpa + data.length) (l * 64 + 64)
    let piece := zeros (lo - l * 64) ++ (data.drop (lo - dpa)).take (hi - lo)
    let e := bits be (lo - dpa) (hi - lo) * 2 ^ (lo - l * 64)
    if e = 0 then s else mergePart l part piece e poison requester s) s

/-- Write one presented line at a DPA with byte enables (R71, R72). -/
def writeShown (h : BookEntry) (view dpa part requester : Nat) (data : Bytes) (be : Nat) (poison : Bool) (s : State) : State :=
  if view = 0 then
    if dpa % 64 = 0 then mergeDpa (dpa / 64) part data be poison requester s
    else writeSpan dpa part requester data poison s
  else if be = fullBE then
    let x := storeLine view data
    let s := writeSpan dpa part requester x.1 poison s
    if viewMx view then writeSpan (scaleAt h view dpa) part requester [BitVec.ofNat 8 x.2] poison s else s
  else if viewMx view then
    let e := readSpan dpa (viewBytes view) part 2 requester s
    let c := readSpan (scaleAt h view dpa) 1 part 2 requester e.2
    let x := mergeView view e.1.data (fromLE c.1.data) data be
    let s := writeSpan dpa part requester x.1 (poison || e.1.status != 0) c.2
    writeSpan (scaleAt h view dpa) part requester [BitVec.ofNat 8 x.2] (poison || c.1.status != 0) s
  else
    let old := ((linesOver dpa (viewBytes view)).flatMap fun l => heldBytes l part s).drop (dpa % 64)
    let x := mergeView view (old.take (viewBytes view)) 0 data be
    writeParts dpa part requester x.1 (storedEnables view be) poison s

/-- Read `n` presented lines. -/
def readShownLines (h : BookEntry) (view part path requester : Nat) : Nat → Nat → State → LineRead × State
  | 0, _, s => (⟨[], 0⟩, s)
  | n + 1, dpa, s =>
    let a := readShown h view dpa part path requester s
    let b := readShownLines h view part path requester n (dpa + viewBytes view) a.2
    (⟨a.1.data ++ b.1.data, max a.1.status b.1.status⟩, b.2)

/-- Write `n` presented lines from data; `be` has 64 byte enables for each line, the first line's lowest. -/
def writeShownLines (h : BookEntry) (view part requester : Nat) (poison : Bool) (be : Nat) : Nat → Nat → Bytes → State → State
  | 0, _, _, s => s
  | n + 1, dpa, data, s =>
    let s := if be % 2 ^ 64 = 0 then s else writeShown h view dpa part requester (data.take 64) (be % 2 ^ 64) poison s
    writeShownLines h view part requester poison (be / 2 ^ 64) n (dpa + viewBytes view) (data.drop 64) s

end Sys2Proof.Machine
end

