-- ==== Sys2Proof/Machine/Window.lean ====
section
/-! DEFINITION. Accumulating windows at their home (10): the layout of R312, the formats of R314, the arithmetic of R317 to R319,
the duplicate filter of R324 and the window's states (R330). -/
namespace Sys2Proof.Machine

def winOf (s : State) (entry : Nat) : Win := (tfind s.win.recs entry).getD {}
def setWin (entry : Nat) (w : Win) (s : State) : State := { s with win := { s.win with recs := tput s.win.recs entry w } }

/-- Add to one of WIN_STATS: 0 deposit lines applied, 1 arrivals, 2 duplicates, 3 stale, 4 rejected, 5 releases, 6 re-arms,
7 notify failures (R335). -/
def winCount (i n : Nat) (s : State) : State := { s with win := { s.win with stats := bump s.win.stats i n } }

/-! ### Layout and formats (R312, R314) -/

/-- Whether a format pair is a float pair, an integer pair, or neither (R314). -/
def windowFormats (inFmt outFmt : Nat) : Bool :=
  (decide (1 ≤ inFmt) && decide (inFmt ≤ 10) && decide (1 ≤ outFmt) && decide (outFmt ≤ 5)) ||
  (decide (11 ≤ inFmt) && decide (inFmt ≤ 13) && (outFmt == 12 || outFmt == 13))

/-- Whether a window adds floats. -/
def windowFloat (w : Win) : Bool := decide (w.inFmt ≤ 10)

/-- Elements per deposit line (R314). -/
def perDeposit (inFmt : Nat) : Nat :=
  if inFmt = 6 || inFmt = 7 then 32 else if inFmt = 8 || inFmt = 9 || inFmt = 10 then 64 else 512 / elemBits inFmt

/-- Elements per read-out line (R314). -/
def perReadout (outFmt : Nat) : Nat := 512 / elemBits outFmt

/-- Offsets of the read-out, accumulator and control areas, and the end of the control block (R312). -/
def windowAreas (inFmt outFmt elements : Nat) : Nat × Nat × Nat × Nat :=
  let a := roundUp ((elements + perDeposit inFmt - 1) / perDeposit inFmt * 64) 65536
  let b := a + roundUp (elements * elemBits outFmt / 8) 65536
  let c := b + roundUp (elements * 8) 65536
  (a, b, c, c + 65536)

/-- The length of a window range (R312). -/
def windowLength (inFmt outFmt elements : Nat) : Nat := roundUp (windowAreas inFmt outFmt elements).2.2.2 (64 * 2 ^ 20)

/-- The exact values of a deposit line's elements as FP32 codes (R314, R317). -/
def depositFloats (inFmt : Nat) (b : Bytes) : List Nat :=
  let vals : List Num :=
    if isMx inFmt then
      let w := elemBits inFmt
      let n := 32 * w / 8
      let blocks := perDeposit inFmt / 32
      (List.range blocks).flatMap fun k =>
        mxDecode (mxElement inFmt) (unpack w 32 ((b.drop (k * n)).take n)) (leAt b (blocks * n + k) 1)
    else (unpack (elemBits inFmt) (perDeposit inFmt) b).map (elemValue inFmt)
  vals.map fun v => (elemEncode 1 false false v).code

/-- A deposit line's elements as integers modulo 2^64 (R318). -/
def depositInts (inFmt : Nat) (b : Bytes) : List Nat :=
  (unpack (elemBits inFmt) (perDeposit inFmt) b).map fun c => ((signed (elemBits inFmt) c) % 2 ^ 64).toNat

/-- Whether byte enables take whole elements (R315), and which elements they take. -/
def enabledElems (inFmt be : Nat) : Option (List Bool) :=
  if isMx inFmt then (if be = fullBE then some (List.replicate (perDeposit inFmt) true) else none)
  else
    let k := elemBits inFmt / 8
    let l := (List.range (perDeposit inFmt)).map fun i => bits be (i * k) k
    if l.all fun v => v == 0 || v == 2 ^ k - 1 then some (l.map (· != 0)) else none

/-! ### The window record (R316) -/

def windowRecord (w : Win) : Bytes :=
  toLE 4 (packBits [(3, w.state), (1, b2n w.isOver), (4, 0), (4, w.inFmt), (4, w.outFmt), (16, w.gen)]) ++
  packLE [(4, w.expected), (8, w.elements), (8, w.notify), (8, w.count), (8, w.applied), (8, w.stale), (8, w.dup), (8, w.rejected)]

/-! ### The filter (R324) -/

/-- Shift a filter past its lowest marked numbers. -/
def shiftFilter : Nat → Filter → Filter
  | 0, f => f
  | fuel + 1, f =>
    if 0 ∈ f.seen then shiftFilter fuel { base := (f.base + 1) % 2 ^ 32, seen := (f.seen.filter (· != 0)).map (· - 1) } else f

/-- Class a contribution of a source by its sequence number: whether it is new, with the filter marked (R324). -/
def classify (src seq : Nat) (s : State) : Bool × State :=
  let f := (tfind s.win.filters src).getD {}
  let d := (seq + 2 ^ 32 - f.base) % 2 ^ 32
  if 2 ^ 31 ≤ d || decide (d ∈ f.seen) || 1024 ≤ d then (false, s)
  else
    let f := shiftFilter 1025 { f with seen := d :: f.seen }
    (true, { s with win := { s.win with filters := tput s.win.filters src f } })

/-- At a follower the numbers of the lead's ranges are not consecutive: a number is new when it has not been seen among the last
1,024 of its source (log 62, DEDUCED). -/
def classifyFollower (src seq : Nat) (s : State) : Bool × State :=
  let f := (tfind s.win.filters (src + 65536)).getD {}
  if seq ∈ f.seen then (false, s)
  else (true, { s with win := { s.win with filters := tput s.win.filters (src + 65536) { f with seen := seq :: f.seen.take 1023 } } })

/-! ### Accumulators (R317 to R319, R326) -/

/-- One element's state after a contribution element: 8 B in, 8 B out. -/
def addElem (isFloat : Bool) (old : Bytes) (x : Nat) : Bytes :=
  if isFloat then
    let r := accumulate (leAt old 0 4) (signed 32 (leAt old 4 4)) x
    toLE 4 r.1 ++ toLE 4 (r.2 % 2 ^ 32).toNat
  else toLE 8 ((leAt old 0 8 + x) % 2 ^ 64)

/-- Apply a deposit line's elements to their states (R317, R318). -/
def addElems (isFloat : Bool) : Bytes → List Nat → List Bool → Bytes
  | old, x :: xs, e :: es =>
    (if e then addElem isFloat (old.take 8) x else old.take 8) ++ addElems isFloat (old.drop 8) xs es
  | old, _, _ => old

/-- A read-out element (R319). -/
def readoutElem (w : Win) (st : Bytes) : Nat :=
  if windowFloat w then
    let c := leAt st 0 4
    let v := if (fp32.decode c).isFinite then ofDyadic (stateValue c (signed 32 (leAt st 4 4))) else fp32.decode c
    (elemEncode w.outFmt false false v).code
  else if w.outFmt = 13 then leAt st 0 8
  else
    let v := signed 64 (leAt st 0 8)
    let v := if v < -2147483648 then -2147483648 else if 2147483647 < v then 2147483647 else v
    (v % 2 ^ 32).toNat

/-- The accumulator state a read-out line rests on, as bytes from the elements that exist. -/
def readoutLine (w : Win) (states : Bytes) (n : Nat) : Bytes :=
  let l := (List.range n).map fun i => readoutElem w ((states.drop (8 * i)).take 8)
  let b := repack (elemBits w.outFmt) l
  (b ++ zeros 64).take 64

/-! ### Accesses (R313, R326, R327, R330) -/

/-- A line of a window as R313 lets a read see it: data and status (1 access error, 2 poison). -/
def windowReadLine (entry : Nat) (h : BookEntry) (off : Nat) (s : State) : (Bytes × Nat) × State :=
  let w := winOf s entry
  let a := windowAreas w.inFmt w.outFmt w.elements
  if off < (w.elements + perDeposit w.inFmt - 1) / perDeposit w.inFmt * 64 then (([], 1), s)
  else if off < a.1 then ((zeros 64, 0), s)
  else if off < a.2.1 then
    let k := perReadout w.outFmt
    let first := (off - a.1) / 64 * k
    let n := min k (w.elements - first)
    if w.elements ≤ first then ((zeros 64, 0), s)
    else
      let r := readSpan (h.base + a.2.1 + 8 * first) (8 * n) h.part 6 0 s
      if r.1.status = 0 then ((readoutLine w r.1.data n, 0), r.2) else (([], 2), r.2)
  else if off < a.2.2.1 then
    if off - a.2.1 < w.elements * 8 then
      let r := readSpan (h.base + off) 64 h.part 6 0 s
      ((r.1.data, if r.1.status = 0 then 0 else 2), r.2)
    else ((zeros 64, 0), s)
  else if off = a.2.2.1 then ((windowRecord w, 0), s)
  else ((zeros 64, 0), s)

/-- Read `n` lines of a window; an access error on one is the answer of all. -/
def windowRead (entry : Nat) (h : BookEntry) : Nat → Nat → State → (Bytes × Nat) × State
  | 0, _, s => (([], 0), s)
  | n + 1, off, s =>
    let a := windowReadLine entry h off s
    let b := windowRead entry h n (off + 64) a.2
    let st := if a.1.2 = 1 || b.1.2 = 1 then 1 else max a.1.2 b.1.2
    ((a.1.1 ++ b.1.1, st), b.2)

/-- COUNT reaches EXPECTED (R327): the window completes, and one that is rearming stays so (R330); the follower of a twin only records it
(R409). -/
def completeWindow (entry : Nat) (follower : Bool) (s : State) : State :=
  let w := winOf s entry
  let s := setWin entry { w with state := if w.state = 3 then 3 else 2 } s
  if follower then s
  else
    let s := if w.notify = 0 then s else { s with win := { s.win with notifies := s.win.notifies ++ [entry] } }
    raise 0x1C01 0 (some (bookOf s entry).part) (packLE [(8, pgaOf s (bookOf s entry).base), (2, w.gen)]) s

/-- Apply a new current contribution that is accepted: a deposit (R317, R326) or an arrival (R327). Answers its STATUS. -/
def applyContribution (entry : Nat) (h : BookEntry) (off : Nat) (r : MReq) (follower : Bool) (s : State) : Nat × State :=
  let w := winOf s entry
  let a := windowAreas w.inFmt w.outFmt w.elements
  let refuse := fun (s : State) => (1, winCount 4 1 (setWin entry { w with rejected := w.rejected + 1 } s))
  if off = a.2.2.1 then
    if r.poison || bits r.be 0 8 != 255 then refuse s
    else
      let n := w.count + leAt r.data 0 8
      let s := winCount 1 1 (setWin entry { w with count := n % 2 ^ 64, isOver := w.isOver || w.state == 2 } s)
      (0, if w.state != 2 && w.count < w.expected && decide (w.expected ≤ n) then completeWindow entry follower s else s)
  else
    match enabledElems w.inFmt r.be with
    | none => refuse s
    | some en =>
      if r.poison then refuse s
      else
        let e := perDeposit w.inFmt
        let at_ := h.base + a.2.1 + 8 * (off / 64 * e)
        let used := (List.range (e / 8)).filter fun k => ((en.drop (8 * k)).take 8).any id
        let bad := (used.map (at_ / 64 + ·)).filter fun l => (readDpa l h.part s).1.status != 0
        if !bad.isEmpty then
          let s := each used (fun k s => (readSpan (at_ + 64 * k) 64 h.part 6 r.holder s).2) s
          (2, each bad (fun l s => poisonDpa l h.part s)
            { s with ras := { s.ras with windowPoisoned := s.ras.windowPoisoned + bad.length } })
        else
          let xs := if windowFloat w then depositFloats w.inFmt r.data else depositInts w.inFmt r.data
          let s := each used (fun k s =>
            let old := readSpan (at_ + 64 * k) 64 h.part 6 r.holder s
            writeSpan (at_ + 64 * k) h.part r.holder
              (addElems (windowFloat w) old.1.data ((xs.drop (8 * k)).take 8) ((en.drop (8 * k)).take 8)) false old.2) s
          (0, winCount 0 1 (setWin entry { w with applied := w.applied + 1 } s))

/-- One contribution at its home by the state table of R330. Answers its response, or none while it is held for the next
generation; one that is held is marked in the filter when it is applied (R324), so that a release that comes first leaves it unapplied
(R325). -/
def contribute (entry : Nat) (h : BookEntry) (r : MReq) (follower : Bool) (s : State) : Option MRsp × State :=
  let off := r.dpa - h.base
  let w := winOf s entry
  let a := windowAreas w.inFmt w.outFmt w.elements
  let rsp := fun (st : Nat) (s : State) => (some { status := st, wgen := (winOf s entry).gen }, s)
  let c := if follower then classifyFollower r.src r.seq s else classify r.src r.seq s
  if !c.1 then rsp 0 (winCount 2 1 (setWin entry { w with dup := w.dup + 1 } s))
  else if w.state = 3 && r.wgen == (w.gen + 1) % 65536 then (none, setWin entry { w with held := w.held ++ [r] } s)
  else
    let s := c.2
    if !(decide (off < (w.elements + perDeposit w.inFmt - 1) / perDeposit w.inFmt * 64) || off == a.2.2.1) then rsp 1 s
    else if r.wgen != w.gen then rsp 0 (winCount 3 1 (setWin entry { w with stale := w.stale + 1 } s))
    else if w.state = 4 then rsp 1 (winCount 4 1 (setWin entry { w with rejected := w.rejected + 1 } s))
    else
      let x := applyContribution entry h off r follower s
      rsp x.1 x.2

/-- A request to a window range (R117, R313): reads by area, contributions, and an access error for everything else. -/
def windowAccess (entry : Nat) (h : BookEntry) (r : MReq) (follower : Bool) (s : State) : Option MRsp × State :=
  match r.kind with
  | .readCurrent | .engineRead =>
    let x := windowRead entry h r.lines (r.dpa - h.base) s
    (some { status := x.1.2, data := x.1.1 }, x.2)
  | _ =>
    let a := if r.contrib then contribute entry h r follower s else (some { status := 1 }, s)
    (a.1, match a.1 with | some rsp => (if rsp.status = 1 then homeError r 1 a.2 else a.2) | none => a.2)

end Sys2Proof.Machine
end

