-- ==== Sys2Proof/Machine/Home.lean ====
section
/-! DEFINITION. A home's transactions (04): acceptance of a memory request (R44, R50, R126 to R129), its recalls (R119, R130), the
frame it needs (R159, R163), its effect, and the unblocking of its lines (R124). -/
namespace Sys2Proof.Machine

/-! ### Home operations inside one transaction (R178, R291, R293) -/

/-- The new element of an ATOMIC (R291); an FP32 sum is rounded as RTZ and SAT say (R290). -/
def atomicNew (op fmt old opa opb : Nat) (rtz sat : Bool) : Nat :=
  let w := elemBits fmt
  let a := opa % 2 ^ w
  if op = 0x08 then (if fmt = 1 then fp32Add old a rtz sat else (old + a) % 2 ^ w)
  else if op = 0x09 || op = 0x0A then
    let isMax := op == 0x0A
    if fmt = 1 then fp32MinMax isMax old a
    else
      let less := if fmt = 12 || fmt = 13 then decide (signed w a < signed w old) else decide (a < old)
      if less == isMax then old else a
  else if op = 0x0B then Nat.land old a
  else if op = 0x0C then Nat.lor old a
  else if op = 0x0D then Nat.xor old a
  else if op = 0x0E then a
  else if old = opb % 2 ^ w then a else old

/-- The formats an atomic permits (R291). -/
def atomicFormat (op fmt : Nat) : Bool :=
  if op ≤ 0x0A then fmt == 1 || fmt == 12 || fmt == 13 || fmt == 14 || fmt == 15 else fmt == 14 || fmt == 15

/-- The answer of a home operation: a status of R301 and its result. -/
def opResult (status result : Nat) : Bytes := packLE [(2, status), (6, 0), (8, result)]

/-- APPEND on a log header's 64 B (R177, R178, R293): status, reserved offset and the new header. -/
def appendLog (hdr : Bytes) (n : Nat) : Nat × Nat × Bytes :=
  let tail := leAt hdr 0 8
  let shift := leAt hdr 20 1
  let seg := 2 ^ shift
  if fromLE (hdr.drop 21) != 0 || shift < 26 || 40 < shift then (0x0015, 0, hdr)
  else if n = 0 || seg < n then (0x0013, 0, hdr)
  else
    let at_ := if seg < tail % seg + n then roundUp tail seg else tail
    ((if leAt hdr 16 4 * seg < at_ + n then 0x0002 else 0), at_, toLE 8 (at_ + n) ++ hdr.drop 8)

/-! ### Transactions -/

def txnOf (s : State) (id : Nat) : Option Txn := tfind s.ldg.txns id
def setTxn (id : Nat) (t : Txn) (s : State) : State := { s with ldg := { s.ldg with txns := tput s.ldg.txns id t } }

/-- The state a request seeks for its requester (R116): 1 shared, 2 owned. -/
def grantOf (k : MKind) : Nat := match k with | .readShared => 1 | .readOwn => 2 | _ => 0

/-- The recalls a request needs on one line (R119): BISnp kind and the holders it goes to. -/
def recallsFor (r : MReq) (e : LEntry) : Nat × List (Nat × Nat) :=
  let mine := holds e r.holder
  let others := e.holders.filter fun p => holderKey p.1 != holderKey r.holder
  match r.kind with
  | .readShared => if e.owned && !mine then (1, e.holders) else (1, [])
  | .readOwn => (2, others)
  | .invalidate => (2, e.holders)
  | .readCurrent => if e.owned && !mine then (0, e.holders) else (0, [])
  | .engineRead => if e.owned then (0, e.holders) else (0, [])
  | .write => if e.owned && mine then (2, []) else (2, e.holders)
  | .engineWrite => (2, e.holders)
  | .cleanEvict => (2, [])

/-- Whether a request is one more holder than a line can have (R123). -/
def fullLine (r : MReq) (e : LEntry) : Bool :=
  r.kind == .readShared && !e.owned && !holds e r.holder && decide (250 ≤ e.holders.length)

/-- The lines that a request looks up (R36): an engine's access skips the blocks whose presence-filter bit is clear. -/
def lookedUp (s : State) (r : MReq) (lines : List Nat) : List Nat :=
  if r.kind == .engineRead || r.kind == .engineWrite then lines.filter fun l => present s (l / 1024) else lines

/-- The lines that a request blocks (R124, R129): all of them, but none where an engine's access looks none up. So no line of an access that
spans a block with a tracked line and one without comes to be held while it waits (log 132, DESIGN CHOICE). -/
def consulted (s : State) (r : MReq) (lines : List Nat) : List Nat := if (lookedUp s r lines).isEmpty then [] else lines

/-- Send every recall of a transaction (R130), HOLDER0's displacement with them (R123). -/
def sendRecalls (id : Nat) (t : Txn) (s : State) : Txn × State :=
  t.ledger.foldl (fun (acc : Txn × State) l =>
    match entryOf acc.2 l with
    | none => acc
    | some e =>
      let w := recallsFor t.req e
      let a := recallHolders (.txn id) l w.1 false w.2 acc.2
      let t := { acc.1 with recalls := acc.1.recalls ++ a.1 }
      if fullLine t.req e then
        let b := recallHolders (.txn id) l 2 false (e.holders.take 1) a.2
        ({ t with recalls := t.recalls ++ b.1, front := l :: t.front },
          { b.2 with ldg := { b.2.ldg with displaced := b.2.ldg.displaced + 1 } })
      else (t, a.2)) (t, s)

/-- The untracked lines that a transaction will enter (R138). -/
def newLines (s : State) (t : Txn) : List Nat :=
  if grantOf t.req.kind = 0 then [] else t.ledger.filter fun l => (entryOf s l).isNone

/-- Overflow blocks that recording a request's host takes on a line (R122, R139): a shared holder that is added needs the next block. -/
def blocksAdded (s : State) (r : MReq) (line : Nat) : Nat :=
  match entryOf s line with
  | none => 0
  | some e =>
    if r.kind != .readShared || e.owned || holds e r.holder || 250 ≤ e.holders.length then 0
    else overflowBlocks (e.holders.length + 1) - overflowBlocks e.holders.length

/-- The transactions that have a way and the blocks they need set aside, and have not been applied. -/
def granted (s : State) : List Txn :=
  (s.ldg.txns.filter fun p => p.2.phase == .recalling || p.2.phase == .filling).map (·.2)

/-- Whether a line must wait for a way of its set (R138): its entries and the lines about to enter it are more than eight. While the slice
has no more than eight the hash need not be asked. -/
def needsWay (s : State) (t : Txn) (line : Nat) : Bool :=
  (entryOf s line).isNone &&
  (let users := (s.ldg.entries.map (·.1) ++ (granted s).flatMap (newLines s) ++ newLines s t).filter fun l => sliceOf s l == sliceOf s line
   decide (8 < users.length) && decide (8 < (users.filter fun l => ledgerSetOf s l == ledgerSetOf s line).length))

/-- Whether a line must wait for an overflow block of its slice's share (R139). -/
def needsBlock (s : State) (t : Txn) (line : Nat) : Bool :=
  let k := sliceOf s line
  let taken := fun (t : Txn) => ((t.ledger.filter fun l => sliceOf s l == k).map (blocksAdded s t.req)).foldl (· + ·) 0
  decide (0 < blocksAdded s t.req line) &&
  decide (overflowShare s < overflowUsed s k + (((granted s).map taken).foldl (· + ·) 0) + taken t)

/-- Recall the victim of a full set, or of an exhausted overflow share, for a transaction (R138, R139). Answers the recalls, or
none when every way is blocked and the request waits (R140). -/
def recallVictim (id : Nat) (t : Txn) (s : State) : Option (List Nat) × State :=
  if grantOf t.req.kind = 0 then (some [], s)
  else
    match t.ledger.find? fun l => needsWay s t l || needsBlock s t l with
    | none => (some [], s)
    | some l =>
      match (if needsWay s t l then wayVictim s l else blockVictim s l) with
      | none => (none, s)
      | some v =>
        let a := recallLines (.txn id) 2 false [v] s
        (some a.1, { a.2 with ldg := { a.2.ldg with forced := a.2.ldg.forced + 1 } })

/-! ### Frames for a transaction (R159, R163, R176) -/

/-- The logical device a host request came from, as a key of the history table. -/
def missKey (r : MReq) : Nat := holderKey r.holder

/-- Learn from a demand miss (R176): the block last missed by the same logical device within 100 µs has this one as successor.
The table keeps the most recently used 262,144 blocks (how confidence moves: log 11, DESIGN CHOICE). -/
def learnMiss (key b : Nat) (s : State) : State :=
  let h := match tfind s.car.lastMiss key with
    | some (p, t) =>
      if s.now ≤ t + usec 100 && p != b then
        let x := (tfind s.car.history p).getD (b, 0, 0)
        let y := if x.1 = b then (b, min 3 (x.2.1 + 1), s.now) else if x.2.1 = 0 then (b, 1, s.now) else (x.1, x.2.1 - 1, s.now)
        let old := match s.car.history with
          | [] => none
          | c :: cs => some (cs.foldl (fun a d => if d.2.2.2 < a.2.2.2 then d else a) c).1
        let t := if (tfind s.car.history p).isNone && 262144 ≤ s.car.history.length then
            (match old with | some o => tdel s.car.history o | none => s.car.history) else s.car.history
        tput t p y
      else s.car.history
    | none => s.car.history
  { s with car := { s.car with history := h, lastMiss := tput s.car.lastMiss key (b, s.now) } }

/-- Make room in a block's set (R141, R163): a victim whose lines are tracked has them recalled, a dirty one is written back, a
clean one is freed. -/
def makeRoom (b : Nat) (s : State) : State :=
  match victimOf s b with
  | none => s
  | some v =>
    match frameOf s v with
    | none => s
    | some f =>
      if f.evicting || f.victim then s
      else if present s v then
        let lines := (s.ldg.entries.filter fun p => p.1 / 1024 == v).map (·.1)
        (recallLines (.evict v) 2 false lines (setFrame v { f with evicting := true } s)).2
      else if f.state = 3 then startWriteBack v (setFrame v { f with victim := true } s)
      else freeFrame v s

/-- A history fill takes a frame, or waits for one (R163). -/
def takeHistory (b part : Nat) (s : State) : State :=
  let s := if hasRoom s b then s else makeRoom b s
  if hasRoom s b then carCount 4 1 (startFill b part 3 s)
  else { s with car := { s.car with histWait := if (b, part) ∈ s.car.histWait then s.car.histWait else s.car.histWait ++ [(b, part)] } }

/-- Whether a block may have a history fill: it has no frame, and an active home range holds it. -/
def historyHome (s : State) (b : Nat) : Option Nat :=
  if (frameOf s b).isSome then none
  else match homeAt s (b * 65536) with
    | some (_, h) => if h.state = 2 then some h.part else none
    | none => none

/-- Issue a history fill for the successor a miss foretells (R176). -/
def historyFill (b : Nat) (s : State) : State :=
  match tfind s.car.history b with
  | some (n, c, _) =>
    if rCarHistoryEnable s = 1 && 2 ≤ c && s.car.stageQueue.isEmpty then
      let s := { s with car := { s.car with history := tput s.car.history b (n, c, s.now) } }
      match historyHome s n with
      | some part => takeHistory n part s
      | none => s
    else s
  | none => s

/-- History fills that wait for a frame are tried again, while none may be issued they wait on, and with the history switched off they are
dropped (R176). -/
def pumpHistory (s : State) : State :=
  if rCarHistoryEnable s != 1 then { s with car := { s.car with histWait := [] } }
  else if !s.car.stageQueue.isEmpty then s
  else
  each s.car.histWait (fun w s => match historyHome s w.1 with | some part => takeHistory w.1 part s | none => s)
    { s with car := { s.car with histWait := [] } }

/-- See that a block has a frame, or that one is on its way (R159). Every demand miss may foretell a block; only those of a logical device
are learned from (R176). -/
def needFrame (b : Nat) (r : MReq) (s : State) : State :=
  if (frameOf s b).isSome then s
  else
    let s := if hasRoom s b then s else makeRoom b s
    if hasRoom s b then
      let s := carCount 2 1 s
      let s := startFill b r.part 2 s
      historyFill b (if r.holder != 0 then learnMiss (missKey r) b s else s)
    else s

/-- Whether a request writes all 64 B of each line it touches (R137, R159). -/
def fullWrite (r : MReq) : Bool :=
  (r.kind == .write || r.kind == .engineWrite) && r.view == 0 && r.dpa % 64 == 0 &&
  (r.op == 4 || r.op == 6 || (r.op == 0 && r.stretches.all fun x => x.be == 2 ^ (64 * x.lines) - 1))

/-! ### The effect (R119) -/

/-- The PATH of R600 for a request's reads. -/
def readPath (r : MReq) : Nat :=
  match r.who with
  | .engine ref =>
    match ref.kind with
    | .descriptor => 5 | .segList => 14 | .logHead => 14 | .drain => 13 | .rdma => 13
    | _ => if r.aux = 3 then 3 else 4
  | .nodeEngine _ _ => 4
  | _ => 1

/-- Read, change and write one element or header (R178, R291), write zeros and clear poison (R149), or write a
line and clear poison (R99, R137). -/
def homeOperation (h : BookEntry) (r : MReq) (s : State) : MRsp × State :=
  if r.op = 7 then
    let s := writeShown h r.view r.dpa r.part r.holder (r.data.take 64) fullBE false s
    ({}, each (storedLines h r.view r.dpa 1) clearPoisonDpa s)
  else if r.op = 4 then
    ({}, writeShownLines h 0 r.part 0 false fullBE 1 (r.dpa / 64 * 64) (if r.data.length = 64 then r.data else zeros 64) s)
  else
    -- `dpa` names the element of a binding without a view, and the presented line of one with a view
    let line := if r.view = 0 then r.dpa / 64 * 64 else r.dpa
    let off := if r.view = 0 then r.dpa % 64 else r.aux % 64
    let a := readShown h r.view line r.part 4 r.holder s
    if a.1.status != 0 then ({ status := 2 }, a.2)
    else if r.op = 2 then
      let x := appendLog a.1.data (leAt r.data 0 8)
      ({ data := opResult x.1 x.2.1 },
        if x.1 = 0 || x.1 = 2 then writeShown h r.view line r.part r.holder x.2.2 fullBE false a.2 else a.2)
    else
      let op := if r.op = 3 then 0x08 else leAt r.data 0 1
      let fmt := if r.op = 3 then 15 else leAt r.data 1 1
      let k := elemBits fmt / 8
      let old := leAt a.1.data off k
      let new := atomicNew op fmt old (if r.op = 3 then 1 else leAt r.data 8 8) (leAt r.data 16 8) (bitOf r.aux 6) (bitOf r.aux 7)
      let data := zeros off ++ toLE k new ++ zeros (64 - off - k)
      ({ data := opResult 0 old },
        writeShown h r.view line r.part r.holder data ((2 ^ k - 1) * 2 ^ off) false a.2)

/-- The Ledger after a request on its lines (R119, R123). -/
def recordLines (t : Txn) (s : State) : State :=
  each t.lines (fun l s =>
    let r := t.req
    match r.kind with
    | .readShared =>
      if ownsLine s l r.holder then s
      else if l ∈ t.front then
        let e := (entryOf s l).getD {}
        setEntry l { e with holders := (r.holder, r.view) :: e.holders, touch := touchTime s } s
      else recordHolder l r.holder r.view false s
    | .readOwn => recordHolder l r.holder r.view true s
    | .write =>
      if ownsLine s l r.holder then
        if r.mval = 1 then removeHolder l r.holder s
        else if r.mval = 2 then applyAnswer l r.holder r.view 1 s
        else s
      else s
    | .cleanEvict => removeHolder l r.holder s
    | _ => s) s

/-- A write reaches a range: the clean mark goes (R470), and a migration's copy marks the block (R74). -/
def noteWrite (entry : Nat) (h : BookEntry) (lines : List Nat) (s : State) : State :=
  let s := { s with pga := { s.pga with clean := lines.foldl (fun t l => tdel t (l / 2 ^ 20)) s.pga.clean } }
  match tfind s.pga.migrates entry with
  | some m =>
    if h.state = 4 then
      let bs := ascending (m.marked ++ lines.map fun l => (l * 64 - h.base) / 65536)
      { s with pga := { s.pga with migrates := tput s.pga.migrates entry { m with marked := bs } } }
    else s
  | none => s

/-- Coordinates and tag that name a request in a stamp (R406). -/
def stampName (s : State) (r : MReq) : Nat × Nat :=
  match r.who with
  | .node c t => (c, t)
  | .nodeEngine c t => (c, t)
  | _ => (hereAt s, 0)

/-- Position of the lowest byte enable, below 64. -/
def lowEnable : Nat → Nat → Nat
  | 0, _ => 0
  | fuel + 1, be => if be % 2 = 1 then 0 else 1 + lowEnable fuel (be / 2)

/-- The payload of ATOMIC (R291, R356): operation, format, OPA and OPB. -/
def atomicBody (op fmt a b : Nat) : Bytes := packLE [(1, op), (1, fmt), (6, 0), (8, a), (8, b)]

/-- A contiguous run of enabled bytes as a packet carries it: its PGA, its offset in the first presented line of a view, and the bytes. -/
def runBytes (view pga be : Nat) (data : Bytes) : Nat × Nat × Bytes :=
  let off := lowEnable 64 be
  (if view = 0 then pga + off else pga, if view = 0 then 0 else off, (data.drop off).take (Nat.log2 (be / 2 ^ off + 1)))

/-- The packet of a request for a PGA, with the requester's coordinates and tag (R355, R356). -/
def packetOf (s : State) (r : MReq) (pga : Nat) : Packet :=
  let n := stampName s r
  let base : Packet := { dest := pgaCoord pga, src := n.1, tag := n.2, pga := pga, partition := r.part, view := r.view,
                         host := r.holder, mval := r.mval, poison := r.poison, seq := r.seq, wgen := r.wgen }
  match r.kind with
  | .readShared => { base with opcode := 0x01, aux := 0 }
  | .readOwn => { base with opcode := 0x01, aux := 1 }
  | .invalidate => { base with opcode := 0x01, aux := 2 }
  | .readCurrent => { base with opcode := 0x01, aux := 3 }
  | .engineRead => { base with opcode := 0x01, aux := 4 + 8 * (r.lines - 1) }
  | .cleanEvict => { base with opcode := 0x04 }
  | .write => { base with opcode := if r.contrib then 0x08 else 0x02, payload := r.data, aux := r.be }
  | .engineWrite =>
    if r.contrib then { base with opcode := 0x08, payload := r.data, aux := r.be }
    else if r.op = 1 then { base with opcode := 0x05, payload := r.data, mval := r.aux }
    else if r.op = 2 then { base with opcode := 0x06, payload := r.data, mval := r.aux }
    else if r.op = 3 then { base with opcode := 0x05, payload := atomicBody 0x08 15 1 0, mval := r.aux }
    else if r.op = 7 then { base with opcode := 0x03, payload := r.data, mval := 64 }
    else
      -- a contiguous run of bytes; through a view `mval` gives its offset in the first presented line (log 30, DESIGN CHOICE)
      let x := runBytes r.view pga r.be r.data
      { base with
        opcode := 0x03
        pga := x.1
        mval := x.2.1
        payload := x.2.2
        more := r.more.map fun y => runBytes r.view (pga + y.1 - r.dpa) y.2.2.2 y.2.2.1 }

/-- The lead sends its follower a copy of a request that came with TWIN clear (R404). -/
def copyToFollower (entry : Nat) (r : MReq) (s : State) : State :=
  match twinOf s entry with
  | some w =>
    if !r.twin && w.role == 1 && (w.state == 1 || w.state == 2 || w.state == 5) then
      each (partsOf { packetOf s r (rMarPairPartner s * 2 ^ 50 + r.dpa) with twin := true }) (fun p s => stampSend p 5 s) s
    else s
  | none => s

/-- Read the lines of a resilver unit with their VALID and POISON bits (R425): data, and the metadata of R358. -/
def unitLines (part : Nat) : List Nat → State → (Bytes × Nat) × State
  | [], s => (([], 0), s)
  | l :: ls, s =>
    let a := readDpa l part s
    let m := match dramLine s l with | some d => lineMeta s d | none => {}
    let b := unitLines part ls a.2
    (((if a.1.status < 2 then a.1.data else zeros 64) ++ b.1.1,
      b2n m.valid + 2 * b2n (a.1.status != 0) + 4 * b.1.2), b.2)

/-- Write the lines of a block that a migration copies, with the poison of each (R74, log 59, DESIGN CHOICE). -/
def writeCopied (part mask : Nat) : List Nat → Bytes → State → State
  | [], _, s => s
  | l :: ls, b, s => writeCopied part mask ls (b.drop 64) (writeDpa l part (b.take 64) (bitOf mask (l % 1024)) s)

/-- Apply a request whose lines are ready (R119): its answer and the state after. -/
def applyRequest (entry : Nat) (h : BookEntry) (t : Txn) (s : State) : MRsp × State :=
  let r := t.req
  if r.op = 5 then
    let x := unitLines h.part t.lines s
    ({ data := x.1.1 ++ toLE 128 x.1.2 }, stampEvent entry 3 (hereAt s) r.aux true t.lines false x.2)
  else
  let isRead := r.kind == .readShared || r.kind == .readOwn || r.kind == .readCurrent || r.kind == .engineRead
  let isWrite := r.kind == .write || r.kind == .engineWrite
  let a : MRsp × State :=
    if isRead then
      let x := readShownLines h r.view r.part (readPath r) r.holder r.lines r.dpa s
      ({ status := if x.1.status = 0 then 0 else 2, data := x.1.data }, x.2)
    else if isWrite then
      if r.op = 0 then
        let s := if r.poison then { s with ras := { s.ras with poisonWrites := tbump s.ras.poisonWrites r.part 1 } } else s
        ({}, each r.stretches (fun x s => writeShownLines h r.view r.part r.holder r.poison x.be x.lines x.dpa x.data s) s)
      else if r.op = 6 then ({}, writeCopied h.part r.aux t.lines r.data s)
      else homeOperation h r s
    else ({}, s)
  let s := if isWrite then noteWrite entry h t.lines a.2 else a.2
  let s := recordLines t s
  let n := stampName s r
  let s := stampEvent entry 0 n.1 n.2 r.twin t.lines isWrite s
  let s := copyToFollower entry r s
  ({ a.1 with granted := grantOf r.kind, role := twinRole s entry }, s)

/-! ### Moving transactions on -/

/-- Unblock a transaction's lines (R124): the oldest request that waits for each goes on (R127). -/
def unblock (id : Nat) (s : State) : List Nat × State :=
  let mine := (s.ldg.blocked.filter fun p => p.2 == id).map (·.1)
  let s := { s with ldg := { s.ldg with
    blocked := s.ldg.blocked.filter fun p => p.2 != id
    txns := tdel s.ldg.txns id } }
  let woken := mine.filterMap fun l => match tfind s.ldg.queue l with | some (w :: _) => some w | _ => none
  let stuck := (s.ldg.txns.filter fun p => p.2.phase == .victim && p.2.recalls.isEmpty).map (·.1)
  (woken ++ stuck, s)

/-- Whether a transaction is open (R124, R127): it has blocked a line of the Ledger. -/
def isOpen (t : Txn) : Bool := !t.ledger.isEmpty && (t.phase != .blocking || decide (0 < t.got))

/-- The open transactions of a slice; a transaction belongs to the slice of its first line. -/
def openTxns (s : State) (k : Nat) : Tbl Txn := s.ldg.txns.filter fun p => isOpen p.2 && sliceOf s (p.2.ledger.headD 0) == k

/-- A transaction has opened: the slice's peak (R149). -/
def notePeakOpen (k : Nat) (s : State) : State :=
  setSlice k { sliceRec s k with peakOpen := max (sliceRec s k).peakOpen (openTxns s k).length } s

/-- Block the next line of a transaction, or wait for it in the conflict queue (R127, R129), also while a recall of the line is
outstanding (R131). Answers whether it goes on. -/
def blockNext (id : Nat) (t : Txn) (l : Nat) (s : State) : Bool × State :=
  let q := tget [] s.ldg.queue l
  let free := (tfind s.ldg.blocked l).isNone && !heldLine s l && (q.isEmpty || q.head? == some id)
  if free then
    let s := setTxn id { t with got := t.got + 1 } { s with ldg := { s.ldg with
      blocked := tput s.ldg.blocked l id
      queue := tset [] s.ldg.queue l (q.filter (· != id)) } }
    (true, if t.got = 0 then notePeakOpen (sliceOf s (t.ledger.headD 0)) s else s)
  else
    let q := if id ∈ q then q else q ++ [id]
    let k := sliceOf s l
    let depth := (s.ldg.queue.filter fun p => sliceOf s p.1 == k).foldl (fun a p => a + p.2.length) 0 + 1
    (false, setSlice k { sliceRec s k with peakQueue := max (sliceRec s k).peakQueue depth }
      { s with ldg := { s.ldg with queue := tset [] s.ldg.queue l q } })

/-- Whether a request's answer waits for a remote acknowledgement (R124). -/
def waitsAck (r : MReq) : Bool :=
  match r.who with | .node _ _ => !r.noRsp | .nodeEngine _ _ => !r.noRsp | _ => false

/-- Count the lines of an access in tiered mode: hits where the block has a filled frame, misses elsewhere (R183; log 11, DESIGN CHOICE). -/
def countAccess (lines : List Nat) (s : State) : State :=
  let hits := (lines.filter fun l => match frameOf s (l / 1024) with | some f => f.state != 1 | none => false).length
  if s.car.tiered then carCount 0 hits (carCount 1 (lines.length - hits) s) else s

/-- Whether a home operation waits until the slice of its sliver's quad is up again (R307). -/
def waitsSlice (s : State) (t : Txn) : Bool :=
  (t.req.op == 1 || t.req.op == 2 || t.req.op == 3) &&
  t.lines.any fun l => match dramLine s l with | some d => sliceDown s (lineSliver s d) | none => false

/-- Whether a transaction's lines may be accessed: they are in DRAM (R159), their stacks serve (R192, R196), no holder is recorded on a
block that is being evicted (R141), and no slice that it waits for is in reset (R307). -/
def txnReady (s : State) (t : Txn) : Bool :=
  !waitsSlice s t &&
  (t.lines.all fun l => lineReady s l (fullWrite t.req)) &&
  (grantOf t.req.kind == 0 || t.lines.all fun l => match frameOf s (l / 1024) with | some f => !f.evicting | none => true)

/-- Lines of an engine's access that looked nothing up, once one of them has come to be tracked: it consults the Ledger after all (R36). -/
def newlyTracked (s : State) (t : Txn) : List Nat := (consulted s t.req t.lines).filter fun l => !decide (l ∈ t.ledger)

/-- A transaction that has blocked nothing starts again with the lines it blocks now (R36, R129). -/
def restartTxn (id : Nat) (t : Txn) (s : State) : State :=
  setTxn id { t with phase := .blocking, got := 0, ledger := consulted s t.req t.lines, front := [] } s

/-- One step of a transaction. Answers which transactions are to be moved on next. -/
def stepTxn (id : Nat) (s : State) : List Nat × State :=
  match txnOf s id with
  | none => ([], s)
  | some t =>
    match t.phase with
    | .blocking =>
      if t.ledger.length ≤ t.got then ([id], setTxn id { t with phase := .victim } s)
      else
        let a := blockNext id t (t.ledger.getD t.got 0) s
        (if a.1 then [id] else [], a.2)
    | .victim =>
      if !t.recalls.isEmpty then ([], s)
      else
        let a := recallVictim id t s
        match a.1 with
        | none => ([], a.2)
        | some [] =>
          let b := sendRecalls id t a.2
          ([id], setTxn id { b.1 with phase := .recalling } b.2)
        | some l => ([], setTxn id { t with recalls := l } a.2)
    | .recalling => if t.recalls.isEmpty then ([id], setTxn id { t with phase := .filling } s) else ([], s)
    | .filling =>
      let s := if t.counted || !s.car.tiered then s else setTxn id { t with counted := true } (countAccess t.lines s)
      let s := if s.car.tiered then each (ascending (t.lines.map (· / 1024))) (fun b s => needFrame b t.req s) s else s
      if !txnReady s t then ([], s)
      else if !(newlyTracked s t).isEmpty then ([id], restartTxn id t s)
      else match homeAt s t.req.dpa with
        | none =>
          let a := unblock id s
          (a.1, answer t.req { status := 1 } a.2)
        | some (n, h) =>
          let a := applyRequest n h t s
          let s := answer t.req a.1 a.2
          if !t.ledger.isEmpty && waitsAck t.req then
            ([], setTxn id { t with phase := .acking, ackDue := s.now + msec (rLdgTimeout s) } s)
          else unblock id s
    | .acking => ([], s)

/-- Move transactions on until each waits or has ended. -/
def runTxns : Nat → List Nat → State → State
  | 0, _, s => s
  | _, [], s => s
  | fuel + 1, id :: rest, s =>
    let a := stepTxn id s
    runTxns fuel (a.1 ++ rest) a.2

/-- Enough steps for any run of transactions. -/
def runFuel : Nat := 1000000

/-! ### The order at a stack's controller (R188) -/

/-- The bank that a request's first line lies in, with the row (R185). -/
def bankOf (s : State) (lines : List Nat) : Option (Nat × Nat × Nat) :=
  (dramLine s (lines.headD 0)).map fun l => (lineStack s l, linePc s l * 32 + lineBank s l, lineRow s l)

/-- Whether a request hits an open row (R187). -/
def rowHit (s : State) (lines : List Nat) : Bool :=
  match bankOf s lines with
  | some (k, b, r) => tget 0 (stackOf s k).openRow b == r + 1
  | none => false

/-- Whether two requests want one bank. -/
def sameBank (s : State) (a b : List Nat) : Bool := (bankOf s a).map (fun x => (x.1, x.2.1)) == (bankOf s b).map fun x => (x.1, x.2.1)

/-- The position of the first row hit that no earlier request of a list keeps back by wanting a line of its own. -/
def firstHit (s : State) (i : Nat) : List Nat → List (List Nat × Nat) → Option Nat
  | _, [] => none
  | before, w :: ws =>
    if rowHit s w.1 && !(w.1.any fun l => decide (l ∈ before)) then some i else firstHit s (i + 1) (before ++ w.1) ws

/-- Which of the requests that may be served is served next (R188), each with its lines and how many row hits have passed it, oldest first:
one that 16 have passed, else a row hit, else the oldest. -/
def nextServed (s : State) (l : List (List Nat × Nat)) : Nat :=
  match l.findIdx? fun w => decide (16 ≤ w.2) with
  | some i => i
  | none => (firstHit s 0 [] l).getD 0

/-- Older transactions that wait for the bank of one served now have been passed by one more row hit (R188). -/
def passTxns (id : Nat) (t : Txn) (s : State) : State :=
  if !rowHit s t.lines then s
  else { s with ldg := { s.ldg with txns := s.ldg.txns.map fun p =>
    if p.1 < id && p.2.phase == .filling && sameBank s p.2.lines t.lines then (p.1, { p.2 with passed := p.2.passed + 1 }) else p } }

/-- Serve the transactions that wait for a frame, a fill or their stack as far as they are ready, in the order of R188; the others ask for the
frames they need. -/
def pumpFills : Nat → List Nat → State → State
  | 0, _, s => s
  | fuel + 1, ids, s =>
    let ready := ids.filterMap fun id => match txnOf s id with
      | some t => if t.phase == .filling && txnReady s t then some (id, t) else none
      | none => none
    match ready[nextServed s (ready.map fun x => (x.2.lines, x.2.passed))]? with
    | some (id, t) => pumpFills fuel (ids.erase id) (runTxns runFuel [id] (passTxns id t s))
    | none => runTxns runFuel ids s

/-- Move every transaction on that waits for a frame, a fill or its stack. -/
def wakeFills (s : State) : State :=
  let ids := (s.ldg.txns.filter fun p => p.2.phase == .filling).map (·.1)
  pumpFills (ids.length + 1) ids s

/-- Move every transaction on that waits for a victim to become free (R140). -/
def wakeVictims (s : State) : State :=
  runTxns runFuel ((s.ldg.txns.filter fun p => p.2.phase == .victim && p.2.recalls.isEmpty).map (·.1)) s

/-- Some lines are no longer recalled: the oldest request that waits for each opens (R127, R131). -/
def wakeLines (lines : List Nat) (s : State) : State :=
  runTxns runFuel (lines.filterMap fun l => (tget [] s.ldg.queue l).head?) s

/-- A recall of a transaction has ended: the transaction goes on when it was the last (R130). -/
def txnRecallEnded (id rid : Nat) (s : State) : State :=
  match txnOf s id with
  | none => s
  | some t =>
    let t := { t with recalls := t.recalls.filter (· != rid) }
    let s := setTxn id t s
    if t.recalls.isEmpty then runTxns runFuel [id] s else s

/-! ### Conflicts met by an owner's request (R131) -/

/-- BIConflicts that wait for a request of a host of this node: they are acknowledged as it arrives, and the recall comes first. -/
def releaseConflicts (port ld pga : Nat) (s : State) : State :=
  let hit := s.cxl.conflicts.filter fun c => c.1 == port && c.2.1 == ld && c.2.2.1 == pga
  if hit.isEmpty then s
  else
    let s := { s with cxl := { s.cxl with conflicts := s.cxl.conflicts.filter fun c => !decide (c ∈ hit) } }
    each hit (fun c s => emit (.ndr port ld c.2.2.2 3 (devLoad s port ld)) s) s

/-- The tag a remote recall went out under. -/
def recallTag (s : State) (rid : Nat) : Option Nat := (s.mar.tags.find? fun p => p.2.isOpen && p.2.use == .recallOp rid).map (·.1)

/-- Probes that wait for a request of a remote host are answered as it arrives: the recall comes first. -/
def answerProbes (holder pga : Nat) (s : State) : State :=
  let hit := s.ldg.recalls.filter fun r => r.2.conflict && holderKey r.2.holder == holderKey holder && pgaOf s r.2.shown == pga
  each hit (fun r s =>
    let s := { s with ldg := { s.ldg with recalls := tput s.ldg.recalls r.1 { r.2 with conflict := false } } }
    match recallTag s r.1 with
    | some t => sendBypass 0x87 (holderCoord r.2.holder) t pga 0 [] s
    | none => s) s

/-- A host's request has reached its home: what waits for it is answered. -/
def meetConflicts (r : MReq) (s : State) : State :=
  match r.who with
  | .host _ => releaseConflicts (holderPort r.holder) (holderLd r.holder) (pgaOf s r.dpa) s
  | .node _ _ => answerProbes r.holder (pgaOf s r.dpa) s
  | _ => s

/-! ### Accepting a request (R44, R50, R126, R128) -/

/-- Refuse a request as an access error (R44, R50): counted for its partition at the home of a request from elsewhere; a write is dropped,
with an error record. -/
def denyRequest (r : MReq) (status : Nat) (s : State) : State :=
  let s := homeError r status (meetConflicts r s)
  let s := match r.who with
    | .host _ => s
    | _ => { s with pga := { s.pga with accessErrors := tbump s.pga.accessErrors r.part 1 } }
  answer r { status := status, role := if r.twin then twinRoleAt s r.dpa else 0 } s

/-- Whether a request reaches beyond its range. -/
def beyondRange (h : BookEntry) (r : MReq) : Bool :=
  r.stretches.any fun x => decide (x.dpa < h.base) || decide (h.base + h.length < reqStart x + x.lines * viewBytes x.view)

/-- Refuse a request in a range of this node; the lead of a twinned one stamps the answer as an event, so that its follower gives the same
(R404, R406, R413). -/
def denyHere (entry : Nat) (r : MReq) (s : State) : State :=
  let n := stampName s r
  denyRequest r 1 (copyToFollower entry r (stampEvent entry 0 n.1 n.2 r.twin [r.dpa / 64] false s))

/-- Whether a slice's Ledger takes new requests: it runs (R145), fewer than 32,768 transactions are open (R126) and fewer than 8,192
requests wait in the conflict queue (R127). -/
def ledgerTakes (s : State) (k : Nat) : Bool :=
  let mine := s.ldg.txns.filter fun p => !p.2.ledger.isEmpty && sliceOf s (p.2.ledger.headD 0) == k
  !(sliceRec s k).stopped &&
  decide ((openTxns s k).length < 32768) &&
  decide ((mine.filter fun p => p.2.phase == .blocking).length < 8192)

/-- Whether a slice and its stack take new requests, so that the stop returns ring credits (R126, R127, R192). -/
def sliceTakes (s : State) (k : Nat) : Bool := stackServes s k && ledgerTakes s k

/-- Whether a line lies in a Ledger set that is being scanned (R596). -/
def scanHolds (s : State) (lines : List Nat) : Bool :=
  lines.any fun l =>
    let sc := (sliceRec s (sliceOf s l)).scanning
    !sc.isEmpty && decide (ledgerSetOf s l ∈ sc)

/-- A write by the owner or a clean eviction by a holder, which no block holds back (R128). -/
def neverQueued (s : State) (r : MReq) (lines : List Nat) : Bool :=
  (r.kind == .write && !r.contrib && lines.all fun l => ownsLine s l r.holder) ||
  (r.kind == .cleanEvict && lines.all fun l => match entryOf s l with | some e => holds e r.holder | none => false)

/-- An owner has written its lines back: an event of R135 would name the time. -/
def noteWriteBack (lines : List Nat) (s : State) : State :=
  { s with ldg := { s.ldg with writeBacks := lines.foldl (fun t l => tput t l s.now) s.ldg.writeBacks } }

/-- A line's entry is looked up: the die holds the 65,536 of each slice that were looked up last, and any other costs one DRAM read of its set
(R122, R148; which is replaced: log 132, DESIGN CHOICE). -/
def cacheEntry (line : Nat) (s : State) : State :=
  let k := sliceOf s line
  let l := tget [] s.ldg.cache k
  let held := decide (line ∈ l)
  let s := { s with ldg := { s.ldg with cache := tput s.ldg.cache k ((line :: (if held then l.filter (· != line) else l)).take 65536) } }
  if held then s else hbmCount k 0 1 s

/-- A slice looks up lines (R149; one lookup for a request and slice: log 118, DESIGN CHOICE): counted, and TOUCH of their entries is now
(R120). -/
def lookUp (lines : List Nat) (s : State) : State :=
  touchEntries lines (each lines cacheEntry (each (ascending (lines.map (sliceOf s))) (fun k s =>
    setSlice k { sliceRec s k with lookups := (sliceRec s k).lookups + 1 } s) s))

/-- Open a transaction (R124) over the lines that the Ledger is consulted for (R36). -/
def openTxn (r : MReq) (lines : List Nat) (s : State) : State :=
  let n := freshId s
  runTxns runFuel [n.1] (lookUp (lookedUp s r lines) (setTxn n.1 { req := r, lines := lines, ledger := consulted s r lines } n.2))

/-- A write by the owner of its lines, or a clean eviction by a holder, is served at once (R128). -/
def serveOwner (entry : Nat) (h : BookEntry) (r : MReq) (lines : List Nat) (s : State) : State :=
  let s := if r.kind == .write then noteWriteBack lines s else s
  let a := applyRequest entry h { req := r, lines := lines } (countAccess lines (lookUp lines s))
  answer r a.1 a.2

/-- Whether a request to an active range waits at its source stop, or in the stack's controller: its stack does not serve or its
pseudo-channel is paused (R192, R196, R198), or its slice's Ledger takes no request (R126, R127) or scans its set (R596). -/
def mustWait (s : State) (h : BookEntry) (r : MReq) : Bool :=
  let lines := reqLines h r
  let ls := consulted s r lines
  if h.isWin || h.window || neverQueued s r lines then
    lines.any fun l => !stackServes s (sliceOf s l) || (match dramLine s l with | some d => !lineServes s d | none => false)
  else
    (ascending (lines.map (sliceOf s))).any fun k =>
      !stackServes s k || ((ls.any fun l => sliceOf s l == k) && (!ledgerTakes s k || scanHolds s ls))

/-- A memory request that reaches its home in an active range: refused, served at once, waiting at its source stop, or opened as a
transaction. -/
def serveRequest (entry : Nat) (h : BookEntry) (r : MReq) (s : State) : State :=
  let lines := reqLines h r
  if mustWait s h r then
    { s with ring := { s.ring with waiting := s.ring.waiting ++ [{ stack := sliceOf s (lines.headD 0), req := r }] } }
  else
  let s := meetConflicts r s
  if h.isWin || h.window then
    let a := windowAccess entry h r false s
    let n := stampName s r
    match a.1 with
    | some rsp =>
      let s := copyToFollower entry r (stampEvent entry 0 n.1 n.2 r.twin lines r.contrib a.2)
      answer r { rsp with role := twinRole s entry } s
    | none => a.2
  else if neverQueued s r lines then serveOwner entry h r lines s
  else openTxn r lines s

/-- A forwarding old home sends a request on to the new home under its requester's SRC and TAG, and tells the ingress node
(R74, R355). A request of this node itself takes a tag here, and the rebind is this node's own (t4). -/
def forwardRequest (h : BookEntry) (r : MReq) (s : State) : State :=
  let pga := h.forward + (r.dpa - h.base)
  match r.who with
  | .host _ | .engine _ =>
    request { packetOf s r pga with fwd := true, src := hereAt s } (.mem r) 1 (if r.kind == .engineRead then 4 else 2) true
      { s with pga := { s.pga with rebindDue := (pgaOf s h.base, h.forward, h.length) :: s.pga.rebindDue.filter (·.1 != pgaOf s h.base) } }
  | .node c _ | .nodeEngine c _ =>
    let s := each (partsOf { packetOf s r pga with fwd := true }) (fun p s => injectGen p 2 s) s
    request { opcode := 0x0B, dest := c, src := hereAt s, pga := pgaOf s h.base, aux := 3,
              payload := packLE [(8, h.forward), (8, h.length)] } .rebind 1 2 true s

/-- A memory request at its home (R44, R50, R74, R466): the range is checked first. The security event of a partition mismatch carries the
DPA and the request's partition (log 124, DESIGN CHOICE). While a migration is blocked, requests wait, but for a recalled owner's
write-back and a holder's eviction, which no recall may wait behind (R74, R128). -/
def homeRequest (r : MReq) (s : State) : State :=
  match homeAt s r.dpa with
  | none => denyRequest r 1 s
  | some (n, h) =>
    if n ∈ s.ras.lostBook then denyHere n r s
    else if h.part != r.part then
      denyHere n r (security h.part (packLE [(8, r.dpa), (1, r.part)]) s)
    else if beyondRange h r then denyHere n r s
    else if h.state = 4 then
      match tfind s.pga.migrates n with
      | some m =>
        if m.phase = 2 && !neverQueued s r (reqLines h r) then
          meetConflicts r { s with pga := { s.pga with migrates := tput s.pga.migrates n { m with held := m.held ++ [r] } } }
        else serveRequest n h r s
      | none => serveRequest n h r s
    else if h.state = 5 then forwardRequest h r s
    else if h.state = 2 || (h.state = 1 && r.op = 6) then serveRequest n h r s
    else if h.state = 6 then
      match r.who with
      | .host _ => answer r { status := 1, cause := 9 } s
      | _ => denyRequest r 1 s
    else denyRequest r 1 s

/-! ### Requests that wait for a stack (R126, R188, R192, R196) -/

/-- Whether a waiting request may be served now. -/
def waitOver (s : State) (w : RingWait) : Bool :=
  match homeAt s w.req.dpa with
  | some (_, h) => !mustWait s h w.req
  | none => true

/-- The stored lines of a request, if its home is here. -/
def mineLines (s : State) (r : MReq) : List Nat := match homeAt s r.dpa with | some (_, h) => reqLines h r | none => []

/-- The stored lines of a waiting request. -/
def waitLines (s : State) (w : RingWait) : List Nat := mineLines s w.req

/-- Which of the requests that may be served now is served next (R188). -/
def nextWait (s : State) (ready : List RingWait) : Option RingWait := ready[nextServed s (ready.map fun w => (waitLines s w, w.passed))]?

/-- A waiting request leaves the list; those to its bank that came before it have been passed by one more row hit (R188). -/
def takeWait (w : RingWait) (s : State) : State :=
  let before := s.ring.waiting.takeWhile (· != w)
  let after := (s.ring.waiting.dropWhile (· != w)).drop 1
  let lines := waitLines s w
  let hit := rowHit s lines
  { s with ring := { s.ring with waiting :=
    (before.map fun x => if hit && sameBank s (waitLines s x) lines then { x with passed := x.passed + 1 } else x) ++ after } }

/-- Serve the waiting requests that may be served, one after the other. -/
def pumpWaits : Nat → State → State
  | 0, s => s
  | fuel + 1, s =>
    match nextWait s (s.ring.waiting.filter (waitOver s)) with
    | none => s
    | some w => pumpWaits fuel (homeRequest w.req (takeWait w s))

/-- The stop of the fabric that a port is attached to: 19, the first, for ports 0 to 2, and 20 for the others (R29, R337). -/
def fabricStop (port : Nat) : Nat := if port < 3 then 19 else 20

/-- Whether the block behind a stop takes requests now: a stack's slice (R126, R127, R192), or the queues of a fabric stop's ports (R337,
R432; log 132, DESIGN CHOICE); the other stops always do. -/
def stopTakes (s : State) (stop : Nat) : Bool :=
  if stop < 16 then sliceTakes s stop
  else (List.range 7).all fun port => fabricStop port != stop || (List.range 7).all fun c => !queueFull s (16 + port) (c + 1)

/-- Stops return the credits they withheld once what is behind them takes requests again (R126, R127, R192, R432). -/
def returnCredits (s : State) : State :=
  each (s.ring.withheld.filter fun p => stopTakes s p.1) (fun p s =>
    { s with ring := { s.ring with
      used := tset 0 s.ring.used p.1 (tget 0 s.ring.used p.1 - p.2)
      withheld := tdel s.ring.withheld p.1 } }) s

/-- Requests that waited are served, and credits returned, as far as the slices and their stacks take requests again. -/
def pumpRing (s : State) : State := returnCredits (pumpWaits s.ring.waiting.length s)

/-- A request arrives at its home. What came before it and may be served now goes first, so that a line's reads and writes are served in the
order in which they came (R188). -/
def arriveRequest (r : MReq) (s : State) : State :=
  let s := if s.ring.waiting.isEmpty then s else pumpRing s
  let older := s.ldg.txns.any fun t => t.2.phase == .filling && t.2.lines.any fun l => decide (l ∈ mineLines s r)
  homeRequest r (if older then wakeFills s else s)

/-- Writes of an owner to a line that wait: they come before the owner's answer to a recall of the line (R119; log 118, DESIGN CHOICE). -/
def ownerWrites (s : State) (line holder : Nat) : List RingWait :=
  s.ring.waiting.filter fun w => w.req.kind == .write && holderKey w.req.holder == holderKey holder && decide (line ∈ waitLines s w)

/-- Those of them whose stacks serve are served. -/
def serveOwnerWrites (line holder : Nat) (s : State) : State :=
  each ((ownerWrites s line holder).filter fun w => linesServe s (waitLines s w)) (fun w s =>
    match homeAt s w.req.dpa with
    | some (n, h) =>
      let s := { s with ring := { s.ring with waiting := s.ring.waiting.erase w } }
      let lines := reqLines h w.req
      if neverQueued s w.req lines then serveOwner n h w.req lines s else openTxn w.req lines s
    | none => s) s

/-- A block's recalls before its eviction have ended (R141): the frame is freed or written back, and requests go on. Lines that came to be
tracked meanwhile are recalled first. -/
def evictRecallEnded (b : Nat) (s : State) : State :=
  if s.ldg.recalls.any fun p => p.2.owner == .evict b then s
  else match frameOf s b with
    | none => wakeFills s
    | some f =>
      let lines := (s.ldg.entries.filter fun p => p.1 / 1024 == b).map (·.1)
      let f := { f with evicting := !lines.isEmpty }
      if !lines.isEmpty then wakeFills (recallLines (.evict b) 2 false lines (setFrame b f s)).2
      else if f.state = 3 then wakeFills (startWriteBack b (setFrame b { f with victim := true } s))
      else if f.state = 2 then wakeFills (freeFrame b (setFrame b f s))
      else wakeFills (setFrame b f s)

end Sys2Proof.Machine
end

