-- ==== Sys2Proof/Machine/Send.lean ====
section
/-! DEFINITION. Memory requests on their way to a home (R40, R356, R360, R404), the acceptance record of arriving requests (R391,
R392), and the memory request that a packet spells. -/
namespace Sys2Proof.Machine

/-! ### Leaving -/

/-- Response packets that a memory request is answered with (R361). -/
def rspPackets (r : MReq) : Nat := if r.kind = .engineRead then max 1 ((r.lines * 64 + 1023) / 1024) else 1

/-- Open a tag for a request and send it; a memory request to a twinned range goes to the partner as well, under the same tag
(R404). `WAYPOINT` of a packet that has not left names the partner. -/
def launch (t : Nat) (p : Packet) (use : TagUse) (npk cls : Nat) (gen : Bool) (s : State) : State :=
  let q := { p with waypoint := 0 }
  let s := openTag t q use npk cls gen s
  if p.twin && p.opcode != 0x0A then
    let there := fun (a : Nat) => p.waypoint * 2 ^ 50 + pgaDpa a
    let more := p.more.map fun x => (there x.1, x.2)
    each (partsOf { q with tag := t, src := hereAt s, dest := p.waypoint, pga := there p.pga, more := more })
      (fun p s => inject p cls s) s
  else s

/-- Originate a request with a tag, or let it wait for one (R360). -/
def originate (p : Packet) (use : TagUse) (npk cls : Nat) (gen : Bool) (s : State) : State :=
  match freeTag s gen with
  | some t => launch t p use npk cls gen s
  | none => tagStall { pkt := p, use := use, npk := npk, cls := cls, gen := gen } s

/-- The partner to which a request of this node for a range homed here goes as well (R403): this node's decode records know of the twinning
of its own ranges at once (log 132, DESIGN CHOICE). A lead that is solo serves its requests alone (R419). -/
def ownPartner (s : State) (pga : Nat) : Option Nat :=
  if pgaCoord pga != hereAt s then none
  else match homeAt s (pgaDpa pga) with
    | some (n, _) => match twinOf s n with
      | some t => if t.role = 1 && t.state = 3 then none else some (rMarPairPartner s)
      | none => none
    | none => none

/-- The partner that a request goes to as well: as its decode record has it, or as this node knows of its own ranges (R403). -/
def bothTwins (s : State) (pga : Nat) (partner : Option Nat) : Option Nat :=
  match partner with
  | some c => some c
  | none => ownPartner s pga

/-- The partner of the range that a PGA lies in, as this node's decode records have it (R403). -/
def partnerAt (s : State) (pga : Nat) : Option Nat :=
  bothTwins s pga ((s.pga.book.find? fun p => p.2.kind == 2 && !p.2.ilv && p.2.partner.isSome && decide (p.2.target ≤ pga) &&
    decide (pga < p.2.target + p.2.length)).bind fun p => p.2.partner)

/-- Send a memory request to the home of a PGA (R40): to this node's home, as a packet, or to both homes of a twinned range. -/
def sendMem (r : MReq) (pga : Nat) (partner : Option Nat) (gen : Bool) (s : State) : State :=
  match bothTwins s pga partner with
  | some c =>
    let p := { packetOf s r pga with src := hereAt s, twin := true, waypoint := c }
    originate p (.mem { r with dpa := pgaDpa pga }) (rspPackets r) (packetClass p) gen s
  | none =>
    if pgaCoord pga = hereAt s then arriveRequest { r with dpa := pgaDpa pga } s
    else
      let p := { packetOf s r pga with src := hereAt s }
      originate p (.mem { r with dpa := pgaDpa pga }) (rspPackets r) (packetClass p) gen s

/-- An engine of this node reads whole lines at a PGA (R117). -/
def engineRead (ref : EngRef) (pga lines part view : Nat) (partner : Option Nat) (s : State) : State :=
  sendMem { kind := .engineRead, who := .engine ref, lines := lines, part := part, view := view } pga partner false s

/-- An engine of this node writes whole or part lines at a PGA (R117); `be` has 64 byte enables for each line. -/
def engineWrite (ref : EngRef) (pga lines part view : Nat) (data : Bytes) (be : Nat) (partner : Option Nat) (s : State) :
    State :=
  sendMem { kind := .engineWrite, who := .engine ref, lines := lines, part := part, view := view, data := data, be := be }
    pga partner false s

/-! ### Arriving (R391 to R393) -/

/-- Whether a packet belongs to a multi-packet request (R361, R392). -/
def isMulti (p : Packet) : Bool := p.opcode == 0x03 || (p.opcode == 0x0B && decide (0 < bits p.aux 14 6))

/-- How an arriving request is classed (R392): 0 new, 1 joins an open operation, 2 duplicate. -/
def acceptance (p : Packet) (s : State) : Nat :=
  let e := acceptEntry s p.src p.tag
  if bitOf e 15 then 1
  else if bitOf e 14 && decide ((acceptTime s + 16384 - bits e 0 14) % 16384 * 64000 < msec (rMarTagQuarantine s)) then 2
  else 0

/-- Check an arriving request against the acceptance record and run its action when it is new or joins (R356, R392): malformed
packets and duplicates are discarded and counted. -/
def accepting (p : Packet) (act : State → State) (s : State) : State :=
  if malformedPacket p then countMalformed s
  else match acceptance p s with
    | 0 => act (setAccept p.src p.tag (acceptTime s + 2 ^ 14 + (if isMulti p then 2 ^ 15 else 0)) s)
    | 1 => act s
    | _ => { s with lnk := { s.lnk with dupDiscards := s.lnk.dupDiscards + 1 } }

/-- Whether a packet commanded as one opcode carries it. -/
def isOp (p : Packet) (o : Nat) : Bool := p.opcode == o

/-- Whether a packet is the MANAGE operation of a subcode (R358). -/
def isManage (p : Packet) (sub : Nat) : Bool := p.opcode == 0x0B && bits p.aux 0 8 == sub

/-- Who a request packet is answered to. -/
def packetWho (p : Packet) : Who :=
  if p.opcode = 0x01 && bits p.aux 0 3 != 4 || p.opcode = 0x02 || p.opcode = 0x04 then .node p.src p.tag
  else .nodeEngine p.src p.tag

/-- The lines that a run of bytes covers at its home: DPA, count, bytes and byte enables. -/
def runRequest (view pga mval : Nat) (b : Bytes) : Nat × Nat × Bytes × Nat :=
  let off := if view = 0 then pgaDpa pga % 64 else mval
  let n := b.length
  let lines := (off + n + 63) / 64
  (if view = 0 then pgaDpa pga - off else pgaDpa pga, lines, zeros off ++ b ++ zeros (64 * lines - off - n), (2 ^ n - 1) * 2 ^ off)

/-- The memory request that a packet spells (R116, R355, R356). A CHUNK_WRITE whose side item reads 64, beyond any offset, is that of a Clear
Poison (R137; log 132, DESIGN CHOICE). -/
def requestOf (p : Packet) : MReq :=
  let base : MReq := { who := packetWho p, holder := p.host, dpa := pgaDpa p.pga, part := p.partition, view := p.view,
                       mval := p.mval, poison := p.poison, twin := p.twin, fwd := p.fwd, src := p.src, seq := p.seq,
                       wgen := p.wgen }
  match p.opcode with
  | 0x01 =>
    let k := bits p.aux 0 3
    let kind := if k = 0 then MKind.readShared else if k = 1 then .readOwn else if k = 2 then .invalidate
      else if k = 3 then .readCurrent else .engineRead
    { base with kind := kind, lines := if k = 4 then bits p.aux 3 10 + 1 else 1 }
  | 0x02 => { base with kind := .write, data := p.payload, be := p.aux }
  | 0x04 => { base with kind := .cleanEvict }
  | 0x08 => { base with kind := .write, data := p.payload, be := p.aux, contrib := true }
  | 0x03 =>
    if p.mval = 64 then { base with kind := .engineWrite, mval := 0, holder := 0, data := p.payload, be := fullBE, op := 7 } else
    let x := runRequest p.view p.pga p.mval p.payload
    { base with
      kind := .engineWrite, mval := 0, holder := 0, dpa := x.1, lines := x.2.1, data := x.2.2.1, be := x.2.2.2
      more := p.more.map fun y => runRequest p.view y.1 y.2.1 y.2.2 }
  | 0x05 => { base with kind := .engineWrite, data := p.payload, op := 1, aux := p.mval, mval := 0 }
  | 0x06 => { base with kind := .engineWrite, data := p.payload, op := 2, aux := p.mval, mval := 0 }
  | _ => base

end Sys2Proof.Machine
end

