-- ==== Sys2Proof/Machine/Carter.lean ====
section
/-! DEFINITION. Tiering commands (05): the mode, dirty frames, staged frames, commits and Carter streams. -/
namespace Sys2Proof.Machine

/-! ### Mode and frames -/

/-- CAR_MODE_NEXT (R150, R151): the mode of the next cold boot, refused with BUSY unless every book entry is free. -/
def execCarModeNext (q : Ask) (value : Nat) (s : State) : Host.Outcome State Fault Refusal :=
  .next <| ask q 1 0x380001 true (fun _ s =>
    if 1 < value then finish q 0x380001 stBadValue [] s
    else if s.pga.book.any fun p => p.2.kind != 0 then finish q 0x380001 stBusy [] s
    else storeLater q 0x380001 0 value [] (setReg 0x380001 1 value s)) s

/-- Dirty frames of the node. -/
def dirtyFrames (s : State) : Nat := (s.car.frames.filter fun p => p.2.state == 3).length

/-- While the dirty frames have not fallen to CAR_DIRTY_LOW, as many of the oldest as stand above it are written back, apart from those that
wait for it already (R165). -/
def drainDirty (s : State) : State :=
  if !s.car.draining then s
  else
    let low := rCarDirtyLow s * totalFrames s / 100
    if dirtyFrames s ≤ low then { s with car := { s.car with draining := false } }
    else
      let n := dirtyFrames s - s.stk.wbWait.length - low
      each (((dirtyBlocks s).filter fun b => !(s.stk.wbWait.contains b)).take n) startWriteBack s

/-- DIRTY_HIGH (R165): above CAR_DIRTY_HIGH, dirty frames are written back, oldest TOUCH first, down to CAR_DIRTY_LOW. -/
def execDirtyHigh (s : State) : Host.Outcome State Fault Refusal :=
  .next <|
    if dirtyFrames s * 100 ≤ rCarDirtyHigh s * totalFrames s then s
    else drainDirty { s with car := { s.car with draining := true } }

/-! ### Commits (R167, R168) -/

/-- The home entries that a DPA range touches. -/
def homesOver (s : State) (lo hi : Nat) : List (Nat × BookEntry) :=
  s.pga.book.filter fun p => p.2.kind == 1 && decide (p.2.base < hi) && decide (lo < p.2.base + p.2.length)

/-- Whether a block lies in a window range. -/
def inWindow (s : State) (b : Nat) : Bool := match homeAt s (b * 65536) with | some (_, h) => h.window | none => false

/-- The blocks of a commit that a write-back is due for: dirty or writing back, or filling with a write that has completed, outside
windows. -/
def commitBlocks (s : State) (lo hi : Nat) : List (Nat × Frame) :=
  s.car.frames.filter fun p => decide (lo / 65536 ≤ p.1) && decide (p.1 < (hi + 65535) / 65536) &&
    (p.2.state == 3 || p.2.state == 4 || (p.2.state == 1 && !p.2.dirty.isEmpty)) && !inWindow s p.1

def setCommit (id : Nat) (c : CommitOp) (s : State) : State :=
  { s with car := { s.car with commits := tput s.car.commits id c } }

/-- The commit point (R167): every dirty frame of the range starts writing back; those already writing back, and those that are still
filled, are noted to be written back when that has ended. -/
def commitPoint (id : Nat) (s : State) : State :=
  match tfind s.car.commits id with
  | none => s
  | some c =>
    let bs := commitBlocks s c.lo c.hi
    let again := (bs.filter fun p => p.2.state != 3).map (·.1)
    let s := setCommit id { c with blocks := bs.map (·.1), again := again } s
    each ((bs.filter fun p => p.2.state == 3).map (·.1)) startWriteBack s

/-- A home accepts a commit of its part of a range (R167): with RECALL, owned lines are recalled with BISnpCur before the commit
point. -/
def startCommit (c : CommitOp) (recallOp : Bool) (s : State) : State :=
  let n := freshId s
  let s := setCommit n.1 c n.2
  if recallOp then
    let lines := (s.ldg.entries.filter fun p => p.2.owned && decide (c.lo / 64 ≤ p.1) && decide (p.1 * 64 < c.hi)).map (·.1)
    let a := recallLines (.commit n.1) 0 false lines s
    if a.1.isEmpty then commitPoint n.1 a.2
    else setCommit n.1 { c with recalling := a.1 } a.2
  else commitPoint n.1 s

/-- A recall of a commit has ended (R167). -/
def commitRecallEnded (id rid : Nat) (s : State) : State :=
  match tfind s.car.commits id with
  | none => s
  | some c =>
    let c' := { c with recalling := c.recalling.filter (· != rid) }
    let s := setCommit id c' s
    if c'.recalling.isEmpty && !c.recalling.isEmpty then commitPoint id s else s

/-- Whether a DPA range lies in home ranges of one partition (R183). -/
def ownRange (s : State) (part lo hi : Nat) : Bool :=
  (homesOver s lo hi).all (fun p => p.2.part == part) &&
  (homesOver s lo hi).foldl (fun a p => a + (min hi (p.2.base + p.2.length) - max lo p.2.base)) 0 == hi - lo

/-- The status a home gives a commit before it starts, or none when it starts (R154, R168). -/
def commitRefusal (s : State) (lo hi : Nat) : Option Nat :=
  if !s.car.tiered then some stNoTier
  else if (homesOver s lo hi).any fun p => p.2.state == 4 || p.2.state == 5 || p.2.state == 6 then some stBusy
  else none

/-- The status a started commit ends with unless a block cannot be placed (R168). -/
def commitWindow (s : State) (lo hi : Nat) : Nat := if (homesOver s lo hi).any fun p => p.2.window then stWindow else stOk

/-- A status of R168 in the codes of R301. -/
def commitCode (st : Nat) : Nat :=
  if st = stNoTier then 0x50 else if st = stWindow then 0x51 else if st = stBusy then 0x52
  else if st = stNotDurable then 0x53 else if st = stOk then 0 else 0x30

/-- Answer a commit where it came from. -/
def answerCommit (c : CommitOp) (s : State) : State :=
  if c.nasidom then finish c.ask 0x380300 c.status [] s
  else
    let body := opResult (commitCode c.status) (b2n (c.status != 0))
    match c.who with
    | .engine ref => deliver ref { data := body } s
    | .node co t | .nodeEngine co t =>
      inject { opcode := 0x42, dest := co, src := hereAt s, tag := t, partition := c.part, payload := body, twin := c.twin,
               aux := rspAux s 0 1 0 (twinRoleAt s c.lo) } 4 s
    | .host _ => s

/-- CAR_COMMIT (R167, R168): a commit of a range homed at this node. -/
def execCarCommit (q : Ask) (pga length recallOp : Nat) (s : State) : Host.Outcome State Fault Refusal :=
  .next <| ask q 3 0x380300 true (fun x s =>
    let lo := pgaDpa pga
    let hi := lo + length
    if 1 < recallOp || 2 ^ 62 ≤ pga then finish q 0x380300 stBadValue [] s
    else if pgaCoord pga != hereAt s then finish q 0x380300 stNotHome [] s
    else if x.role = 2 && !ownRange s x.part lo hi then finish q 0x380300 stDenied [] s
    else match commitRefusal s lo hi with
      | some st => finish q 0x380300 st [] s
      | none =>
        startCommit { ask := q, nasidom := true, lo := lo, hi := hi, part := x.part, status := commitWindow s lo hi }
          (recallOp == 1) s) s

/-- COMMIT_COMPLETE (R167): every block that a commit wrote back has a durable map update, and the commit completes. -/
def execCommitComplete (id : Nat) (s : State) : Host.Outcome State Fault Refusal :=
  .next <| match tfind s.car.commits id with
  | none => s
  | some c =>
    if c.recalling.isEmpty && c.blocks.isEmpty && c.again.isEmpty then
      carCount 7 1 (answerCommit c { s with car := { s.car with commits := tdel s.car.commits id } })
    else s

/-! ### Streams (R171 to R175) -/

def streamOf (s : State) (n : Nat) : Option Stream := tfind s.car.streams n
def setStream (n : Nat) (x : Stream) (s : State) : State := { s with car := { s.car with streams := tput s.car.streams n x } }

/-- Halt a stream (R172, R174): 1 ACCESS, 2 BAD_LIST. -/
def haltStream (n cause : Nat) (s : State) : State :=
  match streamOf s n with
  | some x => if x.state = 2 then setStream n { x with state := 3, haltCause := cause, fetching := 0, retry := [] } s else s
  | none => s

/-- Bytes of the segments known so far. -/
def segBytes (l : List (Nat × Nat)) : Nat := l.foldl (fun a g => a + g.2) 0

/-- Whether every segment of a stream is known. -/
def segsKnown (x : Stream) : Bool := decide ((if x.source = 0 then x.listCount else x.logCount) ≤ x.segs.length)

/-- The segment and the offset within it of a stream offset. -/
def segAt : List (Nat × Nat) → Nat → Option (Nat × Nat)
  | [], _ => none
  | (a, n) :: l, o => if o < n then some (a + o, n - o) else segAt l (o - n)

/-- The stream offset at which segment `k` starts. -/
def segStart (l : List (Nat × Nat)) (k : Nat) : Nat := segBytes (l.take k)

/-- The index of the segment that holds a stream offset. -/
def segIndex : List (Nat × Nat) → Nat → Nat
  | [], _ => 0
  | (_, n) :: l, o => if o < n then 0 else 1 + segIndex l (o - n)

/-- Bytes of the segment list, or of a log's segment table. -/
def listBytes (x : Stream) : Nat := if x.source = 0 then 16 * x.listCount else 8 * x.logCount

/-- Ask for the next piece of the segment list, or of a log's segment table, up to a 4 KiB boundary, where it is not yet known (R172). -/
def fetchPiece (n : Nat) (x : Stream) (s : State) : State :=
  if x.fetching != 0 || listBytes x ≤ x.fetched then s
  else
    let base := (if x.source = 0 then x.list else x.logTable) + x.fetched
    let len := min (4096 - base % 4096) (listBytes x - x.fetched)
    let lines := (base + len - 1) / 64 - base / 64 + 1
    engineRead { kind := .segList, a := n, b := base, c := len } (base / 64 * 64) lines x.part 0 none
      (setStream n { x with fetching := 1 } s)

/-- Ask for the header of a log (R177, R179). -/
def fetchHeader (n : Nat) (x : Stream) (s : State) : State :=
  if x.fetching != 0 || x.source != 1 then s
  else engineRead { kind := .logHead, a := n } x.list 1 x.part 0 none (setStream n { x with fetching := 2 } s)

/-- A stage step of a running log stream is due: TAIL is read for it, also where an earlier step has not ended (R179). -/
def dueStep (n : Nat) (s : State) : State :=
  match streamOf s n with
  | some x => if x.state = 2 && x.source == 1 && x.stepped != 1 then setStream n { x with stepped := 1 } s else s
  | none => s

/-- How far a stream may be staged: its end, unless it loops, and POSITION + LOOKAHEAD (R174, R179). -/
def stageEnd (x : Stream) : Nat :=
  let look := x.position + x.lookahead
  if x.source = 1 then min look x.tail
  else if x.loop then look
  else if segsKnown x then min look (segBytes x.segs) else look

/-- A home's first answer to a stage request (R174): REFUSED, DROPPED, STAGED, or none while its fill is awaited. In flat mode, of which the
spec says nothing, the answer is STAGED (log 124, DESIGN CHOICE). -/
def stageAtHome (r : StageReq) (s : State) : Option Nat × State :=
  match homeAt s (r.block * 65536) with
  | none => (some 5, security r.part (packLE [(8, r.block * 65536), (1, r.part)]) s)
  | some (_, h) =>
    if h.part != r.part || h.state != 2 then (some 5, security h.part (packLE [(8, r.block * 65536), (1, r.part)]) s)
    else if !s.car.tiered then (some 0, s)
    else match frameOf s r.block with
      | some f =>
        if f.state = 1 then (none, { s with car := { s.car with stageFills := s.car.stageFills ++ [r] } })
        else (some 0, markStaged r s)
      | none =>
        if 16384 ≤ s.car.stageQueue.length then (some 4, { s with car := { s.car with stageDrops := s.car.stageDrops + 1 } })
        else (none, { s with car := { s.car with stageQueue := s.car.stageQueue ++ [r] } })

/-- The Carter takes an answer to a stage request of a stream (R174); one that did not reach its home halts the stream too
(log 51, DEDUCED). -/
def settleStage (n block line status : Nat) (s : State) : State :=
  let s := dueStep n s
  if status = 0 then s
  else if status = 4 then
    match streamOf s n with
    | some x => if x.state = 2 then setStream n { x with retry := x.retry ++ [(block, line, s.now + usec 10)] } s else s
    | none => s
  else haltStream n 1 s

/-- Send one stage request (R174, R175): answered at once, or counted as outstanding. -/
def sendStage (n block line part : Nat) (s : State) : State :=
  let p : Packet := { opcode := 0x09, dest := pgaCoord (block * 65536), src := hereAt s, pga := block * 65536, partition := part, aux := line }
  let out := { s with car := { s.car with stageOut := s.car.stageOut + 1 } }
  match partnerAt s (block * 65536) with
  | some c => originate { p with twin := true, waypoint := c } (.stage n block line) 1 3 false out
  | none =>
  if pgaCoord (block * 65536) = hereAt s then
    let b := pgaDpa (block * 65536) / 65536
    let a := stageAtHome { block := b, part := part, line := line, stream := some n } s
    match a.1 with
    | some st => settleStage n block line st a.2
    | none => { a.2 with car := { a.2.car with stageOut := a.2.car.stageOut + 1 } }
  else originate p (.stage n block line) 1 3 false out

/-- The piece of a block that starts at a stream offset, with what follows of the same block in stream order: block, last line, bytes. -/
def blockRun : Nat → List (Nat × Nat) → Nat → Option (Nat × Nat × Nat)
  | 0, _, _ => none
  | fuel + 1, segs, o =>
    match segAt segs o with
    | none => none
    | some (a, left) =>
      let n := min left (65536 - a % 65536)
      let piece := (a / 65536, (a + n - 1) / 64 % 1024, n)
      if n < left then some piece
      else match segAt segs (o + n) with
        | none => some piece
        | some (b, _) =>
          if b / 65536 != a / 65536 then some piece
          else match blockRun fuel segs (o + n) with
            | some r => some (r.1, r.2.1, n + r.2.2)
            | none => some piece

/-- Whether the match table lacks segments: it holds the segment of POSITION and the 15 after it (R173). -/
def tableShort (x : Stream) : Bool := !segsKnown x && decide (x.segs.length < segIndex x.segs x.position + 16)

/-- One stage step of a stream (R174): the next block's request, or the piece of the list that it needs. -/
def stageOne (n : Nat) (x : Stream) (s : State) : Option State :=
  let total := segBytes x.segs
  let o := if x.loop && x.source == 0 && segsKnown x && 0 < total then x.stagedTo % total else x.stagedTo
  match blockRun 65536 x.segs o with
  | none => none
  | some (b, line, m) =>
    if o + m = total && !segsKnown x then none
    else some (sendStage n b line x.part (setStream n { x with stagedTo := x.stagedTo + m } s))

/-- Stage ahead of one stream until its limit, the end of what is known, or the node's 16,384 requests (R174, R175). A log's end is the
TAIL read for the stage step (R179). -/
def pumpStream : Nat → Nat → State → State
  | 0, _, s => s
  | fuel + 1, n, s =>
    match streamOf s n with
    | none => s
    | some x =>
      if x.state != 2 then s
      else if tableShort x && x.fetching == 0 then pumpStream fuel n (fetchPiece n x s)
      else if x.position + x.lookahead ≤ x.stagedTo then if x.source = 1 then setStream n { x with stepped := 0 } s else s
      else if 16384 ≤ s.car.stageOut then if x.source = 1 then setStream n { x with stepped := 1 } s else s
      else if x.source == 1 && x.stepped != 2 then if x.stepped = 1 then fetchHeader n x s else s
      else if stageEnd x ≤ x.stagedTo then if x.source = 1 then setStream n { x with stepped := 0 } s else s
      else match stageOne n x s with
        | none => fetchPiece n x s
        | some s => pumpStream fuel n s

/-- Answer a stage request at its home (R174): to a stream of this node, or as a DONE. -/
def answerStage (r : StageReq) (status : Nat) (s : State) : State :=
  match r.stream with
  | some n => settleStage n ((pgaOf s (r.block * 65536)) / 65536) r.line status
      { s with car := { s.car with stageOut := s.car.stageOut - 1 } }
  | none =>
    if r.quiet then s
    else
      inject { opcode := 0x42, dest := r.src, src := hereAt s, tag := r.tag, pga := pgaOf s (r.block * 65536)
               partition := r.part, status := status, twin := r.twin, aux := rspAux s 0 1 0 (twinRoleAt s (r.block * 65536)) } 3 s

/-- Stage fills that have ended mark their frames and answer; a request whose frame was dropped is looked at afresh (R174). -/
def endStageFills (s : State) : State :=
  let done := s.car.stageFills.filter fun r => match frameOf s r.block with | some f => f.state != 1 | none => true
  let s := { s with car := { s.car with stageFills := s.car.stageFills.filter fun r => !decide (r ∈ done) } }
  each done (fun r s =>
    if (frameOf s r.block).isSome then answerStage r 0 (if r.started then s else markStaged r s)
    else
      let a := stageAtHome { r with started := false } s
      match a.1 with | some st => answerStage r st a.2 | none => a.2) s

/-- A stage request that waited has its fill requested, while the home's staged frames do not exceed CAR_STAGE_LIMIT and its set has a
frame (R163, R175); else it stays queued. -/
def tryStage (r : StageReq) (s : State) : State :=
  let keep := fun (s : State) => { s with car := { s.car with stageQueue := s.car.stageQueue ++ [r] } }
  if (frameOf s r.block).isSome then { s with car := { s.car with stageFills := s.car.stageFills ++ [r] } }
  else if rCarStageLimit s * totalFrames s < stagedFrames s * 100 then keep s
  else
    let s := if hasRoom s r.block then s else makeRoom r.block s
    if hasRoom s r.block then
      let s := carCount 3 1 (requestFill r.block r.part 3 (markStaged r (takeFrame r.block r.part 3 s)))
      { s with car := { s.car with stageFills := s.car.stageFills ++ [{ r with started := true }] } }
    else keep s

/-- Start the stage fills that wait at this home (R175). -/
def pumpStageQueue (s : State) : State :=
  endStageFills (each s.car.stageQueue tryStage { s with car := { s.car with stageQueue := [] } })

/-- Stream by stream and then at the home's stage queue, until nothing more can be sent (R174, R175). -/
def runCarter : Nat → State → State
  | 0, s => s
  | fuel + 1, s =>
    let was := s.car.streams.foldl (fun a p => a + p.2.stagedTo) 0
    let s := pumpStageQueue (each s.car.streams (fun p s => pumpStream 32768 p.1 s) s)
    if s.car.streams.foldl (fun a p => a + p.2.stagedTo) 0 = was then s else runCarter fuel s

/-- Enough rounds for any run of the Carter. -/
def carterFuel : Nat := 1000000

/-- The Carter receives a stage answer from another node (R174). -/
def stageAnswered (n block line status : Nat) (s : State) : State :=
  runCarter carterFuel (settleStage n block line status { s with car := { s.car with stageOut := s.car.stageOut - 1 } })

/-- A read decoded at this node from a logical device advances the streams bound to it (R173). A list of one segment has no move from its
last segment into segment 0 (log 124, DESIGN CHOICE). -/
def matchStreams (port ld pga : Nat) (s : State) : State :=
  let hit := s.car.streams.filter fun p => p.2.state == 2 && p.2.bind == port + 32 * ld
  if hit.isEmpty then s
  else
    let s := each hit (fun p s =>
      let x := p.2
      let k := segIndex x.segs x.position
      let total := segBytes x.segs
      let inSeg := fun (i : Nat) => match x.segs.drop i with
        | g :: _ => if g.1 ≤ pga && pga < g.1 + g.2 then some (segStart x.segs i + (pga - g.1)) else none
        | [] => none
      let ahead := ((List.range 16).filterMap fun j => inSeg (k + j)).find? fun o => decide (x.position < o)
      match ahead with
      | some o => dueStep p.1 (setStream p.1 { x with position := o } s)
      | none =>
        if x.loop && x.source == 0 && segsKnown x && k + 1 == x.segs.length && 0 < k then
          match inSeg 0 with
          | some o => setStream p.1 { x with position := o, passes := x.passes + 1, stagedTo := x.stagedTo - total } s
          | none => s
        else s) s
    runCarter carterFuel s

/-- The entries of a segment list in a piece of it, or none when one is bad (R172). -/
def listEntries : Nat → Bytes → Option (List (Nat × Nat))
  | 0, _ => some []
  | fuel + 1, b =>
    if b.length < 16 then some []
    else
      let a := leAt b 0 8
      let n := leAt b 8 8
      if n = 0 || 2 ^ 50 < n || 2 ^ 62 ≤ a then none else (listEntries fuel (b.drop 16)).map ((a, n) :: ·)

/-- The segment PGAs in a piece of a log's segment table (R177). -/
def tableEntries (size : Nat) : Nat → Bytes → List (Nat × Nat)
  | 0, _ => []
  | fuel + 1, b => if b.length < 8 then [] else (leAt b 0 8, size) :: tableEntries size fuel (b.drop 8)

/-- SEGMENT_LIST_FETCH (R172, R177, R179): the piece of the list, or the log header, that a stream asked for has arrived; the
stream stages on, or halts with ACCESS or BAD_LIST. A log header with a SEG_SHIFT or reserved bytes out of range is a bad list too (log
124, DESIGN CHOICE). -/
def execSegmentListFetch (stream : Nat) (s : State) : Host.Outcome State Fault Refusal :=
  .next <| match s.taken.find? fun p => (p.1.kind == .segList || p.1.kind == .logHead) && p.1.a == stream with
  | none => s
  | some (ref, rsp) =>
    let s := useTaken (fun r => r == ref) s
    match streamOf s stream with
    | none => s
    | some x =>
      if x.state != 2 || x.fetching = 0 then s
      else
        let x := { x with fetching := 0 }
        if rsp.status != 0 then haltStream stream 1 (setStream stream x s)
        else if ref.kind = .segList then
          let b := x.partial_ ++ (rsp.data.drop (ref.b % 64)).take ref.c
          let size := if x.source = 0 then 16 else 8
          let x := { x with fetched := x.fetched + ref.c, partial_ := b.drop (b.length / size * size) }
          if x.source = 0 then
            match listEntries 258 b with
            | none => haltStream stream 2 (setStream stream x s)
            | some l => runCarter carterFuel (setStream stream { x with segs := x.segs ++ l } s)
          else runCarter carterFuel (setStream stream { x with segs := x.segs ++ tableEntries (2 ^ x.logShift) 514 b } s)
        else
          let shift := leAt rsp.data 20 1
          if shift < 26 || 40 < shift || fromLE (rsp.data.drop 21) != 0 then haltStream stream 2 (setStream stream x s)
          else
            let same := x.logTable == leAt rsp.data 8 8 && x.logShift == shift
            runCarter carterFuel (setStream stream { x with
              segs := if same then x.segs else []
              fetched := if same then x.fetched else 0
              partial_ := if same then x.partial_ else []
              stepped := 2
              tail := leAt rsp.data 0 8
              logTable := leAt rsp.data 8 8
              logCount := leAt rsp.data 16 4
              logShift := shift } s)

/-- STAGE_RETRY (R174, R175): 10 µs after a DROPPED answer the request is sent again, while fewer than 16,384 are outstanding. -/
def execStageRetry (stream block : Nat) (s : State) : Host.Outcome State Fault Refusal :=
  .next <| match streamOf s stream with
  | none => s
  | some x =>
    match x.retry.find? fun r => r.1 == block && decide (r.2.2 ≤ s.now) with
    | none => s
    | some r =>
      if x.state != 2 || 16384 ≤ s.car.stageOut then s
      else
        runCarter carterFuel (sendStage stream block r.2.1 x.part (setStream stream { x with retry := x.retry.erase r } s))

/-! ### The commands on stream records (R171, R183) -/

/-- Act on the stream record of the session's selection: DENIED for a tenant whose partition it is not, BAD_VALUE when it is
free (log 52, DESIGN CHOICE). -/
def onStream (q : Ask) (key : Nat) (act : Nat → Stream → State → State) (s : State) : State :=
  ask q 3 key true (fun x s =>
    let n := selectOf x 0x381001 0
    match streamOf s n with
    | none => finish q key stBadValue [] s
    | some r => if ownsPart x r.part then act n r s else finish q key stDenied [] s) s

/-- CAR_STREAM_ALLOC (R171, R182): a free record, or STREAM_FULL. -/
def execCarStreamAlloc (q : Ask) (s : State) : Host.Outcome State Fault Refusal :=
  .next <| ask q 3 0x381000 true (fun x s =>
    match tfresh s.car.streams (s.car.streams.length + 1) 0 with
    | some n =>
      if 4096 ≤ n then finish q 0x381000 stStreamFull [] s
      else finish q 0x381000 stOk (toLE 2 n) (setStream n { part := if x.role = 2 then x.part else 0 } s)
    | none => finish q 0x381000 stStreamFull [] s) s

/-- CAR_STREAM (R171): the record's RW fields are written, refused with BUSY while it runs. -/
def execCarStream (q : Ask) (record : Bytes) (s : State) : Host.Outcome State Fault Refusal :=
  .next <| ask q 3 0x381002 true (fun x s =>
    let n := selectOf x 0x381001 0
    match streamOf s n with
    | none => finish q 0x381002 stBadValue [] s
    | some r =>
      let look := leAt record 24 8
      if !ownsPart x r.part then finish q 0x381002 stDenied [] s
      else if r.state = 2 then finish q 0x381002 stBusy [] s
      else if record.length != 64 || look % 65536 != 0 || look < 2 ^ 26 || 2 ^ 40 < look then finish q 0x381002 stBadValue [] s
      else
        let w := leAt record 0 4
        finish q 0x381002 stOk [] (setStream n { r with
          part := if x.role = 2 then x.part else bits w 2 6
          loop := bitOf w 8
          source := bits w 9 1
          bind := leAt record 4 4 % 512
          list := leAt record 8 8
          listCount := leAt record 16 8
          lookahead := look
          segs := [], fetched := 0, partial_ := [] } s)) s

/-- STREAM_START (R154, R174): the record runs, its list is fetched from the start, and staging begins at POSITION. -/
def execStreamStart (q : Ask) (s : State) : Host.Outcome State Fault Refusal :=
  .next <| onStream q 0x381003 (fun n r s =>
    if !s.car.tiered then finish q 0x381003 stNoTier [] s
    else if r.state = 2 then finish q 0x381003 stOk [] s
    else
      let r := { r with
        state := 2, haltCause := 0, stagedTo := r.position, segs := [], fetched := 0, partial_ := [], fetching := 0, retry := []
        stepped := r.source }
      let s := useTaken (fun e => (e.kind == .segList || e.kind == .logHead) && e.a == n) (setStream n r s)
      let s := if r.source = 1 then fetchHeader n r s else fetchPiece n r s
      finish q 0x381003 stOk [] s) s

/-- STREAM_STOP (R171): a running stream is stopped. -/
def execStreamStop (q : Ask) (s : State) : Host.Outcome State Fault Refusal :=
  .next <| onStream q 0x381003 (fun n r s =>
    finish q 0x381003 stOk [] (if r.state = 2 then setStream n { r with state := 1, fetching := 0, retry := [] } s else s)) s

/-- STREAM_REWIND (R171): POSITION and STAGED_TO return to offset 0. -/
def execStreamRewind (q : Ask) (s : State) : Host.Outcome State Fault Refusal :=
  .next <| onStream q 0x381003 (fun n r s =>
    finish q 0x381003 stOk [] (runCarter carterFuel (dueStep n (setStream n { r with position := 0, stagedTo := 0 } s)))) s

/-- STREAM_FREE (R171): the record is freed; one that runs is refused with BUSY (log 52, DESIGN CHOICE). -/
def execStreamFree (q : Ask) (s : State) : Host.Outcome State Fault Refusal :=
  .next <| onStream q 0x381003 (fun n r s =>
    if r.state = 2 then finish q 0x381003 stBusy [] s
    else finish q 0x381003 stOk [] { s with car := { s.car with streams := tdel s.car.streams n } }) s

end Sys2Proof.Machine
end

