-- ==== Sys2Proof/Machine/Operands.lean ====
section
/-! DEFINITION. How an address that a host or an engine names becomes a PGA: HDM decoders (R94) and decode records (R49). -/
namespace Sys2Proof.Machine

/-- The DPA that an HDM decoder gives a host address, if the address is its own (R94). -/
def hdmHit (d : Decoder) (h : Nat) : Option Nat :=
  if !d.committed || h < d.base || d.base + d.size ≤ h then none
  else
    let o := h - d.base
    let w := max 1 d.ways
    let g := max 1 d.gran
    if o / g % w = d.pos then some (d.dpa + o / (g * w) * g + o % g) else none

/-- The LDA of a host address: that of the first decoder that holds it (R93, R94). -/
def hdmDecode (x : Ld) (h : Nat) : Option Nat := (x.decoders.filterMap fun p => hdmHit p.2 h).head?

/-- The binding entry whose extent holds an LDA of a logical device, in any state (R49). -/
def bindingAt (s : State) (port ld lda : Nat) : Option (Nat × BookEntry) :=
  s.pga.book.find? fun p => p.2.kind == 2 && p.2.port == port && p.2.ld == ld && decide (p.2.base ≤ lda) &&
    decide (lda < p.2.base + p.2.length)

/-- The PGA of a presented offset in an extent (R49). -/
def extentPga (s : State) (e : BookEntry) (o : Nat) : Nat :=
  if !e.ilv then e.target + storedOffset e.view o
  else
    let x := (tfind s.pga.isets (e.target % 4096)).getD {}
    let g := max 1 x.granule
    let w := max 1 x.ways
    let m := x.members.getD (o / g % w) (0, 0)
    m.1 * 2 ^ 50 + m.2 + storedOffset e.view (o / g / w * g + o % g)

/-- Decode an LDA (R49): the binding, its entry and the PGA, or none for an access error. A commit skips the permissions. -/
def decodeLda (s : State) (port ld lda : Nat) (isWrite commit : Bool) : Option (Nat × BookEntry × Nat) :=
  match bindingAt s port ld lda with
  | none => none
  | some (n, e) =>
    if e.state != 2 || decide (n ∈ s.ras.lostBook) then none
    else if !commit && isWrite && !e.write then none
    else if !commit && !isWrite && !e.read then none
    else some (n, e, extentPga s e (lda - e.base))

/-- Where an LDA decodes to for the data of a write-back, which is no new request (R63): an active binding, or one past its revoke point. -/
def heldLda (s : State) (port ld lda : Nat) : Option (Nat × BookEntry × Nat) :=
  match bindingAt s port ld lda with
  | none => none
  | some (n, e) =>
    if (e.state != 2 && e.state != 3) || decide (n ∈ s.ras.lostBook) then none else some (n, e, extentPga s e (lda - e.base))

/-- Whether a decode record has requests in flight, of a host or of an engine, and is pinned in the entry cache of its stop (R47). -/
def pinned (s : State) (stop : Nat) (x : Nat × Nat) : Bool :=
  (s.cxl.reqs.any fun p => p.2.port % 32 / 8 == stop && p.2.bind == some x.1 && p.2.lda / 2 ^ 26 == x.2) ||
  (s.cle.access.any fun p => (match tfind s.cle.ctxs p.2.ctx with | some c => c.port / 8 == stop | none => false) &&
    p.2.bind == x.1 && p.2.lda / 2 ^ 26 == x.2)

/-- A decode record is looked up in the entry cache of its port's CXL stop (R46, R47): it becomes the latest used, and where it was not held
it costs one DRAM read of the book (R77; at which stack: log 132, DESIGN CHOICE). Beyond 65,536 records the one used longest ago goes, never
one with requests in flight, of which there are at most 61,440. -/
def cacheLookup (port n lda : Nat) (s : State) : State :=
  let r := (n, lda / 2 ^ 26)
  let stop := port % 32 / 8
  let old := tget [] s.pga.cache stop
  let l := r :: old.filter (· != r)
  let l := if l.length ≤ 65536 then l
    else match l.reverse.find? fun x => x != r && !pinned s stop x with
      | some x => l.erase x
      | none => l.take 65536
  let s := { s with pga := { s.pga with cache := tput s.pga.cache stop l } }
  if old.contains r then s else hbmCount (n % max 1 (nStacks s)) 0 1 s

/-- A request is counted in flight in the same step as it is decoded (R49, R61). -/
def countUp (n : Nat) (s : State) : State :=
  match tfind s.pga.book n with
  | some e => setBook n { e with count := e.count + 1 } s
  | none => s

end Sys2Proof.Machine
end

