-- ==== Sys2Proof/Machine/Contrib.lean ====
section
/-! DEFINITION. Contributions at their source (R322, R323, R325), generations and re-arming (R329, R331), and the window commands
of chapter 10 that need no lending-book change. -/
namespace Sys2Proof.Machine

/-! ### Clearing a range (R59, R205, R329) -/

/-- Whether a DRAM line holds a DPA line from `lo` to below `hi`. -/
def dramInRange (s : State) (lo hi l : Nat) : Bool :=
  if s.car.tiered then
    s.car.frames.any fun p =>
      let a := frameLine s p.1 p.2
      decide (a ≤ l) && decide (l < a + 1024) && decide (lo ≤ p.1 * 1024 + (l - a)) && decide (p.1 * 1024 + (l - a) < hi)
  else decide (lo ≤ l) && decide (l < hi)

/-- Every line of a DPA range that DRAM holds takes the cleared state of R205. -/
def clearRange (lo hi : Nat) (s : State) : State :=
  { s with mem := { s.mem with
      data := s.mem.data.filter fun p => !dramInRange s lo hi (p.1 / 64)
      info := s.mem.info.filter fun p => !dramInRange s lo hi p.1
      damage := s.mem.damage.filter fun p => !dramInRange s lo hi p.1 } }

/-! ### Generations at a binder (R329, R331) -/

/-- GEN `a` is newer than GEN `b`, modulo 65,536 (R331). -/
def newerGen (a b : Nat) : Bool := let d := (a + 65536 - b) % 65536; decide (0 < d) && decide (d < 32768)

/-- The bindings of this node to a window. -/
def windowBindings (s : State) (pga : Nat) : List (Nat × BookEntry) :=
  s.pga.book.filter fun p => p.2.kind == 2 && p.2.isWin && p.2.target == pga

/-- The decode records of a window's bindings take a newer generation (R329, R331). -/
def learnGen (pga gen : Nat) (s : State) : State :=
  each (windowBindings s pga) (fun p s => if newerGen gen p.2.wgen then setBook p.1 { p.2 with wgen := gen } s else s) s

/-- The payload of a generation notice (kind 0) or of its acknowledgement (kind 1): GEN and kind (log 55, DESIGN CHOICE). -/
def genPayload (gen kind : Nat) : Bytes := packLE [(2, gen), (1, kind), (5, 0)]

/-- Whether contributions that this node stamped with another generation are still open for a window. -/
def genOpen (s : State) (home pga gen : Nat) : Bool :=
  s.win.out.any fun c => c.home == home && !c.released && c.wgen != gen && (bookOf s c.bind).target == pga

/-! ### Re-arming at the home (R329) -/

/-- Apply the contributions held for the new generation (R329, t3). -/
def applyHeld (entry : Nat) (s : State) : State :=
  let w := winOf s entry
  let h := bookOf s entry
  let held := w.held
  each held (fun r s =>
    let a := contribute entry h r false s
    let n := stampName a.2 r
    let s := copyToFollower entry r (stampEvent entry 0 n.1 n.2 r.twin (reqLines h r) true a.2)
    match a.1 with
    | some rsp => answer r { rsp with role := twinRole s entry } s
    | none => s) (setWin entry { w with held := [] } s)

/-- Steps t2 and t3 of R329. The command completes OK, or with TIMEOUT and the coordinates of the binders still awaited. -/
def finishRearm (entry : Nat) (s : State) : State :=
  let w := winOf s entry
  let h := bookOf s entry
  let a := windowAreas w.inFmt w.outFmt w.elements
  let late := w.awaited
  let s := clearRange ((h.base + a.2.1) / 64) ((h.base + a.2.2.1) / 64) s
  let s := setWin entry { w with
    state := 1, isOver := false, gen := (w.gen + 1) % 65536, count := 0, applied := 0, awaited := []
    expected := if w.nextExpected = 0 then w.expected else w.nextExpected } s
  let s := applyHeld entry (winCount 6 1 s)
  if late.isEmpty then finish w.ask 0x510102 stOk [] s
  else finish w.ask 0x510102 stTimeout (packLE (late.map fun c => (2, c))) s

/-- A binder has acknowledged (R329, t2). -/
def genAcked (entry coord : Nat) (s : State) : State :=
  let w := winOf s entry
  if w.state != 3 then s
  else
    let rest := w.awaited.filter (· != coord)
    let s := setWin entry { w with awaited := rest } s
    if rest.isEmpty && !firmwareHeld s then finishRearm entry s else s

/-- The rearms whose binders have all acknowledged while Sahtin did not run go on (R329, R568). -/
def resumeRearms (s : State) : State :=
  each ((s.win.recs.filter fun p => p.2.state == 3 && p.2.awaited.isEmpty).map (·.1)) finishRearm s

/-- Acknowledge the notices whose contributions have all ended (R329, t1). -/
def ackOwed (s : State) : State :=
  let ready := s.win.owed.filter fun o => !genOpen s o.1 o.2.1 o.2.2
  each ready (fun o s =>
    let s := { s with win := { s.win with owed := s.win.owed.filter (· != o) } }
    if o.1 = hereAt s then
      match homeAt s (pgaDpa o.2.1) with
      | some (n, _) => genAcked n (hereAt s) s
      | none => s
    else sendBypass 0x8A o.1 0 o.2.1 0 (genPayload o.2.2 1) s) s

/-- A binder receives a notice of a new generation (R329). -/
def genNoticed (home pga gen : Nat) (s : State) : State :=
  let s := learnGen pga gen s
  ackOwed { s with win := { s.win with owed := s.win.owed.filter (fun o => !(o.1 == home && o.2.1 == pga)) ++ [(home, pga, gen)] } }

/-! ### Contributions at the source (R322, R323) -/

def contribKey (home seq : Nat) (c : Contrib) : Bool := c.home == home && c.seq == seq

/-- Stamp and send one contribution (R322); to a twinned window it goes to both twins (R403). -/
def stampContrib (r : MReq) (home bind : Nat) (s : State) : State :=
  let seq := tget 0 s.win.seqs home
  let e := bookOf s bind
  let c : Contrib := { home := home, seq := seq, wgen := e.wgen, bind := bind, req := r, due := s.now + msec (rWinContribTimeout s) }
  let s := { s with win := { s.win with
    seqs := tset 0 s.win.seqs home ((seq + 1) % 2 ^ 32)
    out := s.win.out ++ [c] } }
  let r' := { r with contrib := true, src := hereAt s, seq := seq, wgen := e.wgen }
  let pga := home * 2 ^ 50 + r.dpa
  match bothTwins s pga e.partner with
  | some p =>
    originate { packetOf s { r' with kind := .write } pga with src := hereAt s, twin := true, waypoint := p }
      (.contrib home seq r) 1 4 false s
  | none =>
    if home = hereAt s then homeRequest { r' with who := .engine { kind := .contrib, a := home, b := seq } } s
    else originate { packetOf s { r' with kind := .write } pga with src := hereAt s } (.contrib home seq r) 1 4 false s

/-- The places that a source has taken at a home (R323). -/
def placesAt (s : State) (home : Nat) : Nat := (s.win.out.filter fun c => c.home == home && !c.replied).length

/-- Contributions that wait at the source are sent while their home has places (R323). -/
def pumpContribs : Nat → State → State
  | 0, s => s
  | fuel + 1, s =>
    match s.win.waiting.find? fun w => decide (placesAt s w.2.1 < 1024) with
    | none => s
    | some w => pumpContribs fuel (stampContrib w.1 w.2.1 w.2.2 { s with win := { s.win with waiting := s.win.waiting.erase w } })

/-- Put a contribution back in its place, changed. -/
def setContrib (home seq : Nat) (c : Contrib) (s : State) : State :=
  { s with win := { s.win with out := s.win.out.map fun x => if contribKey home seq x then c else x } }

/-- A contribution has its response (R323, R331): its place is freed; one that was stale is an access error for its requester. Of one that
is released only the place is freed: it ends with the acknowledgement of its release (R325). -/
def contribDone (home seq : Nat) (rsp : MRsp) (s : State) : State :=
  match s.win.out.find? (contribKey home seq) with
  | none => s
  | some c =>
    let stale := rsp.status == 0 && rsp.wgen != c.wgen
    let e := bookOf s c.bind
    let s := if !stale then s else learnGen e.target rsp.wgen (if e.wgen = c.wgen then setBook c.bind { e with wgen := rsp.wgen } s else s)
    let s := if c.released then setContrib home seq { c with replied := true } s
      else answer c.req { rsp with status := if stale then 1 else rsp.status }
        { s with win := { s.win with out := s.win.out.filter fun c => !contribKey home seq c } }
    ackOwed (pumpContribs 4096 s)

/-- The responses of this node's own home to contributions of this node are taken up. -/
def drainContribs : Nat → State → State
  | 0, s => s
  | fuel + 1, s =>
    match s.taken.find? fun p => p.1.kind == .contrib with
    | none => s
    | some (ref, rsp) => drainContribs fuel (contribDone ref.a ref.b rsp (useTaken (fun r => r == ref) s))

/-- Send a contribution to a window, or let it wait at the source (R322, R323). -/
def contributeTo (r : MReq) (pga bind : Nat) (s : State) : State :=
  let home := pgaCoord pga
  let r := { r with dpa := pgaDpa pga, contrib := true }
  if 1024 ≤ placesAt s home then
    { s with win := { s.win with waiting := s.win.waiting ++ [(r, home, bind)], stalls := s.win.stalls + 1 } }
  else drainContribs 4096 (stampContrib r home bind s)

/-! ### Releases (R325) -/

/-- A release at its home: the number is marked, and nothing is applied (R325). -/
def markRelease (src seq : Nat) (s : State) : State := (classify src seq s).2

/-- The release of a contribution is acknowledged: its place is free, and its write ends, a host's with the error record of R62 and a chunk's
with CHUNK_LOST (R322, R323, R325). -/
def releaseAcked (home seq : Nat) (s : State) : State :=
  match s.win.out.find? (contribKey home seq) with
  | none => s
  | some c =>
    if !c.released then s
    else answer c.req { status := 3 } { s with win := { s.win with out := s.win.out.filter fun c => !contribKey home seq c } }

/-- Send a release, or mark it here when this node is the home (R325; its AUX: log 56, DESIGN CHOICE). -/
def sendRelease (home seq : Nat) (s : State) : State :=
  if home = hereAt s then releaseAcked home seq (markRelease (hereAt s) seq s)
  else sendBypass 0x89 home 0 0 seq [] s

end Sys2Proof.Machine
end

