-- ==== Sys2Proof/Machine/PortOps.lean ====
section
/-! DEFINITION. The shared operations of CXL ports (03): halves (R85), hosts' requests on their way to a home (R40, R89), and the
actions of a port reset (R110, R111). A port key is the port number, plus 32 for half 1 of a bifurcated port. -/
namespace Sys2Proof.Machine

def portOf (s : State) (k : Nat) : Port := (tfind s.cxl.ports k).getD {}
def setPort (k : Nat) (x : Port) (s : State) : State := { s with cxl := { s.cxl with ports := tput s.cxl.ports k x } }

/-- Whether a port is split in two halves now (R84). -/
def isSplit (s : State) (p : Nat) : Bool := (portOf s p).bifurcated

/-- Whether a port key names a link of this assembly (R2, R85). -/
def portExists (s : State) (k : Nat) : Bool :=
  decide (k % 32 < 8 * s.asm.dies) && (decide (k < 32) || (decide (k < 64) && isSplit s (k % 32)))

/-- The port key of a logical device (R85). -/
def keyOf (s : State) (p ld : Nat) : Nat := if isSplit s p && decide (8 ≤ ld) then p + 32 else p

/-- The logical devices behind a port key (R85). -/
def ldsOf (s : State) (k : Nat) : List Nat :=
  if isSplit s (k % 32) then (if k < 32 then List.range 8 else (List.range 8).map (· + 8)) else List.range 16

/-- Whether a logical device is enabled and its link is up (R109, R114). -/
def ldUp (s : State) (p ld : Nat) : Bool :=
  (portOf s (keyOf s p ld)).state == 2 && decide (ld < (portOf s p).ldCount) && portExists s (keyOf s p ld)

/-- Most M2S requests of a link at one time (R89). -/
def m2sLimit (s : State) (p : Nat) : Nat := if isSplit s p then 1024 else 2048

/-- Outstanding M2S requests of a port key. -/
def m2sOut (s : State) (k : Nat) : Nat :=
  (s.cxl.reqs.filter fun r => keyOf s r.2.port r.2.ld == k).length

def tdiOf (s : State) (k : Nat) : Tdi := (tfind s.lck.tdis k).getD {}
def setTdi (k : Nat) (x : Tdi) (s : State) : State := { s with lck := { s.lck with tdis := tput s.lck.tdis k x } }

/-- The Ledger's record of a host of this node (R41, R121). -/
def hostRecord (s : State) (port ld : Nat) : Nat :=
  holderRecord (hereAt s) port ld ((ldOf s (ldKey port ld)).bi.getD 0)

/-- Ports may train (R108): the node is in service. -/
def portsReady (s : State) : Bool := s.rst.nodeState == 1 || s.rst.nodeState == 3

/-! ### Port reset (R110, R111, R492) -/

/-- Remove every record of some hosts from this node's Ledger (R110, R111): a line that such a host owned is poisoned under
R135, and a recall of a line that one of them shared is over with its removal (log 54, DEDUCED). `mine` names the hosts. -/
def clearHolders (mine : Nat → Bool) (s : State) : State :=
  let ended := fun (r : Recall) => !r.remote && mine r.holder && !ownsLine s r.line r.holder
  let recalls := s.ldg.recalls.map fun p => (p.1, { p.2 with gone := p.2.gone || ended p.2 })
  let s := { s with ldg := { s.ldg with recalls := recalls } }
  each (s.ldg.entries.filter fun p => p.2.holders.any fun h => mine h.1) (fun p s =>
    let dead := p.2.holders.filter fun h => mine h.1
    let part := match homeAt s (p.1 * 64) with | some (_, h) => h.part | none => 0
    let s := if p.2.owned then
        raise 0x0C01 1 (some part) (packLE [(8, pgaOf s (p.1 * 64)), (8, (dead.headD (0, 0)).1), (8, tget 0 s.ldg.writeBacks p.1)])
          (poisonCounted p.1 part s)
      else s
    each dead (fun h s => removeHolder p.1 h.1 s) s) s

/-- Whether a holder record names a host behind a port of a node. -/
def behind (coord port : Nat) (lds : List Nat) (h : Nat) : Bool :=
  holderCoord h == coord && holderPort h == port && decide (holderLd h ∈ lds)

/-- A PURGE to one home (R111, R358), for a port key. -/
def sendPurge (k : Nat) (lds : List Nat) (home : Nat) (s : State) : State :=
  originate { opcode := 0x0B, dest := home, src := hereAt s, aux := 9,
              payload := packLE [(1, k % 32), (1, 0), (2, lds.foldl setBit 0), (4, 0)] } (.purge k home) 1 2 true s

/-- Every other node owes a port key the answer to a purge (R111). -/
def owePurge (k : Nat) (lds : List Nat) (s : State) : State :=
  if (otherNodes s).isEmpty then s
  else { s with cxl := { s.cxl with
    purges := tput s.cxl.purges k (otherNodes s, s.now + msec (rLdgTimeout s), lds.foldl setBit 0) } }

/-- The purge of a port key goes to each home that owes its answer (R111). -/
def sendPurges (k : Nat) (s : State) : State :=
  match tfind s.cxl.purges k with
  | some (homes, _, lds) => each homes (sendPurge k ((List.range 16).filter (bitOf lds))) s
  | none => s

/-- Start the purge of a port key at every other node (R111). -/
def startPurge (k : Nat) (lds : List Nat) (s : State) : State := sendPurges k (owePurge k lds s)

/-- The purges that a node recovery left due go out, unless a link still resynchronises (R111). -/
def pumpPurges (s : State) : State :=
  if (List.range 7).any fun p => (linkOf s p).state == 2 then s
  else each s.cxl.purgeDue sendPurges { s with cxl := { s.cxl with purgeDue := [] } }

/-- What a port reset does to one logical device (R110, R262, R492). -/
def resetLd (port ld : Nat) (s : State) : State :=
  let k := ldKey port ld
  let s := setLd k { ldOf s k with bi := none, decoders := [] } s
  let s := setTdi k { tdiOf s k with state := 0, nonce := 0, keyed := [], active := [], skid := false, spdm := {} } s
  { s with
    msix := match tfind s.msix k with
      | some m => tput s.msix k { m with pending := [], heldUntil := [] }
      | none => s.msix
    cle := { s.cle with ctxs := s.cle.ctxs.map fun p =>
      if p.2.port == port && p.2.ld == ld && p.2.state != 3 then (p.1, { p.2 with n := 0, timerAt := none }) else p }
    tlb := { s.tlb with
      pri := tdel s.tlb.pri k
      alloc := tdel s.tlb.alloc k
      faults := s.tlb.faults.map fun p =>
        if p.2.port == port && p.2.ld == ld && !p.2.retranslating then
          (p.1, { p.2 with resend := true, downDue := some (p.2.downDue.getD (s.now + msec (rLdgTimeout s))) })
        else p } }

/-- The actions of R110 for a port key, without the purge of other homes. -/
def portActions (k : Nat) (s : State) : State :=
  let p := k % 32
  let lds := ldsOf s k
  let gone := s.cxl.reqs.filter fun r => r.2.port == p && decide (r.2.ld ∈ lds)
  let s := each gone (fun r s => countDown r.2.bind { s with cxl := { s.cxl with reqs := tdel s.cxl.reqs r.1 } }) s
  let s := { s with
    cxl := { s.cxl with
      purgeWait := s.cxl.purgeWait.filter fun w => (tfind s.cxl.reqs w.id).isSome
      conflicts := s.cxl.conflicts.filter fun c => !(c.1 == p && decide (c.2.1 ∈ lds))
      probes := s.cxl.probes.filter fun c => !(c.1 == p && decide (c.2.1 ∈ lds)) }
    rst := { s.rst with portResets := s.rst.portResets + 1 } }
  let s := clearHolders (behind (hereAt s) p lds) s
  each lds (resetLd p) s

/-- A port reset (R109, R110, R111): the actions, the purge of every other home, and the reset state. The split that
CXL_PORT_BIFURCATE asks for takes effect; two halves become one port when neither is up (R84). -/
def resetPort (k : Nat) (s : State) : State :=
  let lds := ldsOf s k
  let s := portActions k s
  let s := setPort k { portOf s k with state := 3, rate := 0, width := 0, done := false, linkErrors := 0 } s
  let p := k % 32
  let want := (portOf s p).bifurcate == 1
  let other := portOf s (if k < 32 then p + 32 else p)
  let s := if want == isSplit s p || (isSplit s p && (other.state == 1 || other.state == 2)) then s
    else
      let s := setPort p { portOf s p with bifurcated := want, state := 3, done := false } s
      if want then setPort (p + 32) { state := 3, perst := (portOf s p).perst, held := (portOf s p).held } s
      else { s with cxl := { s.cxl with ports := tdel s.cxl.ports (p + 32) } }
  startPurge k lds s

/-- Start training a port (R108, R109). -/
def trainPort (k : Nat) (s : State) : State := setPort k { portOf s k with state := 1 } s

/-! ### Host requests -/

/-- Answer a host request that met an access error at its own node (R44, R62, R92). -/
def hostRefused (h : HostReq) (status : Nat) (s : State) : State := sendHost h { status := status } s

/-- Whether a purge of a port, or of either half of it, still waits on a home for a logical device (R111). -/
def purging (s : State) (port ld home : Nat) : Bool :=
  [port, port + 32].any fun k =>
    match tfind s.cxl.purges k with
    | some (homes, _, lds) => decide (home ∈ homes) && bitOf lds ld
    | none => false

/-- Send a host's request to its home, or hold it while its home owes the answer to a purge of its port (R111). -/
def sendHostMem (id : Nat) (r : MReq) (pga : Nat) (partner : Option Nat) (port ld : Nat) (s : State) : State :=
  if purging s port ld (pgaCoord pga) then
    { s with cxl := { s.cxl with purgeWait := s.cxl.purgeWait ++
      [{ id := id, req := r, home := pgaCoord pga, pga := pga, due := s.now + msec (rLdgTimeout s) }] } }
  else if r.contrib then contributeTo r pga (((tfind s.cxl.reqs id).bind (·.bind)).getD 0) s
  else sendMem r pga partner false s

/-- A home has answered a purge (R111): it leaves the set, and the requests that waited for it go on. -/
def purgeAnswered (k home : Nat) (s : State) : State :=
  match tfind s.cxl.purges k with
  | none => s
  | some (homes, due, lds) =>
    let rest := homes.filter (· != home)
    let s := { s with cxl := { s.cxl with
      purges := if rest.isEmpty then tdel s.cxl.purges k else tput s.cxl.purges k (rest, due, lds) } }
    let go := s.cxl.purgeWait.filter fun w => w.home == home &&
      (match tfind s.cxl.reqs w.id with | some h => h.port == k % 32 && !purging s h.port h.ld home | none => true)
    let s := { s with cxl := { s.cxl with purgeWait := s.cxl.purgeWait.filter fun w => !decide (w ∈ go) } }
    each go (fun w s =>
      let bind := (tfind s.cxl.reqs w.id).bind (·.bind)
      if w.req.contrib then contributeTo w.req w.pga (bind.getD 0) s
      else sendMem w.req w.pga ((bind.bind (tfind s.pga.book)).bind (·.partner)) false s) s

/-- The operation of a request in an error record (R102; log 110, DESIGN CHOICE). -/
def m2sOp (k : MKind) : Nat := match k with | .write => 1 | .invalidate => 2 | .cleanEvict => 3 | _ => 0

/-- The payload counted for an M2S request at its port's scheduler: none for MemInv, MemInvNT and MemClnEvct (R430). -/
def m2sPayload (kind : MKind) (opcode : Nat) : Nat :=
  if kind == .invalidate || kind == .cleanEvict || (kind == .readOwn && opcode == 1) then 0 else 64

/-- Correctable link errors that a port met while it received a message: counted (R114), and shown in AER and in the CXL RAS capability
(R79; the bits of PCIe and CXL 3.1: log 126, PRESUMED). -/
def noteLinkErrors (m : M2S) (s : State) : State :=
  if m.linkErrors = 0 then s
  else
    let p := keyOf s m.port m.ld
    let k := ldKey m.port m.ld
    let s := setLd k { ldOf s k with aer := setBit (ldOf s k).aer 0, rasCor := setBit (ldOf s k).rasCor 6 } s
    setPort p { portOf s p with linkErrors := (portOf s p).linkErrors + m.linkErrors } s

/-- Whether a host owes the write-back data of a recall of a presented line: the data belongs to the recall and is no new request (R63). -/
def owesWriteBack (s : State) (port ld pga : Nat) : Bool :=
  (s.ldg.recalls.any fun p => !p.2.remote && p.2.due.isSome && holderPort p.2.holder == port && holderLd p.2.holder == ld &&
    pgaOf s p.2.shown / 64 == pga / 64) ||
  (s.ldg.proxies.any fun p => p.2.due.isSome && p.2.port == port && p.2.ld == ld && p.2.pga / 64 == pga / 64)

/-- Decode an M2S request (R49): the binding, its entry and the PGA, and whether it is counted in flight. A write-back that a recall awaits is
accepted after the revoke point too, uncounted (R63). -/
def decodeM2s (s : State) (port ld lda : Nat) (isWrite : Bool) : Option ((Nat × BookEntry × Nat) × Bool) :=
  match decodeLda s port ld lda isWrite false with
  | some x => some (x, true)
  | none => match (if isWrite then heldLda s port ld lda else none) with
    | some x => if owesWriteBack s port ld x.2.2 then some (x, false) else none
    | none => none

/-- Receive an M2S request (R40, R49, R86, R89, R92, R476). The host stalls while the link holds as many requests as it may. `kind`
is the home's kind (R116), `opcode` how it is answered. -/
def hostRequest (m : M2S) (kind : MKind) (opcode : Nat) (isWrite : Bool) (data : Bytes) (be : Nat) (poison : Bool)
    (s : State) : State :=
  let k := ldKey m.port m.ld
  let half := halfOf s m.port m.ld
  if !ldUp s m.port m.ld || m2sLimit s m.port ≤ m2sOut s (keyOf s m.port m.ld) || m2sLimit s m.port ≤ (portQueue s m.port half).length then s
  else
    let s := enqueue (23 + m.port) 2 { len := m2sPayload kind opcode, half := half } (noteLinkErrors m s)
    let x := ldOf s k
    let h : HostReq := { port := m.port, ld := m.ld, tag := m.tag, opcode := opcode, op := m2sOp kind, lda := m.hpa, part := (tdiOf s k).part }
    match hdmDecode x (m.hpa / 64 * 64) with
    | none => hostRefused h 1 s
    | some lda =>
      let bind := (bindingAt s m.port m.ld lda).map (·.1)
      let s := match bind with | some n => cacheLookup m.port n lda s | none => s
      let h := { h with lda := lda }
      match (if x.bi.isNone || (tdiOf s k).state == 3 then none else decodeM2s s m.port m.ld lda isWrite) with
      | none => hostRefused { h with bind := bind } 1 s
      | some ((n, e, pga), counted) =>
        let id := s.cxl.nextReq
        let s := { s with cxl := { s.cxl with
          nextReq := id + 1
          reqs := tput s.cxl.reqs id { h with bind := if counted then some n else none, part := e.part } } }
        let s := if counted then countUp n s else s
        let r : MReq := { kind := kind, who := .host id, holder := hostRecord s m.port m.ld, part := e.part, view := e.view,
                          data := data, be := be, poison := poison, mval := m.mval, contrib := isWrite && e.isWin }
        let s := if kind == .readShared || kind == .readOwn || kind == .readCurrent then matchStreams m.port m.ld pga s else s
        sendHostMem id r pga e.partner m.port m.ld s

end Sys2Proof.Machine
end

