-- ==== Sys2Proof/Machine/Pool.lean ====
section
/-! DEFINITION. The lending book (02): grants and their undoing (R57, R58), clears (R59, R469), revokes (R63 to R66), windows'
grants and binds (R310, R311), and migrations (R74). -/
namespace Sys2Proof.Machine

/-! ### Entries -/

/-- Lendable bytes (R43; in flat mode: log 57, DEDUCED). -/
def lendableBytes (s : State) : Nat :=
  (if s.car.tiered then s.stk.capacity else nStacks s * 127745812500) / 2 ^ 26 * 2 ^ 26

/-- A change of an entry is committed (R55): the records of every entry cache are invalidated, but for those whose bindings have requests in
flight, which stay (R47), and then the generation rises. -/
def bookChanged (s : State) : State :=
  writeGeneration (s.pga.generation + 1) { s with pga := { s.pga with
    cache := s.pga.cache.map fun p => (p.1, p.2.filter fun r => (bookOf s r.1).count != 0) } }

/-- Change an entry (R55). -/
def changeBook (n : Nat) (e : BookEntry) (s : State) : State := bookChanged (setBook n e s)

/-- Put a new entry in the lowest free number of the book, with its generation and time (R54, R55). -/
def allocEntry (e : BookEntry) (s : State) : Option (Nat × State) :=
  match tfresh s.pga.book (s.pga.book.length + 1) 0 with
  | none => none
  | some n =>
    if 1048576 ≤ n then none
    else
      let g := (tget 0 s.pga.gens n + 1) % 2 ^ 32
      some (n, changeBook n { e with gen := g, stamp := s.now } { s with pga := { s.pga with
        gens := tput s.pga.gens n g
        freed := tdel s.pga.freed n } })

/-- An entry changes its state (R54). -/
def entryState (n st : Nat) (s : State) : State :=
  match tfind s.pga.book n with
  | some e => changeBook n { e with state := st, stamp := s.now } s
  | none => s

/-- Free an entry; its STAMP is the present time (R54). -/
def freeEntry (n : Nat) (s : State) : State :=
  bookChanged { s with
    pga := { s.pga with
      book := tdel s.pga.book n
      freed := tput s.pga.freed n s.now }
    ras := { s.ras with lostBook := s.ras.lostBook.filter (· != n) } }

/-- The 64 MiB granules of a DPA range. -/
def granulesOf (base len : Nat) : List Nat := (List.range ((len + 2 ^ 26 - 1) / 2 ^ 26)).map (· + base / 2 ^ 26)

/-- Whether no home entry of this node touches a DPA range. -/
def rangeFree (s : State) (base len : Nat) : Bool := (homesOver s base (base + len)).isEmpty

/-- The lowest free DPA base for a length (R58). -/
def lowestRange (s : State) (len : Nat) : Option Nat :=
  let ends := (s.pga.book.filter fun p => p.2.kind == 1).map fun p => roundUp (p.2.base + p.2.length) (2 ^ 26)
  (ascending (0 :: ends)).find? fun b => decide (b + len ≤ lendableBytes s) && rangeFree s b len

/-- The lowest free LDA base for a length in a region (R45, R58). -/
def lowestLda (s : State) (port ld region len : Nat) : Option Nat :=
  let lo := region * 2 ^ 44
  let hi := lo + (ldOf s (ldKey port ld)).regions.getD region 0
  let mine := s.pga.book.filter fun p => p.2.kind == 2 && p.2.port == port && p.2.ld == ld && p.2.region == region && p.2.length != 0
  (ascending (lo :: mine.map fun p => p.2.base + p.2.length)).find? fun b => decide (b + len ≤ hi) &&
    mine.all fun p => decide (b + len ≤ p.2.base) || decide (p.2.base + p.2.length ≤ b)

/-- A Dynamic Capacity event record (R95 to R98): 0 add, 1 release, 2 forced release, 3 region configuration updated, 5 capacity
released (its layout: log 58, DESIGN CHOICE). -/
def dcEvent (port ld type region base len : Nat) (s : State) : State :=
  logAdd (ldKey port ld) 4 (packLE [(1, type), (1, region), (6, 0), (8, base), (8, len)]) s

/-- The parts of a binding's range at its homes: coordinates, DPA base and stored length (R48, R68). -/
def piecesOf (s : State) (e : BookEntry) : List (Nat × Nat × Nat) :=
  if e.ilv then
    let x := (tfind s.pga.isets (e.target % 4096)).getD {}
    x.members.map fun m => (m.1, m.2, storedLength e.view (e.length / max 1 x.ways))
  else [(pgaCoord e.target, pgaDpa e.target, storedLength e.view e.length)]

/-- The pieces of a MANAGE packet. -/
def manage (s : State) (dest sub pga : Nat) (payload : Bytes) : Packet :=
  { opcode := 0x0B, dest := dest, src := hereAt s, pga := pga, aux := sub, payload := payload }

/-- Answer a MANAGE operation, with a payload or without one (R358). -/
def manageDone (p : Packet) (payload : Bytes) (s : State) : State :=
  respondTo p 0 payload (rspAux s 0 1 0 (twinRoleAt s (pgaDpa p.pga))) s

/-! ### Freeing home ranges (R66) -/

/-- A home entry returns to free and keeps its partition (R66); a window record goes with it (R311, R329). -/
def freeHome (n : Nat) (s : State) : State :=
  match tfind s.pga.book n with
  | none => s
  | some h =>
    let w := winOf s n
    let s := if h.window && w.state == 3 then finish w.ask 0x510102 stNotWindow [] s else s
    let pinned := (s.car.frames.filter fun p => p.2.pinned && decide (h.base ≤ p.1 * 65536) &&
      decide (p.1 * 65536 < h.base + h.length)).map (·.1)
    let s := wakeFills (each pinned freeFrame s)
    let lost := decide (n ∈ s.ras.lostBook)
    let last := (granulesOf h.base h.length).foldl (fun t g => tset 0 t g (if lost then 65 else h.part + 1)) s.pga.lastPart
    freeEntry n { s with
      pga := { s.pga with
        binders := tdel s.pga.binders n
        drains := tdel s.pga.drains n
        migrates := tdel s.pga.migrates n
        clears := tdel s.pga.clears n
        lastPart := last }
      win := { s.win with recs := tdel s.win.recs n }
      twn := { s.twn with recs := tdel s.twn.recs n } }

/-- The home entry of this node with a DPA base. -/
def homeBased (s : State) (base : Nat) : Option (Nat × BookEntry) :=
  s.pga.book.find? fun p => p.2.kind == 1 && p.2.base == base

/-- Whether a request that a forwarding home passed on is still open (R74, t5): one of this node until its response, one of another node
until the rebind notice is answered (log 123, DEDUCED). -/
def forwardsOpen (s : State) (h : BookEntry) : Bool :=
  let mine := fun (u : TagUse) (pga : Nat) =>
    match u with
    | .mem _ => decide (h.forward ≤ pga) && decide (pga < h.forward + h.length)
    | .rebind => pga == pgaOf s h.base
    | _ => false
  (s.mar.tags.any fun p => p.2.isOpen && mine p.2.use p.2.pga) || (s.mar.waiting.any fun w => mine w.use w.pkt.pga)

/-- A home takes an unreference of a node (R65, R66, R311). A forwarding entry stays while a forwarded request is open (R74, t5). -/
def unreferenceHere (base src : Nat) (s : State) : State :=
  match homeBased s base with
  | none => s
  | some (n, h) =>
    let s := { s with pga := { s.pga with binders := tmod s.pga.binders n fun l => l.erase src } }
    let s := if h.window then
        let w := winOf s n
        setWin n { w with binders := w.binders.erase src } s
      else s
    if h.count ≤ 1 then
      if h.state = 5 && forwardsOpen s h then changeBook n { h with count := 0 } s else freeHome n (setBook n { h with count := 0 } s)
    else
      let s := changeBook n { h with count := h.count - 1 } s
      if h.window && (winOf s n).state == 3 && !decide (src ∈ (winOf s n).binders) then drainContribs 4096 (genAcked n src s) else s

/-- Send an unreference to a home (R65); a twinned range's goes to both twins (R403). -/
def unreference (coord base : Nat) (partner : Option Nat) (s : State) : State :=
  match bothTwins s (coord * 2 ^ 50 + base) partner with
  | some c => originate { manage s coord 2 (coord * 2 ^ 50 + base) [] with twin := true, waypoint := c } .unref 1 2 false s
  | none =>
    if coord = hereAt s then unreferenceHere base (hereAt s) s
    else originate (manage s coord 2 (coord * 2 ^ 50 + base) []) .unref 1 2 false s

/-! ### Grants at the ingress node (R57, R58) -/

/-- Undo a grant (R58, R65): the entry and the set are freed and every home that reserved a range is unreferenced. -/
def failGrant (n st : Nat) (s : State) : State :=
  match tfind s.pga.grants n with
  | none => s
  | some g =>
    let e := bookOf s n
    let s := { s with pga := { s.pga with
      grants := tdel s.pga.grants n
      isets := if e.ilv then tdel s.pga.isets (e.target % 4096) else s.pga.isets } }
    let s := freeEntry n s
    let s := each g.bases (fun p s => unreference (g.homes.getD p.1 0) p.2 none s) s
    finish g.ask (if g.bindOnly then 0x510001 else if g.window then 0x510000 else 0x201000) st [] s

/-- Every home has answered (R57, t3): the decode records are written and the extent is offered to the host. -/
def offerExtent (n : Nat) (s : State) : State :=
  match tfind s.pga.grants n with
  | none => s
  | some g =>
    let e := bookOf s n
    let ms := g.homes.zipIdx.map fun c => (c.1, tget 0 g.bases c.2)
    let first := ms.headD (0, 0)
    let e := if e.ilv then e else { e with target := first.1 * 2 ^ 50 + first.2 }
    let s := if e.ilv then
        let k := e.target % 4096
        { s with pga := { s.pga with isets := tmod s.pga.isets k fun x => { x with members := ms } } }
      else s
    let s := changeBook n e { s with pga := { s.pga with
      grants := tput s.pga.grants n { g with offered := true, due := s.now + msec (rCxlDcAcceptTimeout s), winPga := e.target } } }
    dcEvent e.port e.ld 0 e.region e.base e.length s

/-- The name of a grant in progress: its entry, with the generation that tells it from an earlier grant of the same entry (R54). -/
def grantName (s : State) (n : Nat) : Nat := n + 2 ^ 20 * (bookOf s n).gen

/-- The grant that a name still stands for. -/
def liveGrant (s : State) (k : Nat) : Option Grant :=
  if grantName s (k % 2 ^ 20) = k then tfind s.pga.grants (k % 2 ^ 20) else none

/-- An answer goes to the command journal: firmware-driven commands stop at their current step while Sahtin does not run (R568). -/
def journal (a : FwAnswer) (s : State) : State := { s with fw := { s.fw with journal := s.fw.journal ++ [a] } }

/-- The base with which a home answered a grant or bind (R57, R634). -/
def recordBase (n i st base : Nat) (g : Grant) (s : State) : State :=
  if st = 0 then { s with pga := { s.pga with grants := tput s.pga.grants n { g with bases := tput g.bases i base } } } else s

/-- A home has answered a RESERVE (R57, R58) with its DPA base. The late answer of a grant that has failed is unreferenced. -/
def reserveAnswered (k i coord st base : Nat) (s : State) : State :=
  match liveGrant s k with
  | none => if st = 0 then unreference coord base none s else s
  | some g =>
    let n := k % 2 ^ 20
    let s := recordBase n i st base g s
    if firmwareHeld s then journal (.reserve k i coord st base) s
    else if st != 0 then failGrant n st s
    else if (tput g.bases i base).length = g.homes.length then offerExtent n s else s

/-- A home has answered a WINDOW_BIND of the window at a DPA base with its length (R311). The late answer of a bind that has failed is
unreferenced. -/
def bindAnswered (k coord base st len : Nat) (s : State) : State :=
  match liveGrant s k with
  | none => if st = 0 then unreference coord base none s else s
  | some g =>
    let n := k % 2 ^ 20
    let s := recordBase n 0 st base g s
    if firmwareHeld s then journal (.windowBind k coord base st len) s
    else if st != 0 then failGrant n st s
    else
      let e := bookOf s n
      match lowestLda s e.port e.ld e.region len with
      | none => failGrant n stBadAlign s
      | some a => offerExtent n (setBook n { e with base := a, length := len } s)

/-! ### Clearing a home range (R59, R469) and reserving one -/

/-- Answer a RESERVE or MIGRATE_RESERVE at its home (R358). -/
def answerReserve (c : Clear) (st base : Nat) (s : State) : State :=
  match c.here with
  | some (n, i) => reserveAnswered n i (hereAt s) st base s
  | none =>
    inject { opcode := 0x42, dest := c.src, src := hereAt s, tag := c.tag,
             payload := packLE [(2, st), (6, 0), (8, base)] } 2 s

/-- Set up a window's record from the parameters of R335 (R310, R330). -/
def windowFrom (b : Bytes) (binder : Nat) : Win :=
  { inFmt := leAt b 0 1, outFmt := leAt b 1 1, elements := leAt b 2 8, expected := leAt b 10 4, notify := leAt b 14 8,
    binders := [binder] }

/-- Pin a frame for a block of a window (R166); one whose set has none waits for a victim (R163). Answers whether it is pinned. -/
def pinBlock (b part : Nat) (s : State) : Bool × State :=
  let s := if (frameOf s b).isSome then s
    else
      let s := if hasRoom s b then s else makeRoom b s
      if hasRoom s b then startFill b part 7 s else s
  match frameOf s b with
  | some f => (true, setFrame b { f with pinned := true } s)
  | none => (false, s)

/-- Pin what is still to be pinned of the blocks of a window; answers those that wait. -/
def pinBlocks (part : Nat) : List Nat → State → List Nat × State
  | [], s => ([], s)
  | b :: bs, s =>
    let a := pinBlock b part s
    let r := pinBlocks part bs a.2
    (if a.1 then r.1 else b :: r.1, r.2)

/-- A grant is complete (R57, t3): its entry is active, its window, if it is one, has its frames. -/
def grantReady (n : Nat) (c : Clear) (s : State) : State :=
  answerReserve c 0 (bookOf s n).base { s with pga := { s.pga with clears := tdel s.pga.clears n } }

/-- Windows that wait for frames take them, and are then answered (R163, R166). -/
def pumpPins (s : State) : State :=
  each (s.pga.clears.filter fun p => p.2.pins.isSome) (fun p s =>
    let r := pinBlocks (bookOf s p.1).part (p.2.pins.getD []) s
    if r.1.isEmpty then grantReady p.1 p.2 r.2
    else { r.2 with pga := { r.2.pga with clears := tput r.2.pga.clears p.1 { p.2 with pins := some r.1 } } }) s

/-- The clear of a home range has ended (R57, t2): the entry is active with REFS 1, or stays granting for a migration. A window of a node in
tiered mode is answered when its blocks have their frames (R166). -/
def clearFinished (n : Nat) (s : State) : State :=
  match tfind s.pga.clears n with
  | none => s
  | some c =>
    let h := bookOf s n
    let gs := granulesOf h.base h.length
    let s := { s with pga := { s.pga with
      clears := tdel s.pga.clears n
      lastPart := gs.foldl (fun t g => tset 0 t g (h.part + 1)) s.pga.lastPart
      clean := if c.sweep then gs.foldl (fun t g => tset false t g true) s.pga.clean else s.pga.clean } }
    let src := if c.here.isSome then hereAt s else c.src
    if c.migrate then answerReserve c 0 h.base s
    else
      let s := entryState n 2 (setBook n { h with count := 1 } s)
      let s := { s with pga := { s.pga with binders := tput s.pga.binders n [src] } }
      let s := if h.window then setWin n (windowFrom c.params src) s else s
      if h.window && s.car.tiered then
        let blocks := (List.range (h.length / 65536)).map (· + h.base / 65536)
        pumpPins { s with pga := { s.pga with clears := tput s.pga.clears n { c with pins := some blocks } } }
      else answerReserve c 0 h.base s

/-- The blocks a home has something cached for in a DPA range. -/
def cachedBlocks (s : State) (base len : Nat) : List Nat :=
  (s.car.frames.filter fun p => decide (base / 65536 ≤ p.1) && decide (p.1 * 65536 < base + len)).map (·.1)

/-- The clear itself starts (R59): a metadata pass in flat mode, dropped frames and cleared map units in tiered mode. -/
def beginClear (n : Nat) (s : State) : State :=
  match tfind s.pga.clears n with
  | none => s
  | some c =>
    let h := bookOf s n
    let s := { s with pga := { s.pga with clears := tput s.pga.clears n { c with ready := true, recalls := [] } } }
    if s.car.tiered then
      clearUnits (h.base / 65536) (h.length / 65536) 1 n (each (cachedBlocks s h.base h.length) dropBlock s)
    else s

/-- A recall of a range Sweep has ended (R467, t1). -/
def clearRecallEnded (n rid : Nat) (s : State) : State :=
  match tfind s.pga.clears n with
  | none => s
  | some c =>
    let rest := c.recalls.filter (· != rid)
    let s := { s with pga := { s.pga with clears := tput s.pga.clears n { c with recalls := rest } } }
    if rest.isEmpty && !c.ready then beginClear n s else s

/-- Whether a range must be swept before it is granted to a partition (R67, R470). -/
def needsSweep (s : State) (base len part : Nat) : Bool :=
  (granulesOf base len).any fun g =>
    let l := tget 0 s.pga.lastPart g
    l != 0 && l != part + 1 && !tget false s.pga.clean g

/-- The blocks of the windows that this home has granted or is granting: each has its pinned frame, or will have (R166). -/
def windowBlocks (s : State) : Nat := s.pga.book.foldl (fun a p => if p.2.kind = 1 && p.2.window then a + p.2.length / 65536 else a) 0

/-- A home reserves a range (R57, R58): refused with a status, or cleared and then answered. -/
def reserveHere (c : Clear) (len part : Nat) (window : Bool) (s : State) : State :=
  let st := (partOf s part).state
  if st = 0 then answerReserve c stNoKeys 0 s
  else if st = 3 then answerReserve c stBusy 0 s
  else match lowestRange s len with
    | none => answerReserve c stNoCapacity 0 s
    | some base =>
      let pins := windowBlocks s + len / 65536
      if window && s.car.tiered && decide (rCarPinLimit s * totalFrames s < pins * 100) then answerReserve c stNoCapacity 0 s
      else match allocEntry { kind := 1, state := 1, part := part, window := window, base := base, length := len } s with
        | none => answerReserve c stBookFull 0 s
        | some (n, s) =>
          let sweep := needsSweep s base len part
          let s := { s with pga := { s.pga with clears := tput s.pga.clears n { c with sweep := sweep } } }
          let lines := if sweep then
              (s.ldg.entries.filter fun p => decide (base / 64 ≤ p.1) && decide (p.1 * 64 < base + len)).map (·.1)
            else []
          let a := recallLines (.clear n) 2 true lines s
          if a.1.isEmpty then beginClear n a.2
          else { a.2 with pga := { a.2.pga with clears := tput a.2.pga.clears n { c with sweep := sweep, recalls := a.1 } } }

/-- GRANT_CLEAR_DONE (R59): the metadata pass over a newly granted range of a flat-mode home has ended. -/
def execGrantClearDone (entry : Nat) (s : State) : Host.Outcome State Fault Refusal :=
  .next <| match tfind s.pga.clears entry with
  | none => s
  | some c =>
    if !c.ready || s.car.tiered || firmwareHeld s then s
    else
      let h := bookOf s entry
      clearFinished entry (clearRange (h.base / 64) ((h.base + h.length) / 64) s)

/-! ### PGA_GRANT (R57, R633) -/

/-- What a grant asks for (R633). -/
structure GrantArg where
  port : Nat := 0
  ld : Nat := 0
  region : Nat := 0
  part : Nat := 0
  read : Bool := false
  write : Bool := false
  view : Nat := 0
  ways : Nat := 1
  length : Nat := 0
  granule : Nat := 0
  members : List Nat := []
  deriving DecidableEq, Repr

/-- The argument record of R633, or none when a field is out of range or a reserved one is not zero. -/
def grantArg (s : State) (b : Bytes) : Option GrantArg :=
  let ways := leAt b 6 1
  let g := leAt b 16 8
  let ms := (List.range 16).map fun i => leAt b (24 + 2 * i) 2
  let mine := ms.take ways
  let a : GrantArg := { port := leAt b 0 1, ld := leAt b 1 1, region := leAt b 2 1, part := leAt b 3 1,
                        read := bitOf (leAt b 4 1) 0, write := bitOf (leAt b 4 1) 1, view := leAt b 5 1, ways := ways,
                        length := leAt b 8 8, granule := g, members := mine }
  let ok := decide (a.port < 24) && decide (a.ld < 16) && decide (a.region < 8) && decide (a.part < 64) &&
    decide (leAt b 4 1 < 4) && decide (a.view ≤ 9) && (ways == 1 || ways == 2 || ways == 4 || ways == 8 || ways == 16) &&
    leAt b 7 1 == 0 && fromLE ((b.drop 56).take 8) == 0 && (mine.all fun c => inTorus s c) &&
    ((ms.drop ways).all fun c => c == 0) &&
    (if ways = 1 then g == 0 else decide (65536 ≤ g) && decide (g ≤ 2 ^ 30) && g == 2 ^ g.log2)
  if ok then some a else none

/-- Send a RESERVE to one home of a grant (R57, t1), while the grant is still in progress. -/
def sendReserve (n i home len part flags : Nat) (params : Bytes) (s : State) : State :=
  if (tfind s.pga.grants n).isNone then s
  else if home = hereAt s then reserveHere { here := some (grantName s n, i), params := params } len part (bitOf flags 0) s
  else
    originate (manage s home 1 0 (packLE [(8, len), (1, part), (1, flags), (6, 0)] ++ params)) (.reserve (grantName s n) i) 1 2 false s

/-- Steps t0 and t1 of a grant (R57) after its checks. -/
def startGrant (q : Ask) (key : Nat) (a : GrantArg) (len share : Nat) (window : Bool) (params : Bytes) (s : State) : State :=
  if (tdiOf s (ldKey a.port a.ld)).part != a.part then finish q key stWrongPartition [] s
  else match lowestLda s a.port a.ld a.region len with
    | none => finish q key stBadAlign [] s
    | some lda =>
      let iset := if a.ways = 1 then some 0 else tfresh s.pga.isets (s.pga.isets.length + 1) 0
      match iset with
      | none => finish q key stIsetFull [] s
      | some k =>
        if a.ways != 1 && 4096 ≤ k then finish q key stIsetFull [] s
        else
          let e : BookEntry := { kind := 2, state := 1, part := a.part, read := a.read, write := a.write, view := a.view,
                                 ilv := a.ways != 1, base := lda, length := len, target := if a.ways = 1 then 0 else k,
                                 port := a.port, ld := a.ld, region := a.region, isWin := window }
          match allocEntry e s with
          | none => finish q key stBookFull [] s
          | some (n, s) =>
            let s := { s with pga := { s.pga with
              grants := tput s.pga.grants n { ask := q, homes := a.members, due := s.now + msec (8 * rLdgTimeout s), window := window }
              isets := if a.ways = 1 then s.pga.isets
                else tput s.pga.isets k { ways := a.ways, granule := a.granule, members := a.members.map fun c => (c, 0) } } }
            let flags := b2n window + 2 * b2n (a.ways != 1)
            each a.members.zipIdx (fun m s => sendReserve n m.2 m.1 share a.part flags params s) s

/-- PGA_GRANT (R57, R58, R633): an extent is granted and bound into a region. A LENGTH of 0 is BAD_VALUE (log 124, DESIGN CHOICE). -/
def execPgaGrant (q : Ask) (arg : Bytes) (s : State) : Host.Outcome State Fault Refusal :=
  .next <| ask q 1 0x201000 true (fun _ s =>
    match (if arg.length = 64 then grantArg s arg else none) with
    | none => finish q 0x201000 stBadValue [] s
    | some a =>
      if a.length = 0 then finish q 0x201000 stBadValue [] s
      else if a.length % (a.ways * 2 ^ 26) != 0 || a.length % (a.ways * viewMultiple a.view) != 0 then
        finish q 0x201000 stBadAlign [] s
      else startGrant q 0x201000 a a.length (storedLength a.view (a.length / a.ways)) false [] s) s

/-- RESERVE_TIMEOUT (R58): a home has not answered within 8 × LDG_TIMEOUT, and the grant fails. -/
def execReserveTimeout (entry : Nat) (s : State) : Host.Outcome State Fault Refusal :=
  .next <| match tfind s.pga.grants entry with
  | some g => if !g.offered && decide (g.due ≤ s.now) && !firmwareHeld s then failGrant entry stUnreachable s else s
  | none => s

/-- DC_ACCEPT_TIMEOUT (R96): the host has not answered the offer, and the grant completes with REJECTED. -/
def execDcAcceptTimeout (entry : Nat) (s : State) : Host.Outcome State Fault Refusal :=
  .next <| match tfind s.pga.grants entry with
  | some g => if g.offered && decide (g.due ≤ s.now) && !firmwareHeld s then failGrant entry stRejected s else s
  | none => s

/-- The host accepts an offered extent (R57, t5): the binding is active and the command completes. -/
def acceptGrant (n : Nat) (s : State) : State :=
  match tfind s.pga.grants n with
  | none => s
  | some g =>
    let s := entryState n 2 { s with pga := { s.pga with grants := tdel s.pga.grants n } }
    let body := toLE 4 n ++ (if g.window && !g.bindOnly then toLE 8 (bookOf s n).target else [])
    finish g.ask (if g.bindOnly then 0x510001 else if g.window then 0x510000 else 0x201000) stOk body s

/-! ### Windows (R310, R311) -/

/-- WIN_GRANT (R310): a window range is granted with its record. -/
def execWinGrant (q : Ask) (arg : Bytes) (s : State) : Host.Outcome State Fault Refusal :=
  .next <| ask q 1 0x510000 true (fun _ s =>
    match (if arg.length = 86 then grantArg s (arg.take 64) else none) with
    | none => finish q 0x510000 stBadValue [] s
    | some a =>
      let p := arg.drop 64
      let inF := leAt p 0 1
      let outF := leAt p 1 1
      let elems := leAt p 2 8
      let notify := leAt p 14 8
      if a.ways != 1 || a.length != 0 then finish q 0x510000 stBadValue [] s
      else if a.view != 0 then finish q 0x510000 stViewConflict [] s
      else if !windowFormats inF outF then finish q 0x510000 stBadFormat [] s
      else if elems = 0 || elems % 64 != 0 || 2 ^ 36 < elems then finish q 0x510000 stBadLength [] s
      else if leAt p 10 4 = 0 then finish q 0x510000 stBadValue [] s
      else if notify % 8 != 0 then finish q 0x510000 stBadAlign [] s
      else if 2 ^ 62 ≤ notify || !inTorus s (pgaCoord notify) then finish q 0x510000 stBadValue [] s
      else
        let len := windowLength inF outF elems
        startGrant q 0x510000 a len len true (p ++ zeros 2) s) s

/-- A window's home takes a bind (R311): the status, or the range's length. -/
def windowBindHere (base part src : Nat) (s : State) : Nat × Nat × State :=
  match homeBased s base with
  | none => (stNotWindow, 0, s)
  | some (n, h) =>
    if h.window && 4 ≤ h.state then (stBusy, 0, s)
    else if !h.window || h.state != 2 then (stNotWindow, 0, s)
    else if h.part != part then (stWrongPartition, 0, s)
    else if (winOf s n).state = 3 then (stBusy, 0, s)
    else
      let s := changeBook n { h with count := h.count + 1 } s
      let w := winOf s n
      let s := setWin n { w with binders := src :: w.binders } s
      (0, h.length, { s with pga := { s.pga with binders := tmod s.pga.binders n fun l => src :: l } })

/-- WIN_BIND (R311): an existing window is bound into a region of a logical device of this node. -/
def execWinBind (q : Ask) (arg : Bytes) (s : State) : Host.Outcome State Fault Refusal :=
  .next <| ask q 1 0x510001 true (fun _ s =>
    let pga := leAt arg 0 8
    let w := leAt arg 8 2
    let perms := leAt arg 10 1
    let port := bits w 0 5
    let ld := bits w 5 4
    if arg.length != 11 || 2 ^ 62 ≤ pga || !inTorus s (pgaCoord pga) || 24 ≤ port || 4096 ≤ w || 4 ≤ perms then
      finish q 0x510001 stBadValue [] s
    else
      let part := (tdiOf s (ldKey port ld)).part
      if 64 ≤ part then finish q 0x510001 stWrongPartition [] s
      else
        let e : BookEntry := { kind := 2, state := 1, part := part, read := bitOf perms 0, write := bitOf perms 1,
                               target := pga, port := port, ld := ld, region := bits w 9 3, isWin := true }
        match allocEntry e s with
        | none => finish q 0x510001 stBookFull [] s
        | some (n, s) =>
          let g : Grant := { ask := q, homes := [pgaCoord pga], due := s.now + msec (8 * rLdgTimeout s), window := true,
                             bindOnly := true, winPga := pga }
          let s := { s with pga := { s.pga with grants := tput s.pga.grants n g } }
          let p := manage s (pgaCoord pga) 4 pga (packLE [(1, part), (7, 0)])
          match partnerAt s pga with
          | some c => originate { p with twin := true, waypoint := c } (.windowBind (grantName s n)) 1 2 false s
          | none =>
            if pgaCoord pga = hereAt s then
              let a := windowBindHere (pgaDpa pga) part (hereAt s) s
              bindAnswered (grantName a.2.2 n) (hereAt s) (pgaDpa pga) a.1 a.2.1 a.2.2
            else originate p (.windowBind (grantName s n)) 1 2 false s) s

/-! ### Revokes (R61 to R66, R97, R98) -/

/-- The home recalls the lines of a range that the hosts of a logical device of a node hold (R63). Answers the recalls. -/
def recallBehind (id base len coord port ld : Nat) (s : State) : List Nat × State :=
  let hit := s.ldg.entries.filter fun p => decide (base / 64 ≤ p.1) && decide (p.1 * 64 < base + len) &&
    p.2.holders.any fun h => behind coord port [ld] h.1
  recallThose (.revoke id) 2 false (hit.map fun p => (p.1, p.2.holders.filter fun h => behind coord port [ld] h.1)) s

/-- A home has answered REVOKE_RECALL (R63). -/
def revokeAnswered (n home : Nat) (s : State) : State :=
  match tfind s.pga.revokes n with
  | some r => { s with pga := { s.pga with revokes := tput s.pga.revokes n { r with homes := r.homes.filter (· != home) } } }
  | none => s

/-- The recalls of a REVOKE_RECALL have ended: its ingress node is answered. -/
def answerRevoke (r : RevokeHome) (s : State) : State :=
  if r.src = hereAt s then revokeAnswered r.tag (hereAt s) s
  else inject { opcode := 0x42, dest := r.src, src := hereAt s, tag := r.tag } 2 s

/-- A home starts the recalls of a REVOKE_RECALL (R63). -/
def revokeRecallHere (src tag base len port ld : Nat) (s : State) : State :=
  let n := freshId s
  let a := recallBehind n.1 base len src port ld n.2
  let r : RevokeHome := { src := src, tag := tag, recalls := a.1 }
  if a.1.isEmpty then answerRevoke r a.2
  else { a.2 with pga := { a.2.pga with revokeHome := tput a.2.pga.revokeHome n.1 r } }

/-- A recall of a revoke has ended at its home (R63). -/
def revokeRecallEnded (id rid : Nat) (s : State) : State :=
  match tfind s.pga.revokeHome id with
  | none => s
  | some r =>
    let r := { r with recalls := r.recalls.filter (· != rid) }
    if r.recalls.isEmpty then answerRevoke r { s with pga := { s.pga with revokeHome := tdel s.pga.revokeHome id } }
    else { s with pga := { s.pga with revokeHome := tput s.pga.revokeHome id r } }

/-- Send REVOKE_RECALL for one piece of a binding's range (R63, R358). -/
def sendRevokeRecall (n : Nat) (e : BookEntry) (x : Nat × Nat × Nat) (s : State) : State :=
  if x.1 = hereAt s then revokeRecallHere (hereAt s) n x.2.1 x.2.2 e.port e.ld s
  else
    originate (manage s x.1 10 (x.1 * 2 ^ 50 + x.2.1) (packLE [(8, x.2.2), (1, e.port), (1, e.ld), (6, 0)]))
      (.revokeRecall n x.1) 1 2 false s

/-- The revoke point of a binding (R61, R63). -/
def revokePoint (n : Nat) (qs : List Ask) (s : State) : State :=
  let e := bookOf s n
  let ps := piecesOf s e
  let s := entryState n 3 { s with pga := { s.pga with
    releases := tdel s.pga.releases n
    revokes := tput s.pga.revokes n { asks := qs, homes := ps.map (·.1), resend := s.now + msec (rLdgTimeout s) } } }
  each ps (sendRevokeRecall n e) s

/-- Whether a revoke of an entry is refused: it is not active, or one of its ranges here is migrating, forwarding or sweeping
(R66, R76, R466). -/
def revokeBusy (s : State) (e : BookEntry) : Bool :=
  e.kind == 0 || e.state != 2 ||
  (e.kind == 2 && (piecesOf s e).any fun x => x.1 == hereAt s &&
    (match homeAt s x.2.1 with | some (_, h) => 4 ≤ h.state | none => false))

/-- PGA_REVOKE without force (R97): a Release Capacity event asks the host, and the binding stays active. -/
def execPgaRevoke (q : Ask) (entry : Nat) (s : State) : Host.Outcome State Fault Refusal :=
  .next <| ask q 1 0x201100 true (fun _ s =>
    let e := bookOf s entry
    if revokeBusy s e || (tfind s.pga.releases entry).isSome then finish q 0x201100 stBusy [] s
    else if e.kind = 1 then finish q 0x201100 stBadValue [] s
    else
      dcEvent e.port e.ld 1 e.region e.base e.length { s with pga := { s.pga with
        releases := tput s.pga.releases entry (q, s.now + msec (rCxlDcReleaseTimeout s)) } }) s

/-- PGA_REVOKE with force (R66, R98): the revoke point of a binding at once, or a home entry freed. -/
def execPgaRevokeForced (q : Ask) (entry : Nat) (s : State) : Host.Outcome State Fault Refusal :=
  .next <| ask q 1 0x201100 true (fun _ s =>
    let e := bookOf s entry
    if revokeBusy s e then finish q 0x201100 stBusy [] s
    else if e.kind = 1 then finish q 0x201100 stOk [] (freeHome entry (setBook entry { e with count := 0 } s))
    else
      let waiting := match tfind s.pga.releases entry with | some (old, _) => [old] | none => []
      revokePoint entry (waiting ++ [q]) (dcEvent e.port e.ld 2 e.region e.base e.length s)) s

/-- DC_RELEASE_TIMEOUT (R97): the host has not released, the command completes with TIMEOUT and the binding stays active. -/
def execDcReleaseTimeout (entry : Nat) (s : State) : Host.Outcome State Fault Refusal :=
  .next <| match tfind s.pga.releases entry with
  | some (q, due) =>
    if due ≤ s.now && !firmwareHeld s then finish q 0x201100 stTimeout [] { s with pga := { s.pga with releases := tdel s.pga.releases entry } }
    else s
  | none => s

/-- REVOKE_RECALL_RESEND (R63): the recall request goes again to each home that has not answered. -/
def execRevokeRecallResend (entry : Nat) (s : State) : Host.Outcome State Fault Refusal :=
  .next <| match tfind s.pga.revokes entry with
  | some r =>
    if s.now < r.resend || r.homes.isEmpty || firmwareHeld s then s
    else
      let e := bookOf s entry
      let s := { s with pga := { s.pga with revokes := tput s.pga.revokes entry { r with resend := s.now + msec (rLdgTimeout s) } } }
      each ((piecesOf s e).filter fun x => decide (x.1 ∈ r.homes)) (sendRevokeRecall entry e) s
  | none => s

/-- REVOKE_COMPLETE (R64, R65): with the count at zero and every recall ended the binding is freed, its homes are unreferenced,
the command completes and a Capacity Released event is raised. -/
def execRevokeComplete (entry : Nat) (s : State) : Host.Outcome State Fault Refusal :=
  .next <| match tfind s.pga.revokes entry with
  | none => s
  | some r =>
    let e := bookOf s entry
    if e.count != 0 || !(r.homes.isEmpty || decide (entry ∈ s.ras.lostBook)) || firmwareHeld s then s
    else
      let ps := piecesOf s e
      let s := { s with pga := { s.pga with
        revokes := tdel s.pga.revokes entry
        isets := if e.ilv then tdel s.pga.isets (e.target % 4096) else s.pga.isets } }
      let s := freeEntry entry s
      let s := each ps (fun x s => unreference x.1 x.2.1 e.partner s) s
      let s := each r.asks (fun q s => finish q 0x201100 stOk [] s) s
      dcEvent e.port e.ld 5 e.region e.base e.length s

/-! ### Migration (R74 to R76) -/

/-- The blocks of a home range that hold anything: every other block reads as zeros at both homes. -/
def heldBlocks (s : State) (h : BookEntry) : List Nat :=
  let lo := h.base / 65536
  let hi := (h.base + h.length) / 65536
  if s.car.tiered then
    ascending (cachedBlocks s h.base h.length ++
      (s.stk.map.filter fun p => p.2.valid && decide (lo ≤ p.1) && decide (p.1 < hi)).map (·.1))
  else
    ascending ((s.mem.info.filter fun p => decide (lo ≤ p.1 / 1024) && decide (p.1 / 1024 < hi)).map (·.1 / 1024))

def setMigrate (n : Nat) (m : Migrate) (s : State) : State :=
  { s with pga := { s.pga with migrates := tput s.pga.migrates n m } }

/-- The lines of a block as one read: data, and which lines are poisoned or cannot be read (log 59, DESIGN CHOICE). -/
def readBlockLines (part : Nat) : List Nat → State → (Bytes × List Nat) × State
  | [], s => (([], []), s)
  | l :: ls, s =>
    let a := readDpa l part s
    let b := readBlockLines part ls a.2
    ((((if a.1.status < 2 then a.1.data else zeros 64) ++ b.1.1),
      if a.1.status = 0 then b.1.2 else l % 1024 :: b.1.2), b.2)

/-- Send a block to the new home: 64 CHUNK_WRITE packets under one tag in the sweep class, poison with each line (R74, log 59, DESIGN CHOICE). -/
def sendBlock (n : Nat) (h : BookEntry) (m : Migrate) (b : Nat) (s : State) : State :=
  let a := readBlockLines h.part ((List.range 1024).map (· + b * 1024)) s
  let s := a.2
  match freeTag s false with
  | none => setMigrate n { m with todo := m.todo ++ [b] } s
  | some t =>
    let pga := m.dest * 2 ^ 50 + m.destBase + (b * 65536 - h.base)
    let s := setMigrate n { m with copying := m.copying ++ [b] } s
    openTag t { manage s m.dest 0 pga a.1.1 with opcode := 0x03, partition := h.part, host := a.1.2.foldl setBit 0 }
      (.migrateData n b) 1 7 false s

/-- Send the blocks that are due: one that is not in DRAM is filled first. -/
def migrateBlocks (n : Nat) (s : State) : State :=
  match tfind s.pga.migrates n with
  | none => s
  | some m =>
    let h := bookOf s n
    each m.todo (fun b s =>
      match tfind s.pga.migrates n with
      | none => s
      | some m =>
        if lineReady s (b * 1024) false then sendBlock n h { m with todo := m.todo.filter (· != b) } b s
        else if (frameOf s b).isSome then s
        else
          let s := if hasRoom s b then s else makeRoom b s
          if hasRoom s b then startFill b h.part 7 s else s) s

/-- The tracked lines of a home range. -/
def trackedIn (s : State) (h : BookEntry) : List Nat :=
  (s.ldg.entries.filter fun p => decide (h.base / 64 ≤ p.1) && decide (p.1 * 64 < h.base + h.length)).map (·.1)

/-- Whether a request to a home range was accepted and has not been completed. -/
def rangeOpen (s : State) (h : BookEntry) : Bool :=
  s.ldg.txns.any fun t => t.2.lines.any fun l => decide (h.base / 64 ≤ l) && decide (l * 64 < h.base + h.length)

/-- Recall every held line of a migrating range (R74, t2). -/
def migrateRecalls (n : Nat) (s : State) : State :=
  let a := recallLines (.migrate n) 2 false (trackedIn s (bookOf s n)) s
  match tfind a.2.pga.migrates n with
  | none => a.2
  | some m => setMigrate n { m with recalls := a.1 } a.2

/-- The blocked phase of a migration goes on (R74, t2): once the requests accepted before have completed and the lines they left held are
recalled, the blocks written meanwhile are copied and the handover is sent. -/
def migrateAdvance (n : Nat) (s : State) : State :=
  match tfind s.pga.migrates n with
  | none => s
  | some m =>
    if firmwareHeld s then s
    else if m.phase != 2 || !m.recalls.isEmpty || rangeOpen s (bookOf s n) then migrateBlocks n s
    else if !(trackedIn s (bookOf s n)).isEmpty then migrateRecalls n s
    else
      let s := migrateBlocks n (setMigrate n { m with todo := m.todo ++ m.marked, marked := [] } s)
      match tfind s.pga.migrates n with
      | none => s
      | some m =>
        if m.todo.isEmpty && m.copying.isEmpty && !m.sent then
          originate (manage s m.dest 6 (m.dest * 2 ^ 50 + m.destBase) (packLE [(4, (bookOf s n).count), (4, 0)])) (.handover n)
            1 7 false (setMigrate n { m with sent := true } s)
        else s

/-- A recall of a migration has ended (R74, t2). -/
def migrateRecallEnded (n rid : Nat) (s : State) : State :=
  match tfind s.pga.migrates n with
  | none => s
  | some m => migrateAdvance n (setMigrate n { m with recalls := m.recalls.filter (· != rid) } s)

/-- The new home has a copied block. -/
def migrateCopied (n b : Nat) (s : State) : State :=
  match tfind s.pga.migrates n with
  | none => s
  | some m => migrateAdvance n (setMigrate n { m with copying := m.copying.filter (· != b) } s)

/-- A migration ends without a move: the range is active again and requests that waited are served. -/
def migrateFails (n st : Nat) (s : State) : State :=
  match tfind s.pga.migrates n with
  | none => s
  | some m =>
    let s := entryState n 2 { s with pga := { s.pga with migrates := tdel s.pga.migrates n } }
    finish m.ask 0x201200 st [] (each m.held homeRequest s)

/-- The new home has reserved its range (R74, t0), or refused. -/
def migrateReserved (n st base : Nat) (s : State) : State :=
  match tfind s.pga.migrates n with
  | none => s
  | some m =>
    if firmwareHeld s then journal (.migrateReserve n st base) s
    else if st != 0 then migrateFails n st s
    else migrateBlocks n (setMigrate n { m with phase := 1, destBase := base, todo := heldBlocks s (bookOf s n) } s)

/-- The new home is active (R74, t3): forwarding starts with its drain window, and the requests that waited go on. -/
def migrateHandedOver (n : Nat) (s : State) : State :=
  match tfind s.pga.migrates n with
  | none => s
  | some m =>
    if firmwareHeld s then journal (.handover n) s else
    let pga := m.dest * 2 ^ 50 + m.destBase
    let s := entryState n 5 (setBook n { bookOf s n with forward := pga } s)
    let s := { s with pga := { s.pga with
      migrates := tdel s.pga.migrates n
      drains := tput s.pga.drains n (s.now + msec (rPgaDrainWindow s)) } }
    finish m.ask 0x201200 stOk (toLE 8 pga) (each m.held homeRequest s)

/-- A migration whose new home does not answer ends without a move; a range already reserved there is released (R74, R578). -/
def migrationLost (n st : Nat) (s : State) : State :=
  match tfind s.pga.migrates n with
  | none => s
  | some m =>
    if firmwareHeld s then journal (.lost n st) s
    else
      let s := if m.phase = 0 then s
        else originate (manage s m.dest 7 (m.dest * 2 ^ 50 + m.destBase) []) .migrateRelease 1 2 false s
      migrateFails n st s

/-- A command goes on with an answer of its journal (R568). -/
def useAnswer (a : FwAnswer) (s : State) : State :=
  match a with
  | .reserve k i coord st base => reserveAnswered k i coord st base s
  | .windowBind k coord base st len => bindAnswered k coord base st len s
  | .migrateReserve n st base => migrateReserved n st base s
  | .handover n => migrateHandedOver n s
  | .lost n st => migrationLost n st s

/-- The answers of the journal are used; `which` tells those that are. -/
def replayJournal (which : FwAnswer → Bool) (s : State) : State :=
  each (s.fw.journal.filter which) useAnswer { s with fw := { s.fw with journal := [] } }

/-- PGA_MIGRATE (R74, R76): the migration of an untwinned home range that is no window starts. -/
def execPgaMigrate (q : Ask) (entry coord : Nat) (s : State) : Host.Outcome State Fault Refusal :=
  .next <| ask q 1 0x201200 true (fun _ s =>
    let h := bookOf s entry
    if h.kind = 2 || !inTorus s coord || coord = hereAt s then finish q 0x201200 stBadValue [] s
    else if h.kind = 0 || h.state != 2 then finish q 0x201200 stBusy [] s
    else if h.window || h.twin != 0 then finish q 0x201200 stViewConflict [] s
    else
      let s := entryState entry 4 (setMigrate entry { ask := q, dest := coord } s)
      originate (manage s coord 5 0 (packLE [(8, h.length), (1, h.part), (7, 0)])) (.migrateReserve entry) 1 2 false s) s

/-- MIGRATE_COPY_DONE (R74): a copy round has ended; with fewer than 64 blocks marked the range is blocked and recalled, else the
marked blocks are copied again. -/
def execMigrateCopyDone (entry : Nat) (s : State) : Host.Outcome State Fault Refusal :=
  .next <| if firmwareHeld s then s else
    let s := migrateBlocks entry s
    match tfind s.pga.migrates entry with
    | none => s
    | some m =>
      if m.phase != 1 || !m.todo.isEmpty || !m.copying.isEmpty then s
      else if 64 ≤ m.marked.length then migrateBlocks entry (setMigrate entry { m with todo := m.marked, marked := [] } s)
      else
        migrateAdvance entry (migrateRecalls entry (setMigrate entry { m with phase := 2 } s))

/-- The decode records of this node take a new PGA for an old one (R74, t4); each binding that changes unreferences the old home. -/
def rebind (old new len : Nat) (s : State) : State :=
  let hit := fun (pga : Nat) => decide (old ≤ pga) && decide (pga < old + len)
  each (s.pga.book.filter fun p => p.2.kind == 2) (fun p s =>
    let e := p.2
    if e.ilv then
      let k := e.target % 4096
      let x := (tfind s.pga.isets k).getD {}
      let moved := x.members.filter fun m => hit (m.1 * 2 ^ 50 + m.2)
      if moved.isEmpty then s
      else
        let ms := x.members.map fun m =>
          let pga := m.1 * 2 ^ 50 + m.2
          if hit pga then (pgaCoord (new + (pga - old)), pgaDpa (new + (pga - old))) else m
        let s := bookChanged { s with pga := { s.pga with isets := tput s.pga.isets k { x with members := ms } } }
        each moved (fun m s => unreference m.1 m.2 none s) s
    else if hit e.target then
      let s := changeBook p.1 { e with target := new + (e.target - old), partner := none } s
      unreference (pgaCoord e.target) (pgaDpa e.target) none s
    else s) s

/-- The rebinds that this node owes itself as an ingress node whose request was forwarded (R74, t4), migrations whose last requests have
completed, and forwarding entries whose last forwarded request has ended (t5). -/
def pumpMigrates (s : State) : State :=
  if firmwareHeld s then s else
  let s := each s.pga.rebindDue (fun x s => rebind x.1 x.2.1 x.2.2 s) { s with pga := { s.pga with rebindDue := [] } }
  let s := each ((s.pga.migrates.filter fun p => p.2.phase == 2).map (·.1)) migrateAdvance s
  each ((s.pga.book.filter fun p => p.2.kind == 1 && p.2.state == 5 && p.2.count == 0 && !forwardsOpen s p.2).map (·.1)) freeHome s

/-- PGA_REBIND (R74): a node's decode records take the new PGA. -/
def execPgaRebind (q : Ask) (old new length : Nat) (s : State) : Host.Outcome State Fault Refusal :=
  .next <| ask q 1 0x201300 true (fun _ s =>
    if 2 ^ 62 ≤ old || 2 ^ 62 ≤ new then finish q 0x201300 stBadValue [] s
    else finish q 0x201300 stOk [] (rebind old new length s)) s

/-- DRAIN_WINDOW_EXPIRY (R74, R75): the forwarding entry is freed; the bindings still unreferenced are named: DETAIL is the entry, the REFS
left, then the coordinates of the nodes that hold them, as many as 48 B take (log 124, DESIGN CHOICE). -/
def execDrainWindowExpiry (entry : Nat) (s : State) : Host.Outcome State Fault Refusal :=
  .next <| match tfind s.pga.drains entry with
  | none => s
  | some due =>
    if s.now < due || firmwareHeld s then s
    else
      let h := bookOf s entry
      let left := tget [] s.pga.binders entry
      let s := freeHome entry s
      if h.count = 0 then s
      else raise 0x0801 1 (some h.part) (packLE ([(4, entry), (4, h.count)] ++ left.map fun c => (2, c))) s

/-! ### MANAGE packets of the lending book (R358) -/

/-- RESERVE (R57, R358): a home allocates a range, clears it and answers its DPA base. -/
def execReserve (p : Packet) (s : State) : Host.Outcome State Fault Refusal :=
  .next <| if !isManage p 1 then s else accepting p (fun s =>
    reserveHere { src := p.src, tag := p.tag, params := p.payload.drop 16 } (leAt p.payload 0 8) (leAt p.payload 8 1)
      (bitOf (leAt p.payload 9 1) 0) s) s

/-- REBIND_NOTICE (R74): the ingress node's stale binding heals. -/
def execRebindNotice (p : Packet) (s : State) : Host.Outcome State Fault Refusal :=
  .next <| if !isManage p 3 then s else accepting p (fun s =>
    manageDone p [] (rebind p.pga (leAt p.payload 0 8) (leAt p.payload 8 8) s)) s

/-- MIGRATE_RESERVE (R74, t0): the new home allocates a granting entry. -/
def execMigrateReserve (p : Packet) (s : State) : Host.Outcome State Fault Refusal :=
  .next <| if !isManage p 5 then s else accepting p (fun s =>
    reserveHere { src := p.src, tag := p.tag, migrate := true } (leAt p.payload 0 8) (leAt p.payload 8 1) false s) s

/-- MIGRATE_HANDOVER (R74, t3): the new home is active with the REFS of the old one. -/
def execMigrateHandover (p : Packet) (s : State) : Host.Outcome State Fault Refusal :=
  .next <| if !isManage p 6 then s else accepting p (fun s =>
    match homeBased s (pgaDpa p.pga) with
    | some (n, h) =>
      if h.state = 1 then manageDone p [] (entryState n 2 (setBook n { h with count := leAt p.payload 0 4 } s))
      else manageDone p [] s
    | none => manageDone p [] s) s

/-- MIGRATE_RELEASE (R578): the new home frees its granting entry. -/
def execMigrateRelease (p : Packet) (s : State) : Host.Outcome State Fault Refusal :=
  .next <| if !isManage p 7 then s else accepting p (fun s =>
    match homeBased s (pgaDpa p.pga) with
    | some (n, h) => manageDone p [] (if h.state = 1 then freeHome n s else s)
    | none => manageDone p [] s) s

/-- PURGE (R111): every record of the hosts named is removed; a line one of them owned is poisoned. -/
def execPurge (p : Packet) (s : State) : Host.Outcome State Fault Refusal :=
  .next <| if !isManage p 9 then s else accepting p (fun s =>
    let port := leAt p.payload 0 1
    let lds := (List.range 16).filter fun d => bitOf (leAt p.payload 2 2) d
    manageDone p [] (clearHolders (behind p.src port lds) s)) s

/-- REVOKE_RECALL (R63): a home recalls what the hosts of the binding hold and answers when every recall has ended. -/
def execRevokeRecall (p : Packet) (s : State) : Host.Outcome State Fault Refusal :=
  .next <| if !isManage p 10 then s else accepting p (fun s =>
    revokeRecallHere p.src p.tag (pgaDpa p.pga) (leAt p.payload 0 8) (leAt p.payload 8 1) (leAt p.payload 9 1) s) s

end Sys2Proof.Machine
end

