-- ==== Sys2Proof/Machine/ClerkOps.lean ====
section
/-! DEFINITION. Descriptors (R280 to R291), and the records of contexts, jobs and chunks (R273 to R305). -/
namespace Sys2Proof.Machine

/-! ### The descriptor (R280) -/

def dOp (d : Bytes) : Nat := leAt d 0 1
def dSrcFmt (d : Bytes) : Nat := bits (leAt d 0 4) 8 4
def dDstFmt (d : Bytes) : Nat := bits (leAt d 0 4) 12 4
def dChain (d : Bytes) : Bool := bitOf (leAt d 0 4) 16
def dPred (d : Bytes) : Nat := bits (leAt d 0 4) 17 2
def dIrq (d : Bytes) : Bool := bitOf (leAt d 0 4) 19
def dQuiet (d : Bytes) : Bool := bitOf (leAt d 0 4) 20
def dFence (d : Bytes) : Bool := bitOf (leAt d 0 4) 21
def dCounter (d : Bytes) : Bool := bitOf (leAt d 0 4) 22
def dSat (d : Bytes) : Bool := bitOf (leAt d 0 4) 23
def dRtz (d : Bytes) : Bool := bitOf (leAt d 0 4) 24
def dTag (d : Bytes) : Nat := leAt d 4 2
def dLength (d : Bytes) : Nat := leAt d 8 8
def dDst (d : Bytes) : Nat := leAt d 16 8
def dSrc (d : Bytes) : Nat := leAt d 24 8
def dOpa (d : Bytes) : Nat := leAt d 32 8
def dOpb (d : Bytes) : Nat := leAt d 40 8
def dCounterCva (d : Bytes) : Nat := leAt d 48 8
def dLinkValue (d : Bytes) : Nat := leAt d 56 8

/-- Element bytes and index bytes of a GATHER. -/
def gatherE (d : Bytes) : Nat := bits (dOpb d) 0 32
def gatherW (d : Bytes) : Nat := if bitOf (dOpb d) 32 then 8 else 4

/-- An ATOMIC code (R286). -/
def isAtomic (op : Nat) : Bool := decide (8 ≤ op) && decide (op ≤ 15)

/-- An operation that is one home operation (R295). -/
def isHomeOp (op : Nat) : Bool := isAtomic op || op == 0x10 || op == 0x11

/-- Whether a code names an operation. -/
def knownOp (op : Nat) : Bool := decide (op ≤ 5) || isHomeOp op

/-- The fields that R286 requires to be zero are zero. -/
def zeroFields (d : Bytes) : Bool :=
  let op := dOp d
  let src := op == 2 || op == 3 || op == 4 || op == 5 || dSrc d == 0
  let dst := op != 0 || dDst d == 0
  let len := !(op == 0 || isAtomic op) || dLength d == 0
  let opa := op == 1 || op == 4 || (op == 5 && isMx (dSrcFmt d)) || isAtomic op || (op == 0x11 && decide (dOpa d ≤ 1)) ||
    dOpa d == 0
  let opb := op == 4 || (op == 5 && isMx (dDstFmt d)) || op == 15 || dOpb d == 0
  src && dst && len && opa && opb

/-- The formats that R287 and R291 permit. -/
def formatsAllowed (d : Bytes) : Bool :=
  let op := dOp d
  let a := dSrcFmt d
  let b := dDstFmt d
  if op = 5 then decide (1 ≤ a) && decide (a ≤ 13) && decide (1 ≤ b) && decide (b ≤ 13)
  else if isAtomic op then a == 0 && atomicFormat op b
  else a == 0 && b == 0

/-- The checks of R281 when a descriptor is fetched: 0 passed, or the status it completes with. -/
def checkDescriptor (d : Bytes) : Nat :=
  if bits (leAt d 0 4) 25 7 != 0 || leAt d 6 2 != 0 || !knownOp (dOp d) || !zeroFields d ||
     (dOp d == 4 && decide (2 ^ 33 ≤ dOpb d)) || (!dChain d && (dPred d != 0 || dLinkValue d != 0)) ||
     (!dCounter d && dCounterCva d != 0) then 0x0010
  else if !formatsAllowed d then 0x0011
  else if dOp d == 4 && (gatherE d == 0 || decide (65536 < gatherE d) || decide (2 ^ 40 < dLength d * gatherE d)) then 0x0013
  else 0

/-- The largest LENGTH of an operation (R286); APPEND's is checked at its home (R293). -/
def lengthLimit (op : Nat) : Nat :=
  if op = 4 || op = 5 then 2 ^ 36 else if op = 0x11 then 2 ^ 50 else if op = 0x10 then 2 ^ 64 else 2 ^ 40

/-- Bytes of an MX block of a format, scale apart (R287). -/
def mxBlock (code : Nat) : Nat := elemBits code * 4

/-- The byte area of `n` elements from element `e` of an element operand. -/
def elemArea (code base e n : Nat) : Nat × Nat :=
  if isMx code then (base + e / 32 * mxBlock code, ((e + n + 31) / 32 - e / 32) * mxBlock code)
  else (base + e * (elemBits code / 8), n * (elemBits code / 8))

/-- The scale bytes of those elements, for an MX format. -/
def scaleArea (code scales e n : Nat) : List (Nat × Nat) :=
  if isMx code then [(scales + e / 32, (e + n + 31) / 32 - e / 32)] else []

def overlaps (a b : Nat × Nat) : Bool := decide (a.1 < b.1 + b.2) && decide (b.1 < a.1 + a.2)

/-- Whether an element operand is aligned (R288). -/
def elemAligned (code base : Nat) : Bool := if isMx code then base % 8 == 0 else base % (elemBits code / 8) == 0

/-- The checks of R286, R288 and R289 when a descriptor starts: 0 passed, or its status. -/
def startCheck (d : Bytes) : Nat :=
  let op := dOp d
  let n := dLength d
  let a := dSrcFmt d
  let b := dDstFmt d
  if !(op == 0 || isAtomic op) && (n == 0 || decide (lengthLimit op < n)) then 0x0013
  else if (op == 5 && ((n % 32 != 0 && (isMx a || isMx b)) || !elemAligned a (dSrc d) || !elemAligned b (dDst d))) ||
     (isAtomic op && dDst d % (elemBits b / 8) != 0) || (op == 0x10 && dDst d % 64 != 0) then 0x0012
  else if op == 2 && overlaps (dSrc d, n) (dDst d, n) then 0x0014
  else if op == 5 && ((elemArea a (dSrc d) 0 n :: scaleArea a (dOpa d) 0 n).any fun x =>
      (elemArea b (dDst d) 0 n :: scaleArea b (dOpb d) 0 n).any fun y => overlaps x y) then 0x0014
  else 0

/-! ### Chunks of a descriptor (R295) -/

/-- The destination bytes that pieces are counted over: base and length. -/
def chunkSpan (d : Bytes) : Nat × Nat :=
  let op := dOp d
  if op = 4 then (dDst d, dLength d * gatherE d)
  else if op = 5 then elemArea (dDstFmt d) (dDst d) 0 (dLength d)
  else (dDst d, dLength d)

/-- Bytes that stay in one piece: a block of an MX destination, else one byte. -/
def chunkUnit (d : Bytes) : Nat := if dOp d = 5 && isMx (dDstFmt d) then mxBlock (dDstFmt d) else 1

/-- How many chunks a descriptor forms (R295). -/
def chunkCountOf (d : Bytes) : Nat :=
  if dOp d = 0 then 0
  else if isHomeOp (dOp d) then 1
  else
    let x := chunkSpan d
    let last := x.1 + (x.2 - 1) / chunkUnit d * chunkUnit d
    last / 65536 - x.1 / 65536 + 1

/-- Chunk `k`: first destination byte and count, or for CONVERT first element and count. -/
def chunkRange (d : Bytes) (k : Nat) : Nat × Nat :=
  if isHomeOp (dOp d) then (0, dLength d)
  else
    let x := chunkSpan d
    let u := chunkUnit d
    let lo := (x.1 / 65536 + k) * 65536 - x.1
    let hi := min x.2 ((x.1 / 65536 + k + 1) * 65536 - x.1)
    let lo := if k = 0 then 0 else lo
    if dOp d = 5 then
      let first := (lo + u - 1) / u * u
      let last := min x.2 ((hi + u - 1) / u * u)
      if isMx (dDstFmt d) then (first / u * 32, (last - first) / u * 32)
      else (lo / (elemBits (dDstFmt d) / 8), (hi - lo) / (elemBits (dDstFmt d) / 8))
    else (lo, hi - lo)

/-- The offset of a chunk in units of LENGTH (R299). -/
def chunkOffset (d : Bytes) (c : Chunk) : Nat :=
  if isHomeOp (dOp d) then 0 else if dOp d = 4 then c.lo / gatherE d else c.lo

/-- Bytes from a CVA among the source lines that have come. -/
def bufBytes (buf : Tbl Bytes) (cva n : Nat) : Bytes :=
  (((List.range ((cva % 64 + n + 63) / 64)).flatMap fun i => (tfind buf (cva / 64 + i)).getD (zeros 64)).drop (cva % 64)).take n

/-- The source areas of the elements a GATHER chunk needs, from its index list (R286). -/
def gatherAreas (d : Bytes) (c : Chunk) : List (Nat × Nat) :=
  let e := gatherE d
  (List.range ((c.lo + c.len - 1) / e - c.lo / e + 1)).map fun j =>
    let i := c.lo / e + j
    let k0 := max c.lo (i * e) - i * e
    let k1 := min (c.lo + c.len) ((i + 1) * e) - i * e
    (dSrc d + fromLE (bufBytes c.buf (dOpa d + i * gatherW d) (gatherW d)) * e + k0, k1 - k0)

/-- The areas a chunk reads: for a GATHER its index list first, and its elements once that has come. -/
def chunkSources (d : Bytes) (c : Chunk) : List (Nat × Nat) :=
  match dOp d with
  | 2 => [(dSrc d + c.lo, c.len)]
  | 3 => [(dDst d + c.lo, c.len), (dSrc d + c.lo, c.len)]
  | 4 =>
    if c.step = 3 then gatherAreas d c
    else
      let i := c.lo / gatherE d
      [(dOpa d + i * gatherW d, ((c.lo + c.len - 1) / gatherE d - i + 1) * gatherW d)]
  | 5 => elemArea (dSrcFmt d) (dSrc d) c.lo c.len :: scaleArea (dSrcFmt d) (dOpa d) c.lo c.len
  | _ => []

/-- The areas a chunk writes. -/
def chunkTargets (d : Bytes) (c : Chunk) : List (Nat × Nat) :=
  match dOp d with
  | 1 => [(dDst d + c.lo, c.len)]
  | 2 => [(dDst d + c.lo, c.len)]
  | 4 => [(dDst d + c.lo, c.len)]
  | 5 => elemArea (dDstFmt d) (dDst d) c.lo c.len :: scaleArea (dDstFmt d) (dOpb d) c.lo c.len
  | _ => []

/-- The values of the source elements of a CONVERT chunk (R290). -/
def convertValues (d : Bytes) (c : Chunk) : List Num :=
  let code := dSrcFmt d
  let a := elemArea code (dSrc d) c.lo c.len
  let codes := unpack (elemBits code) (a.2 * 8 / elemBits code) (bufBytes c.buf a.1 a.2)
  if isMx code then
    let nb := a.2 / mxBlock code
    let scales := bufBytes c.buf (dOpa d + c.lo / 32) nb
    let all := (List.range nb).flatMap fun b =>
      mxDecode (mxElement code) ((codes.drop (32 * b)).take 32) (scales.getD b 0).toNat
    (all.drop (c.lo % 32)).take c.len
  else codes.map (elemValue code)

/-- Blocks of 32 values. -/
def blocks32 : Nat → List Num → List (List Num)
  | 0, _ => []
  | n + 1, l => l.take 32 :: blocks32 n (l.drop 32)

/-- What a chunk writes, one byte string for each of its target areas, and the elements counted under R290. -/
def chunkBytes (d : Bytes) (c : Chunk) : List Bytes × Nat :=
  match dOp d with
  | 1 => ([(List.range c.len).map fun i => BitVec.ofNat 8 (dOpa d / 256 ^ ((c.lo + i) % 8))], 0)
  | 2 => ([bufBytes c.buf (dSrc d + c.lo) c.len], 0)
  | 4 => ([(gatherAreas d c).flatMap fun a => bufBytes c.buf a.1 a.2], 0)
  | 5 =>
    let code := dDstFmt d
    if dSrcFmt d = code then
      ((chunkSources d c).map (fun a => bufBytes c.buf a.1 a.2), 0)
    else
      let xs := convertValues d c
      if isMx code then
        let bs := (blocks32 (c.len / 32) xs).map fun b => mxEncode (mxElement code) (dRtz d) b
        ([bs.flatMap fun b => repack (elemBits code) (b.2.map (·.code)), bs.map fun b => BitVec.ofNat 8 b.1],
          bs.foldl (fun n b => n + (b.2.filter (·.counted)).length) 0)
      else
        let es := xs.map (elemEncode code (dRtz d) (dSat d))
        ([repack (elemBits code) (es.map (·.code))], (es.filter (·.counted)).length)
  | _ => ([], 0)

/-- The offset of the first byte in which two strings differ, counted from `k`. -/
def firstDiff : Nat → Bytes → Bytes → Option Nat
  | k, a :: as, b :: bs => if a = b then firstDiff (k + 1) as bs else some k
  | _, _, _ => none

/-- RESULT of a COMPARE whose ranges are equal (R286). -/
def noDiff : Nat := 2 ^ 64 - 1

/-! ### Records -/

def ctxOf (s : State) (n : Nat) : Ctx := (tfind s.cle.ctxs n).getD {}
def setCtx (n : Nat) (c : Ctx) (s : State) : State := { s with cle := { s.cle with ctxs := tput s.cle.ctxs n c } }
def setJob (j : Nat) (x : Job) (s : State) : State := { s with cle := { s.cle with jobs := tput s.cle.jobs j x } }
def setChunk (k : Nat) (c : Chunk) (s : State) : State := { s with cle := { s.cle with chunks := tput s.cle.chunks k c } }

/-- Add to one of CLE_STATS: 0 descriptors, 1 chunks, 2 re-issues, 3 chunks lost, 4 bytes written, 5 atomics, 6 appends, 7 commits,
8 skipped (R309). -/
def cleCount (i n : Nat) (s : State) : State := { s with cle := { s.cle with stats := bump s.cle.stats i n } }

/-- Count a message with another generation (R298). -/
def countStale (s : State) : State := { s with cle := { s.cle with stale := s.cle.stale + 1 } }

/-- The jobs of a context, and the chunks of a job. -/
def jobsOf (s : State) (ctx : Nat) : List (Nat × Job) := s.cle.jobs.filter fun p => p.2.ctx == ctx
def chunksOfJob (s : State) (job : Nat) : List (Nat × Chunk) := s.cle.chunks.filter fun p => p.2.job == job

/-- Slots that hold pending descriptors (R277). -/
def pendingSlots (c : Ctx) : Bool := c.sqHead != c.sqTail

/-- A context no longer wants its descriptor fetch, nor with `all` its record write: what is on its way is not used (R275, R276). -/
def stopFetch (n : Nat) (all : Bool) (s : State) : State :=
  let c := ctxOf s n
  let access := s.cle.access.map fun p =>
    if p.2.ctx == n && p.2.chunk.isNone && (p.2.op == 0 || (all && p.2.op == 1)) then (p.1, { p.2 with lost := true }) else p
  setCtx n { c with fetching := false, fetched := none } { s with cle := { s.cle with access := access } }

/-- Halt a context (R275, R304, R305): fetching stops, HALT_CODE keeps the first cause; a context that waits for an
unbind or a reset keeps its STATE (R635). -/
def haltCtx (n code : Nat) (s : State) : State :=
  let c := ctxOf s n
  if c.waiting.isNone && (c.state = 0 || c.state = 1) then
    let s := stopFetch n false s
    fireContext n (setCtx n { ctxOf s n with state := 2, haltCode := code } { s with cle := { s.cle with halts := tbump s.cle.halts c.part 1 } })
  else s

/-- A running context with no descriptor pending and no job is idle (R275), unless it keeps its STATE for an unbind or a reset (R635). -/
def idleCheck (n : Nat) (s : State) : State :=
  let c := ctxOf s n
  if c.state = 1 && c.waiting.isNone && !pendingSlots c && (jobsOf s n).isEmpty then
    let s := stopFetch n false s
    setCtx n { ctxOf s n with state := 0 } s
  else s

/-! ### Jobs -/

/-- Divide off a job's next chunks, while at most 64 are in progress and none has failed (R295, R298); a job with none left to run
has settled. -/
def divide : Nat → Nat → State → State
  | 0, _, s => s
  | fuel + 1, j, s =>
    match tfind s.cle.jobs j with
    | none => s
    | some x =>
      if x.phase != 1 then s
      else
        let n := (chunksOfJob s j).length
        if x.failed || x.nextChunk = x.chunkCount then
          if n = 0 then setJob j { x with phase := 2 } s else s
        else if 64 ≤ n then s
        else
          let r := chunkRange x.desc x.nextChunk
          let k := s.cle.nextChunk
          let s := setChunk k { job := j, idx := x.nextChunk, lo := r.1, len := r.2, homeOp := isHomeOp (dOp x.desc) }
            (setJob j { x with nextChunk := x.nextChunk + 1 } s)
          divide fuel j { s with cle := { s.cle with nextChunk := k + 1 } }

/-- Whether a job may start: its chain has come to it, and no earlier job runs before its fence (R282, R284). -/
def mayStart (s : State) (j : Nat) (x : Job) : Bool :=
  x.phase == 0 && (x.prev.isNone || x.linkOk.isSome) &&
  (!dFence x.desc || (s.cle.jobs.all fun p => p.1 == j || p.2.ctx != x.ctx || decide (x.order < p.2.order) || p.2.phase == 4))

/-- Start a job (R278): skipped after a failed link (R282), failed by its checks, or divided into chunks. -/
def startJob (j : Nat) (x : Job) (s : State) : State :=
  if x.linkOk = some false then cleCount 8 1 (setJob j { x with phase := 2, status := 1 } s)
  else if x.checkErr != 0 then setJob j { x with phase := 2, status := x.checkErr } s
  else
    let e := startCheck x.desc
    if e != 0 then setJob j { x with phase := 2, status := e } s
    else
      divide 65 j (setJob j { x with
        phase := 1
        chunkCount := chunkCountOf x.desc
        result := if dOp x.desc = 3 then noDiff else 0 } s)

/-- Start every job of a context that may start, in fetch order. -/
def startJobs (ctx : Nat) (s : State) : State :=
  each (jobsOf s ctx) (fun p s =>
    match tfind s.cle.jobs p.1 with
    | some x => if mayStart s p.1 x then startJob p.1 x s else s
    | none => s) s

/-- Whether the link behind a completed descriptor holds (R282, R283). -/
def linkHolds (x : Job) : Bool :=
  (x.status == 0 || x.status == 2) &&
  match dPred x.desc with
  | 0 => true
  | 1 => x.result == dLinkValue x.desc
  | 2 => x.result != dLinkValue x.desc
  | _ => decide (x.result < dLinkValue x.desc)

/-- A job's record is written or not needed: the job record is free (R278, R302). -/
def finishJob (j : Nat) (x : Job) (s : State) : State :=
  let c := ctxOf s x.ctx
  let s := setCtx x.ctx { c with completed := c.completed + 1 } { s with cle := { s.cle with jobs := tdel s.cle.jobs j } }
  idleCheck x.ctx s

/-- A job has completed up to its record (R302): its successor's link is known, fences behind it may open, and its record waits in
the order of completion (R279). -/
def jobCompletes (j : Nat) (x : Job) (s : State) : State :=
  let ok := linkHolds x
  let s := setJob j { x with phase := 4 } s
  let jobs := s.cle.jobs.map fun p => if p.2.prev == some j then (p.1, { p.2 with linkOk := some ok }) else p
  let s := { s with cle := { s.cle with jobs := jobs } }
  let c := ctxOf s x.ctx
  let c := if c.chainOpen = some j then { c with chainOk := some ok } else c
  let quiet := x.status == 0 && dQuiet x.desc && !x.counterErr
  let s := setCtx x.ctx (if quiet then c else { c with records := c.records ++ [j] }) s
  startJobs x.ctx (if quiet then finishJob j { x with phase := 4 } s else s)

/-! ### Chunks -/

/-- Stop what waits for a chunk: it is gone. -/
def dropChunk (k : Nat) (s : State) : State := { s with cle := { s.cle with chunks := tdel s.cle.chunks k } }

/-- A failed chunk stops the issue of its job's waiting chunks (R298); one that waits to be issued again has been issued. -/
def dropWaiting (j : Nat) (s : State) : State :=
  { s with cle := { s.cle with chunks := tkeep s.cle.chunks fun _ c => !(c.job == j && c.state == 0 && c.reissues == 0) } }

/-- A chunk has settled (R298): its job takes its error or result, and the next chunks are divided off. -/
def settleChunk (k : Nat) (c : Chunk) (err : Nat) (s : State) : State :=
  match tfind s.cle.jobs c.job with
  | none => dropChunk k s
  | some x =>
    let off := chunkOffset x.desc c
    let bytes := (chunkTargets x.desc c).foldl (fun n a => n + a.2) 0
    let x :=
      if err != 0 then
        if !x.failed || off < x.errOff then { x with failed := true, status := err, errOff := off } else x
      else if dOp x.desc = 3 then { x with result := min x.result c.result }
      else { x with result := x.result + c.result }
    let x := if c.homeOp then { x with result := c.result } else x
    let op := dOp x.desc
    let s := if err != 0 && err != 2 then s
      else if isAtomic op then cleCount 5 1 s
      else if op = 0x10 then cleCount 6 1 s
      else if op = 0x11 then cleCount 7 1 s
      else s
    let s := cleCount 1 1 (if err = 0 then cleCount 4 bytes s else if err = 0x0040 then cleCount 3 1 s else s)
    let s := dropChunk k s
    divide 65 c.job (setJob c.job x (if x.failed then dropWaiting c.job s else s))

/-- A chunk's error with the recorded generation (R298); an uncorrectable read of a copy, gather or convert halts the context, its
DMA channel (R304). -/
def chunkFails (k : Nat) (c : Chunk) (err : Nat) (s : State) : State :=
  let s := match tfind s.cle.jobs c.job with
    | some x =>
      if err = 0x0032 && (dOp x.desc == 2 || dOp x.desc == 4 || dOp x.desc == 5) then haltCtx x.ctx 0x0032 s else s
    | none => s
  settleChunk k c err s

/-- The quads of the assembly (R268). -/
def nQuads (s : State) : Nat := nStacks s * 64

/-- Chunks a quad holds as issuing quad (R269). -/
def quadLoad (s : State) (q : Nat) : Nat := (s.cle.chunks.filter fun p => p.2.state != 0 && p.2.quad == q).length

/-- Whether a home operation is open on a quad's sliver (R271). -/
def homeOpOn (s : State) (q : Nat) : Bool :=
  s.ldg.txns.any fun p => (p.2.req.op == 1 || p.2.req.op == 2 || p.2.req.op == 3) && p.2.phase != .acking &&
    p.2.lines.any fun l => match dramLine s l with | some d => lineSliver s d == q | none => false

/-- Whether a quad's clock is gated now (R28): a home operation ungates it for as long as it lasts (R271). -/
def gatedNow (s : State) (q : Nat) : Bool := decide (q ∈ s.cle.gated) && !homeOpOn s q

/-- Whether a quad takes a new chunk (R269, R271, R307). -/
def quadTakes (s : State) (q : Nat) : Bool :=
  decide (q < nQuads s) && decide (quadLoad s q < 4) && !gatedNow s q && !sliceDown s q

/-- Issue a chunk to a quad under the job's generation (R298). -/
def issueChunk (k : Nat) (c : Chunk) (x : Job) (q : Nat) (s : State) : State :=
  setChunk k { c with
    state := 1
    quad := q
    gen := x.gen
    step := 0
    parked := false
    faulting := false
    buf := []
    left := []
    pos := 0
    due := s.now + msec (rCleChunkTimeout s) } s

/-- Another quad for a chunk: the first after its own that takes it. -/
def nextQuad (s : State) (q : Nat) : Option Nat :=
  ((List.range (nQuads s)).map fun i => (q + 1 + i) % nQuads s).find? fun r => r != q && quadTakes s r

/-- Re-issue an issued chunk (R296, R298): the job's generation rises; beyond the limit, or at generation 65,535, chunks are
lost, those that commit among them. A home operation is never issued again (R299). A chunk that no other quad has room for waits for one (log 131, DESIGN CHOICE). -/
def reissueChunk (k : Nat) (s : State) : State :=
  match tfind s.cle.chunks k with
  | none => s
  | some c =>
    match tfind s.cle.jobs c.job with
    | none => s
    | some x =>
      if c.state != 1 || c.homeOp then s
      else
        let x := { x with gen := x.gen + 1 }
        let s := setJob c.job x s
        if 65535 ≤ x.gen then
          each (chunksOfJob s c.job) (fun p s => settleChunk p.1 p.2 0x0040 s) s
        else if c.reissues < rCleReissueLimit s then
          let c := { c with reissues := c.reissues + 1 }
          let x := { x with reissues := min 65535 (x.reissues + 1) }
          let s := cleCount 2 1 (setJob c.job x s)
          match nextQuad s c.quad with
          | some q => issueChunk k c x q s
          | none => setChunk k { c with state := 0, gen := x.gen, parked := false, faulting := false, buf := [], left := [] } s
        else chunkFails k c 0x0040 s

end Sys2Proof.Machine
end

