-- ==== Sys2Proof/Machine/TlbOps.lean ====
section
/-! DEFINITION. The Tally book (R253 to R256), invalidations (R257 to R260) and pending faults (R261 to R264). -/
namespace Sys2Proof.Machine

/-- How a translation comes out for an operand: the host address, a wait (on a pending fault or not), or the status it completes
with. -/
inductive Xlate where
  | at_ (hpa : Nat)
  | waits (fault : Bool)
  | fails (code : Nat)
  deriving DecidableEq, Repr

/-- Add to one of TLB_STATS: 0 lookups, 1 local hits, 2 hits, 3 translation requests, 4 page requests, 5 fault joins, 6 fault waits,
7 invalidations, 8 faults, 9 timeouts, 10 stray responses (R267). -/
def tlbCount (i n : Nat) (s : State) : State := { s with tlb := { s.tlb with stats := bump s.tlb.stats i n } }

/-- The smallest piece (R251), and the size of a SIZE code (R254). -/
def grain : Nat := 2 ^ 26
def pieceSize (size : Nat) : Nat := if size = 0 then 2 ^ 26 else if size = 1 then 2 ^ 30 else 2 ^ 34

/-- Whether an entry's piece holds a CVA of its context. -/
def covers (ctx cva : Nat) (e : TlbEntry) : Bool :=
  e.ctx == ctx && decide (e.cva ≤ cva) && decide (cva < e.cva + pieceSize e.size)

/-- Whether permissions grant what an operand needs: 0 read, 1 write, 2 either. -/
def grants (read write : Bool) (perm : Nat) : Bool := if perm = 0 then read else if perm = 1 then write else read || write

/-- An engine takes a translation in its local buffer: eight, least recently used first out. -/
def pushNear (quad : Nat) (e : TlbEntry) (s : State) : State :=
  let l := (tget [] s.tlb.near quad).filter fun x => !(x.ctx == e.ctx && x.cva == e.cva && x.size == e.size)
  { s with tlb := { s.tlb with near := tput s.tlb.near quad ((e :: l).take 8) } }

/-- The quad an operand's chunk runs on. -/
def waiterQuad (s : State) (w : Waiter) : Nat :=
  match w.chunk with
  | some k => match tfind s.cle.chunks k with | some c => c.quad | none => 0
  | none => 0

/-! ### What waits -/

/-- An operand that waited may be tried again; the chunk timer runs on (R298). -/
def wake (w : Waiter) (s : State) : State :=
  match w.chunk with
  | some k =>
    match tfind s.cle.chunks k with
    | some c =>
      setChunk k { c with parked := false, faulting := false, due := if c.faulting then s.now + c.due else c.due } s
    | none => s
  | none =>
    match tfind s.cle.jobs w.job with
    | some x => setJob w.job { x with parked := false } s
    | none => s

/-- An operand completes with an error status: its chunk fails, or its counter update does (R303). A commit some of whose pieces have been sent
goes no further, and completes with the status once these have been answered. -/
def failOperand (code : Nat) (w : Waiter) (s : State) : State :=
  let s := wake w s
  match w.chunk with
  | some k =>
    match tfind s.cle.chunks k with
    | some c =>
      if c.state = 1 then chunkFails k c code s
      else if c.state = 2 then setChunk k { c with err := if c.err = 0 then code else c.err, pos := c.len, left := [] } s
      else s
    | none => s
  | none =>
    match tfind s.cle.jobs w.job with
    | some x => if x.phase = 3 then jobCompletes w.job { x with counterErr := true } s else s
    | none => s

/-- The same, counted as a fault or a timeout (R267). -/
def failWaiter (code : Nat) (w : Waiter) (s : State) : State :=
  failOperand code w (if code = 0x0022 then tlbCount 8 1 s else if code = 0x0023 then tlbCount 9 1 s else s)

def addWaiter (w : Waiter) (l : List Waiter) : List Waiter := if w ∈ l then l else l ++ [w]

/-! ### Translation requests (R253, R255) -/

/-- The set of a piece (R253; the hash is open). -/
def tallySetOf (ctx size cva : Nat) : Nat := Config.tallySet ((ctx * 4 + size) * 2 ^ 64 + cva / pieceSize size) % 2048

/-- The entry a new piece takes: an invalid one of its set, or the valid one with the oldest TOUCH, or none. -/
def tallyPlace (s : State) (ctx size cva : Nat) : Option Nat :=
  let base := tallySetOf ctx size cva * 8
  let ways := (List.range 8).map (base + ·)
  match ways.find? fun n => (tfind s.tlb.entries n).isNone with
  | some n => some n
  | none =>
    ways.foldl (fun best n =>
      match tfind s.tlb.entries n with
      | some e =>
        if e.state != 2 then best
        else match best with
          | none => some n
          | some b =>
            if touchAge s ((tfind s.tlb.entries b).getD {}).touch < touchAge s e.touch then some n else some b
      | none => best) none

def setEntryT (n : Nat) (e : TlbEntry) (s : State) : State :=
  { s with tlb := { s.tlb with entries := tput s.tlb.entries n e } }
def delEntryT (n : Nat) (s : State) : State := { s with tlb := { s.tlb with entries := tdel s.tlb.entries n } }

/-- Send a translation request for a piece, with an entry in the filling state where its set has one (R253, R255). -/
def sendXlate (ctx pasid port ld piece : Nat) (ws : List Waiter) (fault : Option Nat) (keep : Bool) (s : State) : State :=
  let n := if keep then tallyPlace s ctx 0 (piece * grain) else none
  let s := match n with
    | some n => setEntryT n { ctx := ctx, cva := piece * grain, pasid := pasid, port := port, ld := ld, touch := touchTime s } s
    | none => s
  let id := s.tlb.nextId
  let r : XReq := { entry := n, ctx := ctx, pasid := pasid, port := port, ld := ld, piece := piece, waiters := ws,
                    due := s.now + msec (rTlbXlateTimeout s), fault := fault, keep := keep }
  let s := { s with tlb := { s.tlb with
    nextId := id + 1
    reqs := tput s.tlb.reqs id r } }
  tlbCount 3 1 (emit (.ats port ld 0 pasid (piece * grain) id) s)

/-! ### Faults (R261 to R264) -/

def faultKey (port ld pasid piece : Nat) (f : PFault) : Bool :=
  f.port == port && f.ld == ld && f.pasid == pasid && f.piece == piece

/-- Whether PRI on a logical device has not been stopped by a response failure (R264). -/
def priServes (s : State) (k : Nat) : Bool := !tget false s.tlb.priStopped k

/-- Whether the host's allocation of a logical device, which is 0 until PRI is enabled, has room for one more page request: an entry that is
retranslating, or whose request a port reset discarded, has none outstanding (R261, R262). -/
def pageRoom (s : State) (k : Nat) : Bool :=
  decide ((s.tlb.faults.filter fun p => ldKey p.2.port p.2.ld == k && !p.2.retranslating && !p.2.resend).length < tget 0 s.tlb.alloc k)

/-- Whether a logical device has a place for one more fault: an entry, and room in the host's allocation (R261). -/
def faultRoom (s : State) (k : Nat) : Bool := pageRoom s k && decide (s.tlb.faults.length < 256)

/-- The page request of an entry, with Last set (R249, R262). -/
def sendPageRequest (i : Nat) (f : PFault) (s : State) : State :=
  tlbCount 4 1 (emit (.ats f.port f.ld 1 f.pasid (f.addr + b2n f.write + 4) i) s)

/-- Take a pending-fault entry for a fault and send its page request. -/
def takeFault (f : PFault) (s : State) : State :=
  match tfresh s.tlb.faults 256 0 with
  | some i =>
    let f := { f with due := s.now + msec (rTlbFaultTimeout s) }
    sendPageRequest i f { s with tlb := { s.tlb with faults := tput s.tlb.faults i f } }
  | none => s

/-- An operand meets a missing page or permission (R261, R264): it joins its key's fault, opens one, waits for a place, or completes
with FAULT while PRI is stopped on its logical device. -/
def openFault (w : Waiter) (ctx port ld pasid cva : Nat) (s : State) : Xlate × State :=
  let piece := cva / grain
  if !priServes s (ldKey port ld) then (.fails 0x0022, tlbCount 8 1 s)
  else match s.tlb.faults.find? fun p => faultKey port ld pasid piece p.2 with
  | some (i, f) =>
    (.waits true, tlbCount 5 1 { s with tlb := { s.tlb with
      faults := tput s.tlb.faults i { f with waiters := addWaiter w f.waiters } } })
  | none =>
    if s.tlb.faultWait.any (faultKey port ld pasid piece) then
      let l := s.tlb.faultWait.map fun f =>
        if faultKey port ld pasid piece f then { f with waiters := addWaiter w f.waiters } else f
      (.waits true, tlbCount 6 1 { s with tlb := { s.tlb with faultWait := l } })
    else
      let f : PFault := { port := port, ld := ld, pasid := pasid, piece := piece, addr := cva / 4096 * 4096, ctx := ctx,
                          waiters := [w], write := w.perm == 1 }
      if faultRoom s (ldKey port ld) then (.waits true, takeFault f s)
      else (.waits true, tlbCount 6 1 { s with tlb := { s.tlb with faultWait := s.tlb.faultWait ++ [f] } })

/-- The page requests that a port reset discarded are sent again as far as the host's allocation has room (R262, R263). -/
def resendPages (s : State) : State :=
  each s.tlb.faults (fun p s =>
    if p.2.resend && pageRoom s (ldKey p.2.port p.2.ld) then
      let f := { p.2 with resend := false }
      sendPageRequest p.1 f { s with tlb := { s.tlb with faults := tput s.tlb.faults p.1 f } }
    else s) s

/-- Faults that waited take entries as they become free (R261), after the page requests that are to be sent again. -/
def pumpFaults : Nat → State → State
  | 0, s => s
  | fuel + 1, s =>
    let s := resendPages s
    match s.tlb.faultWait.find? fun f => faultRoom s (ldKey f.port f.ld) || !priServes s (ldKey f.port f.ld) with
    | none => s
    | some f =>
      let s := { s with tlb := { s.tlb with faultWait := s.tlb.faultWait.erase f } }
      pumpFaults fuel (if priServes s (ldKey f.port f.ld) then takeFault f s else each f.waiters (failWaiter 0x0022) s)

/-- A pending fault ends: its entry is free, and its waiters complete with a status. -/
def endFault (i code : Nat) (s : State) : State :=
  match tfind s.tlb.faults i with
  | none => s
  | some f =>
    let s := { s with tlb := { s.tlb with faults := tdel s.tlb.faults i } }
    pumpFaults 256 (each f.waiters (failWaiter code) s)

/-! ### Lookup (R253, R255) -/

/-- Translate a CVA for an operand of a context on a quad. One whose local translation an invalidation dropped waits for its end (R259). -/
def translate (w : Waiter) (quad ctx cva : Nat) (s : State) : Xlate × State :=
  let c := ctxOf s ctx
  let w := { w with addr := cva }
  if !tget false s.tlb.ats (ldKey c.port c.ld) then (.fails 0x0020, s)
  else
    let s := tlbCount 0 1 s
    if s.tlb.invals.any fun v => v.2.dropped.any fun d => d.1 == quad && covers ctx cva d.2 then (.waits false, s)
    else match (tget [] s.tlb.near quad).find? fun e => covers ctx cva e && grants e.read e.write w.perm with
    | some e => (.at_ (e.hpa + (cva - e.cva)), pushNear quad e (tlbCount 1 1 s))
    | none =>
      match s.tlb.entries.find? fun p => p.2.state == 2 && covers ctx cva p.2 with
      | some (n, e) =>
        let e := { e with touch := touchTime s }
        let s := tlbCount 2 1 (setEntryT n e s)
        if grants e.read e.write w.perm then (.at_ (e.hpa + (cva - e.cva)), pushNear quad e s)
        else openFault w ctx c.port c.ld c.pasid cva s
      | none =>
        if s.tlb.entries.any (fun p => p.2.state == 3 && covers ctx cva p.2) then (.waits false, s)
        else if s.tlb.faults.any (fun p => faultKey c.port c.ld c.pasid (cva / grain) p.2) then
          openFault w ctx c.port c.ld c.pasid cva s
        else
          match s.tlb.reqs.find? fun p => p.2.ctx == ctx && p.2.piece == cva / grain && p.2.fault.isNone &&
              (p.2.entry.isSome || decide (w ∈ p.2.waiters)) with
          | some (id, r) =>
            (.waits false, { s with tlb := { s.tlb with
              reqs := tput s.tlb.reqs id { r with waiters := addWaiter w r.waiters } } })
          | none => (.waits false, sendXlate ctx c.pasid c.port c.ld (cva / grain) [w] none true s)

/-! ### Completions (R256) -/

/-- A request ends: its record and its filling entry go. -/
def endXReq (id : Nat) (r : XReq) (s : State) : State :=
  let s := { s with tlb := { s.tlb with reqs := tdel s.tlb.reqs id } }
  match r.entry with
  | some n => if ((tfind s.tlb.entries n).getD {}).state = 1 then delEntryT n s else s
  | none => s

/-- What waits on a request: its own operands, and those of the fault it retranslates for. -/
def xreqWaiters (s : State) (r : XReq) : List Waiter :=
  match r.fault with
  | some i => match tfind s.tlb.faults i with | some f => f.waiters ++ r.waiters | none => r.waiters
  | none => r.waiters

/-- A request fails: what waits on it completes with a status, and a fault it retranslates for is free (R263). -/
def failXReq (id code : Nat) (r : XReq) (s : State) : State :=
  let s := endXReq id r s
  let s := if code = 0x0021 then
      let n := (xreqWaiters s r).length
      { s with tlb := { s.tlb with grainErrors := tbump s.tlb.grainErrors (ctxOf s r.ctx).part n } }
    else s
  let s := match r.fault with | some i => endFault i code s | none => s
  each r.waiters (failWaiter code) s

/-- The SIZE code of the largest accepted size not above a range (R251). -/
def sizeCode (size : Nat) : Nat := if 2 ^ 34 ≤ size then 2 else if 2 ^ 30 ≤ size then 1 else 0

/-- Record a piece where its request has an entry (R253): a larger piece moves to its own set. -/
def recordPiece (r : XReq) (e : TlbEntry) (s : State) : State :=
  match r.entry with
  | none => s
  | some n =>
    let s := { s with tlb := { s.tlb with entries := tkeep s.tlb.entries fun _ x =>
      !(x.state == 2 && x.ctx == e.ctx && decide (x.cva < e.cva + pieceSize e.size) &&
        decide (e.cva < x.cva + pieceSize x.size)) } }
    if e.size = 0 then setEntryT n e s
    else match tallyPlace s e.ctx e.size e.cva with
      | some m => setEntryT m e s
      | none => s

/-- A completion is used (R251, R256): the piece is recorded, operands with their permissions go on, and the others open or join a
fault, or, after a retranslation, complete with FAULT (R263). -/
def useCompletion (id : Nat) (r : XReq) (addr size perms : Nat) (s : State) : State :=
  let k := sizeCode size
  let cva := r.piece * grain
  let e : TlbEntry := {
    state := 2, size := k, read := bitOf perms 0, write := bitOf perms 1, ctx := r.ctx, touch := touchTime s
    cva := cva / pieceSize k * pieceSize k
    hpa := addr / size * size + (cva / pieceSize k * pieceSize k) % size
    pasid := r.pasid, port := r.port, ld := r.ld }
  let ws := xreqWaiters s r
  let good := ws.filter fun w => grants e.read e.write w.perm
  let bad := ws.filter fun w => !grants e.read e.write w.perm
  let s := recordPiece r e (endXReq id r s)
  let s := each good (fun w s =>
    let ctx := match tfind s.cle.jobs w.job with | some x => x.ctx | none => r.ctx
    wake w (pushNear (waiterQuad s w) { e with ctx := ctx } s)) s
  match r.fault with
  | some i =>
    let s := { s with tlb := { s.tlb with faults := tdel s.tlb.faults i } }
    pumpFaults 256 (each bad (failWaiter 0x0022) s)
  | none =>
    each bad (fun w s =>
      match openFault w r.ctx r.port r.ld r.pasid w.addr s with
      | (.fails code, s) => failOperand code w s
      | (_, s) =>
        match w.chunk with
        | some k =>
          match tfind s.cle.chunks k with
          | some c =>
            if c.faulting then s else setChunk k { c with faulting := true, due := c.due - s.now } s
          | none => s
        | none => s) s

/-! ### Invalidation (R257 to R260) -/

/-- Whether a context is one that an invalidation names. -/
def invalNames (iv : Inval) (n port ld pasid : Nat) : Bool :=
  match iv.ctx with
  | some c => n == c
  | none => port == iv.port && ld == iv.ld && (match iv.pasid with | some p => p == pasid | none => true)

/-- Whether a piece of a context falls under an invalidation. -/
def invalHits (iv : Inval) (e : TlbEntry) : Bool :=
  invalNames iv e.ctx e.port e.ld e.pasid && decide (e.cva < iv.hi) && decide (iv.lo < e.cva + pieceSize e.size)

/-- Steps 1 to 3 of R258: matching entries are invalidating, every engine is told and drops its matching local translations at once. -/
def startInval (iv : Inval) (s : State) : State :=
  let hit := (s.tlb.entries.filter fun p => p.2.state == 2 && invalHits iv p.2).map (·.1)
  let entries := s.tlb.entries.map fun p => if p.1 ∈ hit then (p.1, { p.2 with state := 3 }) else p
  let near := s.tlb.near.map fun p => (p.1, p.2.filter fun e => !invalHits iv e)
  let dropped := s.tlb.near.flatMap fun p => (p.2.filter (invalHits iv)).map fun e => (p.1, e)
  tlbCount 7 1 { s with tlb := { s.tlb with
    entries := entries
    near := near
    invals := tput s.tlb.invals iv.id { iv with engines := List.range (nQuads s), entries := hit, dropped := dropped } } }

/-- Invalidate Queue Depth as the ATS capability reports it (R249): 0, which means 32. -/
def invalidateQueueDepth : Nat := 0

/-- Whether an invalidation may start: fewer than 64 are in progress at the node, and fewer than the reported depth of its logical device
(R249, R260). -/
def invalRoom (s : State) (iv : Inval) : Bool :=
  decide (s.tlb.invals.length < 64) &&
  decide ((s.tlb.invals.filter fun p => p.2.port == iv.port && p.2.ld == iv.ld).length <
    (if invalidateQueueDepth = 0 then 32 else invalidateQueueDepth))

/-- Invalidations that wait start in arrival order while there is room (R260). -/
def pumpInvals : Nat → State → State
  | 0, s => s
  | fuel + 1, s =>
    match s.tlb.invalWait.find? (invalRoom s) with
    | some iv => pumpInvals fuel (startInval iv { s with tlb := { s.tlb with invalWait := s.tlb.invalWait.erase iv } })
    | none => s

/-- An invalidation arrives: translation requests under way are marked (R256), and it starts, or waits for those before it (R260). -/
def requestInval (iv : Inval) (s : State) : State :=
  let iv := { iv with id := s.tlb.nextId }
  let reqs := s.tlb.reqs.map fun p =>
    if invalNames iv p.2.ctx p.2.port p.2.ld p.2.pasid then (p.1, { p.2 with hit := p.2.hit ++ [(iv.id, iv.lo, iv.hi)] }) else p
  pumpInvals 64 { s with tlb := { s.tlb with reqs := reqs, nextId := iv.id + 1, invalWait := s.tlb.invalWait ++ [iv] } }

/-- Whether an access was issued under a translation that an invalidation drops (R258 step 4): an access spans the pieces of its
translations. -/
def accessUnder (s : State) (iv : Inval) (a : Access) : Bool :=
  let c := ctxOf s a.ctx
  invalNames iv a.ctx c.port c.ld c.pasid && decide (a.lo < iv.hi) && decide (iv.lo < a.hi)

/-- Requests whose completions were discarded are sent again once the invalidations that these met have completed (R256). -/
def resendXlates (s : State) : State :=
  each s.tlb.reqs (fun p s =>
    let busy := p.2.behind.any fun id => (tfind s.tlb.invals id).isSome || s.tlb.invalWait.any fun iv => iv.id == id
    if p.2.again && !busy then
      let s := { s with tlb := { s.tlb with reqs := tdel s.tlb.reqs p.1 } }
      sendXlate p.2.ctx p.2.pasid p.2.port p.2.ld p.2.piece p.2.waiters p.2.fault p.2.keep s
    else s) s

/-- A context that becomes not bound leaves nothing in the Tally book: its requests that nothing waits for any more are gone, and one that
retranslates for a fault of others records no piece of it (R257). -/
def dropXlates (n : Nat) (s : State) : State :=
  each s.tlb.reqs (fun p s =>
    if p.2.ctx != n then s
    else
      let s' := endXReq p.1 p.2 s
      if p.2.fault.isNone then s' else { s' with tlb := { s'.tlb with reqs := tput s'.tlb.reqs p.1 { p.2 with entry := none, keep := false } } }) s

/-- Step 5 of R258: the entries are invalid, and the completion goes to whoever asked. What waited translates again (R259). -/
def endInval (id : Nat) (iv : Inval) (s : State) : State :=
  let s := { s with tlb := { s.tlb with
    invals := tdel s.tlb.invals id
    entries := tkeep s.tlb.entries fun n e => !(decide (n ∈ iv.entries) && e.state == 3) } }
  let s := match iv.itag with
    | some t => emit (.ats iv.port iv.ld 2 (iv.pasid.getD 0) iv.lo t) s
    | none => s
  let s := match iv.ask with
    | some q => finish q 0x680300 stOk [] s
    | none => s
  let s := match iv.ctx with
    | some n => let c := ctxOf s n; dropXlates n (if c.inval = 1 then setCtx n { c with inval := 2 } s else s)
    | none => s
  let s := each s.cle.chunks (fun p s =>
    match tfind s.cle.jobs p.2.job with
    | some x =>
      let c := ctxOf s x.ctx
      if p.2.parked && !p.2.faulting && invalNames iv x.ctx c.port c.ld c.pasid then setChunk p.1 { p.2 with parked := false } s
      else s
    | none => s) s
  let s := each s.cle.jobs (fun p s => if p.2.parked then setJob p.1 { p.2 with parked := false } s else s) s
  pumpInvals 64 (resendXlates s)

end Sys2Proof.Machine
end

