-- ==== Sys2Proof/Machine/Clerk.lean ====
section
/-! DEFINITION. What the quads and the queues do of their own accord: operands are translated and read, home operations sent,
counters updated, records written and descriptors fetched (R269 to R305). -/
namespace Sys2Proof.Machine

/-! ### From host addresses to pool lines (R49, R252) -/

/-- Lines of an area that one access covers: they lie at one home, one after the other, under one binding. -/
structure Run where
  bind : Nat := 0
  entry : BookEntry := {}
  pga : Nat := 0
  lda : Nat := 0
  lines : List Nat := []
  hpas : List Nat := []
  deriving DecidableEq, Repr

/-- Why an address does not decode: the status the operand completes with, and what the error record names (R102). -/
structure NoRun where
  code : Nat := 0x0024
  lda : Nat := 0
  bind : Nat := 0
  deriving DecidableEq, Repr

/-- Whether a context may reach a home (R366): every home in coordinate mode; in rank mode the homes of its slice and their twin
partners. -/
def rankAllows (s : State) (c : Ctx) (home : Nat) (partner : Option Nat) : Bool :=
  !bitOf c.fabric 0 ||
  (let named := fun x => (List.range c.sliceLen).any fun r => bits (tget 0 s.mar.rank (c.slice * 256 + r)) 0 12 == x
   named home || (match partner with | some p => named p | none => false) ||
   (hasPartner s && ((home == rMarPairPartner s && named (hereAt s)) || (home == hereAt s && named (rMarPairPartner s)))))

/-- Decode one host address for a context (R49, R252): the binding and the PGA, or why there is none. -/
def decodeHost (s : State) (c : Ctx) (hpa : Nat) (isWrite : Bool) : Except NoRun Run :=
  match hdmDecode (ldOf s (ldKey c.port c.ld)) hpa with
  | none => .error {}
  | some lda =>
    let no : NoRun := { code := 0x0030, lda := lda, bind := ((bindingAt s c.port c.ld lda).map (·.1)).getD 0 }
    match decodeLda s c.port c.ld lda isWrite false with
    | none => .error no
    | some (n, e, pga) =>
      if rankAllows s c (pgaCoord pga) e.partner then .ok { bind := n, entry := e, pga := pga, lda := lda } else .error no

/-- Add a decoded line to the runs of an area, in line order: it joins a run that it continues under one decode record. -/
def addRun (line hpa : Nat) (x : Run) : List Run → List Run
  | [] => [{ x with lines := [line], hpas := [hpa] }]
  | r :: rs =>
    if r.bind = x.bind && r.lda / 2 ^ 26 = x.lda / 2 ^ 26 && r.pga + viewBytes x.entry.view * r.lines.length = x.pga &&
       r.lines.length < 1024 && !x.entry.isWin then
      { r with lines := r.lines ++ [line], hpas := r.hpas ++ [hpa] } :: rs
    else r :: addRun line hpa x rs

/-- The runs of some lines given with their host addresses, or why the first that does not decode does not. -/
def runsOf (s : State) (c : Ctx) (isWrite : Bool) : List (Nat × Nat) → List Run → Except NoRun (List Run)
  | [], rs => .ok rs
  | (line, hpa) :: l, rs =>
    match decodeHost s c hpa isWrite with
    | .error no => .error no
    | .ok x => runsOf s c isWrite l (addRun line hpa x rs)

/-- The lines of an area, as CVA div 64. -/
def areaLines (a : Nat × Nat) : List Nat :=
  if a.2 = 0 then [] else (List.range ((a.1 + a.2 - 1) / 64 - a.1 / 64 + 1)).map (a.1 / 64 + ·)

/-- Lines of several areas, each once, ascending. -/
def areasLines (l : List (Nat × Nat)) : List Nat := ascending (l.flatMap areaLines)

/-- The first address of each 64 MiB piece that an area touches. -/
def areaPieces (a : Nat × Nat) : List Nat :=
  if a.2 = 0 then []
  else (List.range ((a.1 + a.2 - 1) / grain - a.1 / grain + 1)).map fun i => max a.1 ((a.1 / grain + i) * grain)

/-- The pieces of some areas, each once. -/
def piecesOver (l : List (Nat × Nat)) : List Nat :=
  (l.flatMap areaPieces).foldl (fun acc a => if acc.any (fun b => b / grain == a / grain) then acc else acc ++ [a]) []

/-! ### Translating -/

/-- How the translations of a chunk's operands came out: a failure, whether one waits, whether on a fault, and the host address of
each piece. -/
structure Pieces where
  fails : Option Nat := none
  waits : Bool := false
  fault : Bool := false
  hpa : Tbl Nat := []
  deriving DecidableEq, Repr

/-- Translate addresses, each in a piece of its own, with one permission. -/
def translateAll (w : Waiter) (quad ctx : Nat) : List Nat → Pieces → State → Pieces × State
  | [], p, s => (p, s)
  | a :: l, p, s =>
    let r := translate w quad ctx (a % 2 ^ 64) s
    let p := match r.1 with
      | .at_ h => { p with hpa := tput p.hpa (a / grain) (h - a % grain) }
      | .waits f => { p with waits := true, fault := p.fault || f }
      | .fails code => { p with fails := some (p.fails.getD code) }
    translateAll w quad ctx l p r.2

/-- The host address of a line of a translated piece. -/
def Pieces.line (p : Pieces) (l : Nat) : Nat := tget 0 p.hpa (l * 64 / grain) + l * 64 % grain

/-- A chunk waits for translations; its timer stands while it waits on a fault (R298). -/
def parkChunk (k : Nat) (fault : Bool) (s : State) : State :=
  match tfind s.cle.chunks k with
  | some c =>
    if fault && !c.faulting then setChunk k { c with parked := true, faulting := true, due := c.due - s.now } s
    else setChunk k { c with parked := true } s
  | none => s

/-! ### Accesses -/

/-- Open an access of an engine: its decode record is looked up (R47) and it is counted in flight at its binding (R49), its own lost timer
running (R299). -/
def openAccess (a : Access) (s : State) : Nat × State :=
  let id := s.cle.nextAccess
  let s := cacheLookup (ctxOf s a.ctx).port a.bind a.lda s
  (id, countUp a.bind { s with cle := { s.cle with
    nextAccess := id + 1
    access := tput s.cle.access id { a with lostDue := s.now + msec (rCleLostTimeout s) } } })

/-- The error record of an engine's access error, in the Warning log of its context's logical device (R102; the operations: log 110,
DESIGN CHOICE). -/
def engineRecord (ctx lda bind op cause : Nat) (s : State) : State :=
  let c := ctxOf s ctx
  accessRecord (ldKey c.port c.ld) lda bind op cause s

/-- An engine's address does not decode. An access error (R44, R62) is counted for its partition and recorded. -/
def noteNoRun (ctx : Nat) (no : NoRun) (op : Nat) (s : State) : State :=
  if no.code = 0x0030 then
    engineRecord ctx no.lda no.bind op 1
      { s with pga := { s.pga with accessErrors := tbump s.pga.accessErrors (ctxOf s ctx).part 1 } }
  else s

/-- The range of CVAs that some lines cover. -/
def linesSpan (l : List Nat) : Nat × Nat := (l.headD 0 * 64, (l.getLastD 0 + 1) * 64)

/-- The 64 B image of a line that a byte string covers part of from `base` on, and its byte enables. -/
def lineImage (base : Nat) (b : Bytes) (line : Nat) : Bytes × Nat :=
  let lo := max base (line * 64)
  let hi := min (base + b.length) (line * 64 + 64)
  (zeros (lo - line * 64) ++ (b.drop (lo - base)).take (hi - lo) ++ zeros (line * 64 + 64 - hi),
    (2 ^ (hi - lo) - 1) * 2 ^ (lo - line * 64))

/-- The reads of a run are matched against the streams bound to the context's logical device (R173). -/
def matchRun (ctx : Nat) (r : Run) (s : State) : State :=
  let c := ctxOf s ctx
  each (List.range (max 1 r.lines.length)) (fun i s => matchStreams c.port c.ld (extentPga s r.entry (r.lda - r.entry.base + 64 * i)) s) s

/-- The range of the pieces that a span of CVAs was translated under: those that the quad's local translations give (R258). -/
def pieceSpan (s : State) (quad ctx lo hi : Nat) : Nat × Nat :=
  let piece := fun (a : Nat) => match (tget [] s.tlb.near quad).find? (covers ctx a) with
    | some e => (e.cva, e.cva + pieceSize e.size)
    | none => (a / grain * grain, (a / grain + 1) * grain)
  ((piece lo).1, (piece (hi - 1)).2)

/-- Open the access of one run of a chunk. -/
def accessRun (k : Nat) (c : Chunk) (ctx : Nat) (r : Run) (s : State) : Nat × State :=
  let span := pieceSpan s c.quad ctx (linesSpan r.lines).1 (linesSpan r.lines).2
  openAccess { chunk := some k, job := c.job, gen := c.gen, quad := c.quad, ctx := ctx, bind := r.bind, lda := r.lda,
               op := b2n (c.state == 2), home := pgaCoord r.pga, lines := r.lines, lo := span.1, hi := span.2 } s

/-- What a run writes: its lines' bytes and byte enables. -/
def runImage (x : Nat × Bytes × Run) : Bytes × Nat :=
  let img := x.2.2.lines.map (lineImage x.1 x.2.1)
  (img.flatMap (·.1), img.foldr (fun x n => x.2 + 2 ^ 64 * n) 0)

/-- Send a group of runs of a chunk: one read while the chunk is issued; while it commits, one chunk write of all of them (R297), or for a
line of a window one contribution (R313, R322). -/
def sendGroup (k : Nat) (c : Chunk) (ctx : Nat) (x : Nat × Bytes × Run) (rest : List (Nat × Bytes × Run)) (s : State) : State :=
  let r := x.2.2
  let a := accessRun k c ctx r s
  if c.state = 1 then
    engineRead { kind := .chunkRead, a := a.1 } r.pga r.lines.length r.entry.part r.entry.view r.entry.partner (matchRun ctx r a.2)
  else
    let ref : EngRef := { kind := .chunkWrite, a := a.1 }
    let img := runImage x
    let m : MReq := { kind := .engineWrite, who := .engine ref, part := r.entry.part, view := r.entry.view, data := img.1, be := img.2 }
    if r.entry.isWin then contributeTo m r.pga r.bind a.2
    else
      let more := rest.foldl (fun (acc : List Nat × State) y => let b := accessRun k c ctx y.2.2 acc.2; (acc.1 ++ [b.1], b.2)) ([], a.2)
      let s := match tfind more.2.cle.access a.1 with
        | some y => { more.2 with cle := { more.2.cle with access := tput more.2.cle.access a.1 { y with also := more.1 } } }
        | none => more.2
      sendMem { m with
        dpa := pgaDpa r.pga, lines := r.lines.length
        more := rest.map fun y => (pgaDpa y.2.2.pga, y.2.2.lines.length, runImage y) } r.pga r.entry.partner false s

/-- The accesses of a chunk's present generation on their way, and whether there are any. -/
def chunkAccesses (s : State) (k gen : Nat) : List Access :=
  (s.cle.access.filter fun p => p.2.chunk == some k && p.2.gen == gen).map (·.2)
def chunkBusy (s : State) (k gen : Nat) : Bool := !(chunkAccesses s k gen).isEmpty

/-- Whether a chunk may open accesses under some decode records: with those it pins already they are at most 8 (R47). -/
def mayPin (s : State) (k gen : Nat) (l : List (Nat × Nat)) : Bool :=
  decide ((((chunkAccesses s k gen).map fun (a : Access) => (a.bind, a.lda / 2 ^ 26)) ++ l).eraseDups.length ≤ 8)

/-- The decode record of a run: its binding and granule. -/
def Run.record (r : Run) : Nat × Nat := (r.bind, r.lda / 2 ^ 26)

/-- Packets that a run is written in (R361). -/
def runPackets (r : Run) : Nat := (64 * r.lines.length + 1023) / 1024

/-- Runs of one binding at one home are one group, as far as the 64 packets of one operation (R361) and the 8 decode records of R47 go; a
contribution is always alone (R297; log 131, DESIGN CHOICE). -/
def joinsGroup (g : List (Nat × Bytes × Run)) (x : Nat × Bytes × Run) : Bool :=
  !x.2.2.entry.isWin &&
  (g.all fun y => !y.2.2.entry.isWin && y.2.2.bind == x.2.2.bind && pgaCoord y.2.2.pga == pgaCoord x.2.2.pga) &&
  decide ((((x :: g).map fun y => runPackets y.2.2).foldl (· + ·) 0) ≤ 64) &&
  decide (((x :: g).map fun y => y.2.2.record).eraseDups.length ≤ 8)

/-- Add a run to the groups of a chunk write, each group in the order of its runs. -/
def addToGroups (x : Nat × Bytes × Run) : List (List (Nat × Bytes × Run)) → List (List (Nat × Bytes × Run))
  | [] => [[x]]
  | g :: gs => if joinsGroup g x then (g ++ [x]) :: gs else g :: addToGroups x gs

/-- Send groups of runs of a chunk in order, as far as R47 lets it pin their decode records; answers the runs that wait. -/
def sendGroups (k : Nat) (c : Chunk) (ctx : Nat) : List (List (Nat × Bytes × Run)) → State → List (Nat × Bytes × Run) × State
  | [], s => ([], s)
  | [] :: gs, s => sendGroups k c ctx gs s
  | (x :: rest) :: gs, s =>
    if mayPin s k c.gen ((x :: rest).map fun y => y.2.2.record) then sendGroups k c ctx gs (sendGroup k c ctx x rest s)
    else
      let a := sendGroups k c ctx gs s
      (x :: rest ++ a.1, a.2)

/-- The runs of areas that a chunk reads or writes: each with the area's first byte, the bytes written and the lines with their host
addresses. -/
def areaRuns (s : State) (c : Ctx) (isWrite : Bool) : List (Nat × Bytes × List (Nat × Nat)) → Except NoRun (List (Nat × Bytes × Run))
  | [] => .ok []
  | x :: xs =>
    match runsOf s c isWrite x.2.2 [], areaRuns s c isWrite xs with
    | .error no, _ => .error no
    | .ok _, .error no => .error no
    | .ok rs, .ok l => .ok (rs.map (fun r => (x.1, x.2.1, r)) ++ l)

/-- Send the runs of a chunk; those that wait for a decode record stay with it (R47). -/
def accessRuns (k : Nat) (c : Chunk) (ctx : Nat) (rs : List (Nat × Bytes × Run)) (s : State) : State :=
  let groups := if c.state = 1 then rs.map fun x => [x] else rs.foldl (fun gs x => addToGroups x gs) []
  let a := sendGroups k c ctx groups (setChunk k { c with left := [] } s)
  if a.1.isEmpty then a.2
  else
    match tfind a.2.cle.chunks k with
    | some c => setChunk k { c with left := a.1.map fun x => (x.1, x.2.1, x.2.2.lines.zip x.2.2.hpas) } a.2
    | none => a.2

/-! ### Chunks go on -/

/-- A chunk translates its operands and reads its sources (R269): the destination is translated with it, so that a missing page is
met before any work. -/
def driveCopy (k : Nat) (c : Chunk) (x : Job) (s : State) : State :=
  let ctx := ctxOf s x.ctx
  let src := chunkSources x.desc c
  let w : Waiter := { job := c.job, chunk := some k }
  let p := translateAll w c.quad x.ctx (piecesOver src) {} s
  let q := if c.step = 3 then (({} : Pieces), p.2)
    else translateAll { w with perm := 1 } c.quad x.ctx (piecesOver (chunkTargets x.desc c)) {} p.2
  let s := q.2
  match p.1.fails, q.1.fails with
  | some code, _ => chunkFails k c code s
  | none, some code => chunkFails k c code s
  | none, none =>
    if p.1.waits || q.1.waits then parkChunk k (p.1.fault || q.1.fault) s
    else match areaRuns s ctx false [(0, [], (areasLines src).map fun l => (l, p.1.line l))] with
      | .error no => chunkFails k c no.code (noteNoRun x.ctx no 0 s)
      | .ok rs => accessRuns k { c with step := if rs.isEmpty then 2 else if c.step = 3 then 4 else 1 } x.ctx rs s

/-- The accesses of a chunk that waited for a decode record go on (R47); their addresses are translated and decoded now, since an
invalidation may have dropped what they were translated under (R258, R259). -/
def driveLeft (k : Nat) (c : Chunk) (x : Job) (s : State) : State :=
  let isWrite := c.state == 2
  let fails := fun (code : Nat) (s : State) =>
    if c.state = 1 || !chunkBusy s k c.gen then chunkFails k c code s
    else setChunk k { c with left := [], err := if c.err = 0 then code else c.err } s
  let lines := c.left.flatMap fun a => a.2.2.map fun l => (l.1 * 64, 64)
  let p := translateAll { job := c.job, chunk := some k, perm := b2n isWrite } c.quad x.ctx (piecesOver lines) {} s
  match p.1.fails with
  | some code => fails code p.2
  | none =>
    if p.1.waits then parkChunk k p.1.fault p.2
    else match areaRuns p.2 (ctxOf p.2 x.ctx) isWrite (c.left.map fun a => (a.1, a.2.1, a.2.2.map fun l => (l.1, p.1.line l.1))) with
      | .ok rs => accessRuns k c x.ctx rs p.2
      | .error no => fails no.code (noteNoRun x.ctx no (b2n isWrite) p.2)

/-- Send an ATOMIC or APPEND to the home of its element or header (R291 to R293). -/
def driveElement (k : Nat) (c : Chunk) (x : Job) (s : State) : State :=
  let ctx := ctxOf s x.ctx
  let d := x.desc
  let cva := dDst d
  let p := translateAll { job := c.job, chunk := some k, perm := 1 } c.quad x.ctx [cva] {} s
  let s := p.2
  match p.1.fails with
  | some code => chunkFails k c code s
  | none =>
    if p.1.waits then parkChunk k p.1.fault s
    else match decodeHost s ctx (p.1.line (cva / 64)) true with
      | .error no => chunkFails k c no.code (noteNoRun x.ctx no 4 s)
      | .ok r =>
        let e := r.entry
        let pga := r.pga
        if e.isWin then chunkFails k c 0x0030 (noteNoRun x.ctx { code := 0x0030, lda := r.lda, bind := r.bind } 4 s)
        else
          let span := pieceSpan s c.quad x.ctx cva (cva + 8)
          let a := openAccess { chunk := some k, job := c.job, gen := c.gen, quad := c.quad, ctx := x.ctx, bind := r.bind, lda := r.lda,
                                op := 4, home := pgaCoord pga, lines := [cva / 64], lo := span.1, hi := span.2 } s
          let s := setChunk k { c with state := 2 } a.2
          let off := cva % 64
          let at_ := if e.view = 0 then pga + off else pga
          if dOp d = 0x10 then
            sendMem { kind := .engineWrite, who := .engine { kind := .append, a := a.1 }, part := e.part, view := e.view,
                      data := toLE 8 (dLength d), op := 2, aux := off } at_ e.partner false s
          else
            sendMem { kind := .engineWrite, who := .engine { kind := .atomic, a := a.1 }, part := e.part, view := e.view,
                      data := atomicBody (dOp d) (dDstFmt d) (dOpa d) (dOpb d), op := 1
                      aux := off + 64 * b2n (dRtz d) + 128 * b2n (dSat d) } at_ e.partner false s

/-! ### COMMIT (R294) -/

/-- A home takes its part of a commit (R167, R294): ACCESS where the range is not an active one of the partition, else it is refused
with a status or starts. -/
def commitHere (who : Who) (lo len part : Nat) (recallOp twin : Bool) (s : State) : State :=
  let c : CommitOp := { who := who, lo := lo, hi := lo + len, part := part, twin := twin }
  let hs := homesOver s lo (lo + len)
  let r : MReq := { who := who, dpa := lo, part := part, twin := twin }
  if hs.isEmpty then denyRequest r 1 s
  else if hs.any fun p => p.2.part != part then denyRequest r 1 (security (hs.headD (0, {})).2.part (packLE [(8, lo), (1, part)]) s)
  else match commitRefusal s lo (lo + len) with
    | some st => answerCommit { c with status := st } s
    | none => startCommit { c with status := commitWindow s lo (lo + len) } recallOp s

/-- The parts of a stretch of presented offsets of an extent at its homes (R48, R49): PGA and stored bytes. -/
def extentParts (s : State) (e : BookEntry) (o n : Nat) : List (Nat × Nat) :=
  if n = 0 then []
  else if !e.ilv then [(extentPga s e o, storedOffset e.view (o + n - 1) + 1 - storedOffset e.view o)]
  else
    let x := (tfind s.pga.isets (e.target % 4096)).getD {}
    let g := max 1 x.granule
    let w := max 1 x.ways
    (List.range w).filterMap fun i =>
      let first := if o / g % w = i then o else ((o / g + (i + w - o / g % w) % w) * g)
      let lastG := (o + n - 1) / g - ((o + n - 1) / g % w + w - i) % w
      let last := min (o + n - 1) (lastG * g + g - 1)
      if first ≤ last && first < o + n then
        some (extentPga s e first, extentPga s e last + 1 - extentPga s e first)
      else none

/-- Send one part of a commit to a home. -/
def sendCommit (k : Nat) (c : Chunk) (ctx cva n bind lda : Nat) (e : BookEntry) (recallOp : Bool) (part : Nat × Nat) (s : State) : State :=
  let span := pieceSpan s c.quad ctx cva (cva + n)
  let a := openAccess { chunk := some k, job := c.job, gen := c.gen, quad := c.quad, ctx := ctx, bind := bind, lda := lda, op := 5,
                        home := pgaCoord part.1, lo := span.1, hi := span.2 } s
  let ref : EngRef := { kind := .commit, a := a.1 }
  let s := a.2
  match bothTwins s part.1 e.partner with
  | none =>
    if pgaCoord part.1 = hereAt s then commitHere (.engine ref) (pgaDpa part.1) part.2 e.part recallOp false s
    else
      originate { opcode := 0x07, dest := pgaCoord part.1, src := hereAt s, pga := part.1, partition := e.part, view := e.view,
                  payload := packLE [(8, part.2), (8, b2n recallOp)] } (.commit ref) 1 4 false s
  | some t =>
    originate { opcode := 0x07, dest := pgaCoord part.1, src := hereAt s, pga := part.1, partition := e.part, view := e.view, twin := true,
                waypoint := t, payload := packLE [(8, part.2), (8, b2n recallOp)] } (.commit ref) 1 4 false s

/-- Bytes from a host address to the end of what its decoder maps contiguously. -/
def decoderRun (s : State) (c : Ctx) (hpa : Nat) : Nat :=
  match (ldOf s (ldKey c.port c.ld)).decoders.find? fun p => (hdmHit p.2 hpa).isSome with
  | some p => if p.2.ways ≤ 1 then p.2.base + p.2.size - hpa else p.2.gran - (hpa - p.2.base) % max 1 p.2.gran
  | none => 0

/-- Send the parts of a translated stretch, decode record by decode record, as far as R47 lets the chunk pin them; answers the bytes that
were sent, or why one does not decode. -/
def commitStretch (k : Nat) (ctx : Nat) (recallOp : Bool) : Nat → Nat → Nat → Nat → State → Except NoRun Nat × State
  | 0, _, _, _, s => (.error { code := 0x0030 }, s)
  | fuel + 1, cva, hpa, n, s =>
    if n = 0 then (.ok 0, s)
    else
      let c := ctxOf s ctx
      match hdmDecode (ldOf s (ldKey c.port c.ld)) hpa, tfind s.cle.chunks k with
      | none, _ => (.error {}, s)
      | _, none => (.ok n, s)
      | some lda, some x =>
        let no : NoRun := { code := 0x0030, lda := lda, bind := ((bindingAt s c.port c.ld lda).map (·.1)).getD 0 }
        match decodeLda s c.port c.ld lda false true with
        | none => (.error no, s)
        | some (b, e, _) =>
          let m := min (min n (2 ^ 26 - lda % 2 ^ 26)) (min (decoderRun s c hpa) (e.base + e.length - lda))
          let parts := extentParts s e (lda - e.base) m
          if parts.any fun p => !rankAllows s c (pgaCoord p.1) e.partner then (.error no, s)
          else if !mayPin s k x.gen [(b, lda / 2 ^ 26)] then (.ok 0, s)
          else
            let a := commitStretch k ctx recallOp fuel (cva + m) (hpa + m) (n - m) (each parts (sendCommit k x ctx cva m b lda e recallOp) s)
            (a.1.map (· + m), a.2)

/-- The status a commit completes with: the first in the order of R294. -/
def commitStatus (l : List Nat) : Nat := ([0x0030, 0x0040, 0x0053, 0x0052, 0x0051, 0x0050].find? (· ∈ l)).getD 0

/-- A commit ends once every part has been sent and answered (R294). -/
def commitEnds (k : Nat) (s : State) : State :=
  match tfind s.cle.chunks k with
  | none => s
  | some c =>
    if c.homeOp && c.state = 2 && c.pos = c.len && !chunkBusy s k c.gen then
      let bad := (c.homes.filter fun h => h.2 != 0).map (·.1)
      let st := if c.err != 0 && c.err != 0x0030 then c.err else commitStatus (c.err :: c.homes.map (·.2))
      settleChunk k { c with result := (ascending bad).length } st s
    else s

/-- Translate a commit's range piece by piece and send it to its homes (R294); a piece needs no permission beyond being present. -/
def driveCommit (k : Nat) : Nat → State → State
  | 0, s => s
  | fuel + 1, s =>
    match tfind s.cle.chunks k with
    | none => s
    | some c =>
      match tfind s.cle.jobs c.job with
      | none => s
      | some x =>
        if c.len ≤ c.pos then commitEnds k s
        else
          let cva := dDst x.desc + c.pos
          let p := translateAll { job := c.job, chunk := some k, perm := 2 } c.quad x.ctx [cva] {} s
          match p.1.fails with
          | some code =>
            if c.state = 1 then chunkFails k c code p.2
            else commitEnds k (setChunk k { c with err := code, pos := c.len } p.2)
          | none =>
            if p.1.waits then parkChunk k p.1.fault p.2
            else
              let n := min (c.len - c.pos) (grain - cva % grain)
              let c := { c with state := 2 }
              let s := setChunk k { c with pos := c.pos + n } p.2
              let r := commitStretch k x.ctx (dOpa x.desc == 1) (n + 1) cva (tget 0 p.1.hpa (cva / grain) + cva % grain) n s
              match r.1, tfind r.2.cle.chunks k with
              | _, none => r.2
              | .ok m, some y =>
                if m = n then driveCommit k fuel r.2 else setChunk k { y with pos := c.pos + m } r.2
              | .error no, some y => commitEnds k (setChunk k { y with err := no.code, pos := y.len } (noteNoRun x.ctx no 5 r.2))

/-- An issued chunk goes on as far as it can. -/
def driveChunk (k : Nat) (s : State) : State :=
  match tfind s.cle.chunks k with
  | none => s
  | some c =>
    match tfind s.cle.jobs c.job with
    | none => s
    | some x =>
      if c.parked then s
      else if dOp x.desc = 0x11 then
        if c.state = 1 || (c.state = 2 && c.pos < c.len) then driveCommit k (2 ^ 24 + 2) s else commitEnds k s
      else if !c.left.isEmpty then driveLeft k c x s
      else if c.state = 2 && c.err != 0 && !chunkBusy s k c.gen then settleChunk k c c.err s
      else if c.state != 1 then s
      else if c.homeOp then driveElement k c x s
      else if c.step = 0 || c.step = 3 then driveCopy k c x s
      else s

/-! ### Responses -/

/-- The status of R301 that a response gives an engine (R304, R305); a released contribution is lost (R325). -/
def engineStatus (st : Nat) : Nat := if st = 0 then 0 else if st = 2 then 0x0032 else if st = 3 then 0x0040 else 0x0030

/-- Put lines that have come into a buffer. -/
def bufLines : List Nat → Bytes → Tbl Bytes → Tbl Bytes
  | [], _, t => t
  | l :: ls, b, t => bufLines ls (b.drop 64) (tput t l (b.take 64))

/-- A chunk's read has come (R304, R305). -/
def chunkRead (k : Nat) (a : Access) (r : MRsp) (s : State) : State :=
  match tfind s.cle.chunks k with
  | none => s
  | some c =>
    if c.gen != a.gen || c.state != 1 then s
    else if r.status != 0 then chunkFails k c (engineStatus r.status) s
    else
      let c := { c with buf := bufLines a.lines r.data c.buf }
      let gather := match tfind s.cle.jobs c.job with | some x => dOp x.desc == 4 | none => false
      if chunkBusy s k c.gen || !c.left.isEmpty then setChunk k c s
      else setChunk k { c with step := if gather && c.step = 1 then 3 else 2 } s

/-- A home has reported a chunk write or a contribution (R298); its failure is the chunk's alone, since only a read halts a context (R304). -/
def chunkWritten (k : Nat) (a : Access) (r : MRsp) (s : State) : State :=
  match tfind s.cle.chunks k with
  | none => s
  | some c =>
    if c.state != 2 || c.gen != a.gen then s
    else
      let c := { c with err := if c.err = 0 then engineStatus r.status else c.err }
      if chunkBusy s k c.gen || !c.left.isEmpty then setChunk k c s
      else settleChunk k c c.err s

/-- A home operation has been answered (R299). -/
def elementDone (k : Nat) (a : Access) (r : MRsp) (s : State) : State :=
  match tfind s.cle.chunks k with
  | none => s
  | some c =>
    if c.state != 2 || c.gen != a.gen then s
    else if r.status != 0 then chunkFails k c (engineStatus r.status) s
    else settleChunk k { c with result := leAt r.data 8 8 } (leAt r.data 0 2) s

/-- A part of a commit has been answered. -/
def commitPart (k : Nat) (a : Access) (r : MRsp) (s : State) : State :=
  match tfind s.cle.chunks k with
  | none => s
  | some c =>
    if c.state != 2 || c.gen != a.gen then s
    else
      let st := if r.status != 0 then 0x0030 else leAt r.data 0 2
      commitEnds k (setChunk k { c with homes := c.homes ++ [(a.home, st)] } s)

/-- A record has been written, or met an access error and is kept for the next resume (R279, R305). -/
def recordWritten (n : Nat) (r : MRsp) (s : State) : State :=
  let c := ctxOf s n
  match c.records with
  | [] => s
  | j :: rest =>
    if r.status != 0 then haltCtx n 0x0062 (setCtx n { c with recordBusy := false, recordStuck := true } s)
    else
      let w := (c.cqIndex + 1) % 2 ^ c.cqOrder
      let s := setCtx n { c with
        recordBusy := false
        records := rest
        cqIndex := w
        phase := if w = 0 then !c.phase else c.phase } s
      match tfind s.cle.jobs j with
      | some x =>
        let s := finishJob j x s
        if dIrq x.desc then countCompletion n s else s
      | none => s

/-- The response to one access of the Clerks. -/
def clerkTakes (ref : EngRef) (r : MRsp) (s : State) : State :=
  match tfind s.cle.access ref.a with
  | none => s
  | some a =>
    let s := { s with cle := { s.cle with access := tkeep s.cle.access fun n _ => n != ref.a && !decide (n ∈ a.also) } }
    if a.lost && a.op != 4 then s else
    let s := if isAccess r.status && r.status != 3 then engineRecord a.ctx a.lda a.bind a.op r.status s else s
    match ref.kind, a.chunk with
    | .chunkRead, some k => chunkRead k a r s
    | .chunkWrite, some k => chunkWritten k a r s
    | .atomic, some k => elementDone k a r s
    | .append, some k => elementDone k a r s
    | .commit, some k => commitPart k a r s
    | .counter, _ =>
      match tfind s.cle.jobs a.job with
      | some x => if x.phase = 3 then jobCompletes a.job { x with counterErr := r.status != 0 || leAt r.data 0 2 != 0 } s else s
      | none => s
    | .descriptor, _ =>
      let c := ctxOf s a.ctx
      if c.fetching then setCtx a.ctx { c with fetching := false, fetched := some (engineStatus r.status, r.data) } s else s
    | .record, _ => if (ctxOf s a.ctx).recordBusy then recordWritten a.ctx r s else s
    | .rankList, _ =>
      let c := ctxOf s a.ctx
      if c.ranks.isNone then s
      else setCtx a.ctx { c with rankBuf := if r.status = 0 then bufLines a.lines r.data c.rankBuf else c.rankBuf } s
    | _, _ => s

/-! ### Counters, records and fetches -/

/-- Update a settled job's counter by one ATOMIC ADD of 1 (R303), one of its context at a time (R47). -/
def driveCounter (j : Nat) (s : State) : State :=
  match tfind s.cle.jobs j with
  | none => s
  | some x =>
    if x.phase != 3 || x.counterSent || x.parked || (jobsOf s x.ctx).any (fun y => y.2.phase == 3 && y.2.counterSent) then s
    else
      let c := ctxOf s x.ctx
      let cva := dCounterCva x.desc
      let fail := fun s : State => jobCompletes j { x with counterErr := true } s
      if cva % 8 != 0 then fail s
      else
        let p := translateAll { job := j, perm := 1 } 0 x.ctx [cva] {} s
        let s := p.2
        if p.1.fails.isSome then fail s
        else if p.1.waits then setJob j { x with parked := true } s
        else match decodeHost s c (p.1.line (cva / 64)) true with
          | .error no => fail (noteNoRun x.ctx no 4 s)
          | .ok r =>
            let e := r.entry
            let pga := r.pga
            if e.isWin then fail (noteNoRun x.ctx { code := 0x0030, lda := r.lda, bind := r.bind } 4 s)
            else
              let span := pieceSpan s 0 x.ctx cva (cva + 8)
              let a := openAccess { job := j, ctx := x.ctx, bind := r.bind, lda := r.lda, op := 4, home := pgaCoord pga, lo := span.1, hi := span.2 } s
              sendMem { kind := .engineWrite, who := .engine { kind := .counter, a := a.1 }, part := e.part, view := e.view,
                        op := 3, aux := cva % 64 } (if e.view = 0 then pga + cva % 64 else pga) e.partner false
                (setJob j { x with counterSent := true } a.2)

/-- A completion record (R300). -/
def recordBytes (c : Ctx) (x : Job) : Bytes :=
  packLE [(2, dTag x.desc), (2, x.slot), (2, x.status), (2, b2n c.phase + 2 * b2n x.counterErr), (8, x.result),
    (8, x.errOff), (2, x.gen), (2, x.reissues), (4, 0)]

/-- Whether an access of a queue of a context is still out: a read, or a write of a record (R47). -/
def queueBusy (s : State) (n op : Nat) : Bool := s.cle.access.any fun p => p.2.ctx == n && p.2.chunk.isNone && p.2.op == op

/-- Descriptors fetched or on their way for which the job table keeps a record (R278, R308). -/
def fetches (s : State) : Nat := (s.cle.ctxs.filter fun p => p.2.fetching || p.2.fetched.isSome).length

/-- Write the next completion record of a context while its queue has room (R279). -/
def pumpRecord (n : Nat) (s : State) : State :=
  let c := ctxOf s n
  match c.records with
  | [] => s
  | j :: _ =>
    if c.recordBusy || c.recordStuck || queueBusy s n 1 || (c.cqIndex + 1) % 2 ^ c.cqOrder = c.cqHead then s
    else match tfind s.cle.jobs j with
      | none => s
      | some x =>
        let hpa := c.cqBase + 32 * c.cqIndex
        match decodeHost s c (hpa / 64 * 64) true with
        | .error no => haltCtx n 0x0062 (setCtx n { c with recordStuck := true } (noteNoRun n { no with code := 0x0030 } 1 s))
        | .ok r =>
          let e := r.entry
          let pga := r.pga
          let a := openAccess { ctx := n, bind := r.bind, lda := r.lda, op := 1, home := pgaCoord pga } s
          let s := setCtx n { c with recordBusy := true } a.2
          let off := hpa % 64
          engineWrite { kind := .record, a := a.1 } pga 1 e.part e.view (zeros off ++ recordBytes c x ++ zeros (32 - off))
            ((2 ^ 32 - 1) * 2 ^ off) e.partner s

/-- Fetch the next pending descriptor of a context while R278 and R284 allow it. -/
def pumpFetch (n : Nat) (s : State) : State :=
  let c := ctxOf s n
  let jobs := jobsOf s n
  if c.state != 1 || c.waiting.isSome || c.fetching || c.fetched.isSome || queueBusy s n 0 || !pendingSlots c ||
     c.jobLimit ≤ jobs.length || 16384 ≤ s.cle.jobs.length + fetches s || jobs.any (fun p => p.2.phase == 0 && dFence p.2.desc) then s
  else match decodeHost s c (c.sqBase + 64 * c.sqHead) false with
    | .error no => idleCheck n (haltCtx n 0x0061 (noteNoRun n { no with code := 0x0030 } 0 s))
    | .ok r =>
      let a := openAccess { ctx := n, bind := r.bind, lda := r.lda, home := pgaCoord r.pga } s
      engineRead { kind := .descriptor, a := a.1 } r.pga 1 r.entry.part r.entry.view r.entry.partner
        (matchRun n r (setCtx n { c with fetching := true } a.2))

/-! ### Running on -/

/-- The responses that Clerks and queues have taken are used, in order. -/
def takeAll (s : State) : State :=
  let l := s.taken.filter fun p => clerkKind p.1.kind
  each l (fun p s => clerkTakes p.1 p.2 s) { s with taken := s.taken.filter fun p => !clerkKind p.1.kind }

/-- Clerks and queues run on until each waits. -/
def runClerk : Nat → State → State
  | 0, s => s
  | fuel + 1, s =>
    let s := takeAll s
    let s := each (s.cle.chunks.map (·.1)) driveChunk s
    let s := each (s.cle.jobs.map (·.1)) driveCounter s
    let s := each (s.cle.ctxs.map (·.1)) (fun n s => pumpFetch n (pumpRecord n s)) s
    if s.taken.any fun p => clerkKind p.1.kind then runClerk fuel s else s

/-- Enough rounds for any run of the Clerks. -/
def clerkFuel : Nat := 65536

end Sys2Proof.Machine
end

