-- ==== Sys2Proof/Machine/Tlb.lean ====
section
/-! DEFINITION. The commands of the Tally book (R250 to R264). -/
namespace Sys2Proof.Machine

/-- ATS is disabled on a logical device (R250): operands that wait for a translation or on a fault complete with XLATE_ERROR, and those that
wait for an invalidation go on and do so too. -/
def atsOff (port ld : Nat) (s : State) : State :=
  let mine := fun (p l : Nat) => p == port && l == ld
  let s := each (s.tlb.reqs.filter fun p => mine p.2.port p.2.ld) (fun p s => failXReq p.1 0x0020 p.2 s) s
  let s := each (s.tlb.faults.filter fun p => mine p.2.port p.2.ld) (fun p s => endFault p.1 0x0020 s) s
  let waits := s.tlb.faultWait.filter fun f => mine f.port f.ld
  let s := { s with tlb := { s.tlb with faultWait := s.tlb.faultWait.filter fun f => !mine f.port f.ld } }
  let s := each waits (fun f s => each f.waiters (failWaiter 0x0020) s) s
  let ofLd := fun (j : Nat) => match tfind s.cle.jobs j with
    | some x => mine (ctxOf s x.ctx).port (ctxOf s x.ctx).ld
    | none => false
  let s := each s.cle.chunks (fun p s => if p.2.parked && ofLd p.2.job then wake { job := p.2.job, chunk := some p.1 } s else s) s
  runClerk clerkFuel (each s.cle.jobs (fun p s => if p.2.parked && ofLd p.1 then wake { job := p.1 } s else s) s)

/-- ATS_ENABLE (R250): host software enables or disables ATS on a logical device, with its Smallest Translation Unit, which is accepted
as programmed (R249). -/
def execAtsEnable (port ld : Nat) (enable : Bool) (stu : Nat) (s : State) : Host.Outcome State Fault Refusal :=
  .next <|
    let k := ldKey port ld
    if !ldUp s port ld then s
    else
      let s := { s with tlb := { s.tlb with
        ats := tset false s.tlb.ats k enable
        stu := tset 0 s.tlb.stu k stu } }
      if enable then s else atsOff port ld s

/-- Outstanding Page Request Capacity as the PRI capability reports it (R249). -/
def pageRequestCapacity : Nat := 256

/-- PRI_ENABLE (R261, R262, R264): PRI is disabled and enabled again, with the Outstanding Page Request Allocation the host sets, at most
the capacity of 256: a stop ends, page requests that a port reset discarded are sent again, and faults that waited take
entries. -/
def execPriEnable (port ld allocation : Nat) (s : State) : Host.Outcome State Fault Refusal :=
  .next <|
    let k := ldKey port ld
    if !ldUp s port ld then s
    else
      let faults := s.tlb.faults.map fun p =>
        if p.2.port == port && p.2.ld == ld then (p.1, { p.2 with downDue := none }) else p
      let s := { s with tlb := { s.tlb with
        pri := tset false s.tlb.pri k true
        priStopped := tset false s.tlb.priStopped k false
        alloc := tset 0 s.tlb.alloc k (min pageRequestCapacity allocation)
        faults := faults } }
      runClerk clerkFuel (pumpFaults 256 s)

/-- TRANSLATION_COMPLETION (R251, R256): `status` 0 success, 1 Unsupported Request, 2 Completer Abort; `addr` and `size` give the
translated range, `perms` bit 0 READ and bit 1 WRITE. The rows of R256 are tried in order. -/
def execTranslationCompletion (id status addr size perms : Nat) (s : State) : Host.Outcome State Fault Refusal :=
  .next <| match tfind s.tlb.reqs id with
  | none => s
  | some r =>
    if r.again then s
    else
      let k := sizeCode size
      let lo := r.piece * grain / pieceSize k * pieceSize k
      if status != 0 then runClerk clerkFuel (failXReq id 0x0020 r s)
      else
      let met := (r.hit.filter fun h => decide (h.2.1 < lo + pieceSize k) && decide (lo < h.2.2)).map (·.1)
      if !met.isEmpty then
        let s := endXReq id r s
        let s := { s with tlb := { s.tlb with reqs := tput s.tlb.reqs id { r with entry := none, again := true, behind := met } } }
        runClerk clerkFuel (resendXlates s)
      else if size < grain then runClerk clerkFuel (failXReq id 0x0021 r s)
      else runClerk clerkFuel (useCompletion id r addr size perms s)

/-- XLATE_TIMEOUT (R256): no completion within `TLB_XLATE_TIMEOUT`. -/
def execXlateTimeout (id : Nat) (s : State) : Host.Outcome State Fault Refusal :=
  .next <| match tfind s.tlb.reqs id with
  | none => s
  | some r =>
    if r.again || s.now < r.due then s else runClerk clerkFuel (failXReq id 0x0020 r s)

/-- INVALIDATE_REQUEST (R257, R258, R260): a host's Invalidate Request for a logical device, a PASID or all, and a CVA range. -/
def execInvalidateRequest (port ld itag : Nat) (pasid : Option Nat) (addr length : Nat) (s : State) :
    Host.Outcome State Fault Refusal :=
  .next <|
    if !ldUp s port ld then s
    else requestInval { port := port, ld := ld, pasid := pasid, lo := addr, hi := addr + length, itag := some itag } s

/-- TLB_INVALIDATE (R257, R267): as an Invalidate Request for the logical device and PASID of a context; a context that is not bound
has no entry, and the command completes OK with no effect. -/
def execTlbInvalidate (q : Ask) (ctx cva length : Nat) (s : State) : Host.Outcome State Fault Refusal :=
  .next <| ask q 3 0x680300 true (fun x s =>
    let c := ctxOf s ctx
    if 4096 ≤ ctx then finish q 0x680300 stBadValue [] s
    else if x.role = 2 && !(c.assigned && c.part == x.part) then finish q 0x680300 stDenied [] s
    else if c.state = 3 then finish q 0x680300 stOk [] s
    else requestInval { port := c.port, ld := c.ld, pasid := some c.pasid, lo := cva, hi := cva + length, ask := some q } s) s

/-- ENGINE_INVALIDATE_ACK (R258): a quad acknowledges once every request it issued under a dropped translation has completed; with
the last acknowledgement the invalidation ends. -/
def execEngineInvalidateAck (id quad : Nat) (s : State) : Host.Outcome State Fault Refusal :=
  .next <| match tfind s.tlb.invals id with
  | none => s
  | some iv =>
    if s.cle.access.any fun p => p.2.quad == quad && accessUnder s iv p.2 then s
    else
      let iv := { iv with engines := iv.engines.filter (· != quad) }
      if iv.engines.isEmpty then runClerk clerkFuel (endInval id iv s)
      else { s with tlb := { s.tlb with invals := tput s.tlb.invals id iv } }

/-- PAGE_GROUP_RESPONSE (R263, R264): code 0 Success, 1 Invalid Request, anything else Response Failure (log 70, PRESUMED). A response whose index
names no pending entry of its PASID (R249) is discarded and counted. -/
def execPageGroupResponse (index code pasid : Nat) (s : State) : Host.Outcome State Fault Refusal :=
  .next <| match tfind s.tlb.faults index with
  | none => tlbCount 10 1 s
  | some f =>
    if f.retranslating || pasid != f.pasid then tlbCount 10 1 s
    else if code = 0 then
      pumpFaults 256 (sendXlate f.ctx f.pasid f.port f.ld f.piece [] (some index) ((ctxOf s f.ctx).state != 3) { s with tlb := { s.tlb with
        faults := tput s.tlb.faults index { f with retranslating := true, resend := false } } })
    else if code = 1 then runClerk clerkFuel (endFault index 0x0022 s)
    else
      let s := { s with tlb := { s.tlb with priStopped := tput s.tlb.priStopped (ldKey f.port f.ld) true } }
      runClerk clerkFuel (endFault index 0x0022 s)

/-- FAULT_TIMEOUT (R263): `TLB_FAULT_TIMEOUT` has passed on a pending fault. -/
def execFaultTimeout (index : Nat) (s : State) : Host.Outcome State Fault Refusal :=
  .next <| match tfind s.tlb.faults index with
  | none => s
  | some f =>
    if f.retranslating || s.now < f.due then s else runClerk clerkFuel (endFault index 0x0023 s)

/-- PORT_DOWN_FAULT_TIMEOUT (R263): the port of a pending fault has been down for `LDG_TIMEOUT`. -/
def execPortDownFaultTimeout (index : Nat) (s : State) : Host.Outcome State Fault Refusal :=
  .next <| match tfind s.tlb.faults index with
  | none => s
  | some f =>
    match f.downDue with
    | some t => if f.retranslating || s.now < t then s else runClerk clerkFuel (endFault index 0x0023 s)
    | none => s

end Sys2Proof.Machine
end

