-- ==== Sys2Proof/Machine/Contexts.lean ====
section
/-! DEFINITION. The commands of contexts, queues, jobs and chunks (R272 to R303). -/
namespace Sys2Proof.Machine

/-! ### Contexts (R272 to R276) -/

/-- The select entry of contexts, and its CONTROL entry (R309). -/
def keyCtxSelect : Nat := 0x500200
def keyCtxControl : Nat := 0x500202

/-- Act on the context of the session's selection: DENIED for a tenant whose partition it is not (R309, R520). -/
def onCtx (q : Ask) (key roles : Nat) (act : Nat → Ctx → State → State) (s : State) : State :=
  ask q roles key true (fun x s =>
    let n := selectOf x keyCtxSelect 0
    let c := ctxOf s n
    if x.role = 2 && !(c.assigned && c.part == x.part) then finish q key stDenied [] s else act n c s) s

/-- CONTEXT_ASSIGN (R272): a context is assigned to a partition, refused with BUSY when it already is. -/
def execContextAssign (q : Ask) (part : Nat) (s : State) : Host.Outcome State Fault Refusal :=
  .next <| onCtx q 0x500203 1 (fun n c s =>
    if 63 < part then finish q 0x500203 stBadValue [] s
    else if c.assigned then finish q 0x500203 stBusy [] s
    else finish q 0x500203 stOk [] (setCtx n { c with assigned := true, part := part } s)) s

/-- CONTEXT_RELEASE (R272): refused with BUSY while the context is bound. -/
def execContextRelease (q : Ask) (s : State) : Host.Outcome State Fault Refusal :=
  .next <| onCtx q 0x500203 1 (fun n c s =>
    if c.state != 3 || c.ranks.isSome then finish q 0x500203 stBusy [] s
    else finish q 0x500203 stOk [] (setCtx n { c with assigned := false, part := 0 } s)) s

/-- CLE_CONTEXT (R273, R364): the record's RW fields are written, refused with BUSY unless the context is not bound. -/
def execCleContext (q : Ask) (record : Bytes) (s : State) : Host.Outcome State Fault Refusal :=
  .next <| onCtx q 0x500201 3 (fun n c s =>
    let w := leAt record 4 4
    let o := leAt record 24 4
    let limit := bits (leAt record 28 4) 0 7
    if c.state != 3 || c.ranks.isSome then finish q 0x500201 stBusy [] s
    else if record.length != 64 || limit = 0 || 64 < limit then finish q 0x500201 stBadValue [] s
    else
      let f := leAt record 48 16
      finish q 0x500201 stOk [] (setCtx n { c with
        pasid := bits w 0 20
        port := bits w 20 5
        ld := bits w 25 4
        sqBase := leAt record 8 8
        cqBase := leAt record 16 8
        sqOrder := bits o 0 8
        cqOrder := bits o 8 8
        vector := bits o 16 11
        jobLimit := limit
        fabric := packBits [(14, f), (2, 0), (13, bits f 16 13), (35, 0), (64, bits f 64 64)] } s)) s

/-- Whether every line of a queue decodes to an active binding with read and write permission (R274). -/
def queueDecodes (s : State) (c : Ctx) (base bytes : Nat) : Bool :=
  (List.range ((bytes + 63) / 64)).all fun i =>
    match hdmDecode (ldOf s (ldKey c.port c.ld)) (base + 64 * i) with
    | none => false
    | some lda => (decodeLda s c.port c.ld lda true false).isSome && (decodeLda s c.port c.ld lda false false).isSome

/-- The checks of R274 before the rank table: 0, or the status of the refusal. -/
def bindRefusal (s : State) (c : Ctx) : Nat :=
  if !c.assigned || (tdiOf s (ldKey c.port c.ld)).part != c.part then stWrongPartition
  else if c.sqBase % 4096 != 0 || c.cqBase % 4096 != 0 || c.sqOrder < 6 || 16 < c.sqOrder || c.cqOrder < 6 || 16 < c.cqOrder ||
      !queueDecodes s c c.sqBase (64 * 2 ^ c.sqOrder) || !queueDecodes s c c.cqBase (32 * 2 ^ c.cqOrder) then stBadQueue
  else 0

/-- The bind is accepted (R274, R275): the context is idle, and its indices start again. -/
def bindDone (q : Ask) (n slice sliceLen : Nat) (s : State) : State :=
  let c := ctxOf s n
  finish q keyCtxControl stOk [] (setCtx n { c with
    state := 0, haltCode := 0, completed := 0, slice := slice, sliceLen := sliceLen, sqTail := 0, cqHead := 0, sqHead := 0
    cqIndex := 0, phase := true, fetching := false, fetched := none, ranks := none, rankBuf := [], chainOpen := none
    chainOk := none, n := 0, timerAt := none, records := [], recordBusy := false, recordStuck := false, inval := 0 } s)

/-- FABRIC fields (R364). -/
def rankCount (c : Ctx) : Nat := bits c.fabric 1 13
def shareCtx (c : Ctx) : Nat := bits c.fabric 16 12
def rankListAt (c : Ctx) : Nat := bits c.fabric 64 64
def unitsFor (ranks : Nat) : Nat := (ranks + 255) / 256

/-- The lowest run of free rank-table units (R365). -/
def freeUnits (s : State) (n : Nat) : Option Nat :=
  (List.range (257 - n)).find? fun u => (List.range n).all fun i => tget 0 s.mar.units (u + i) == 0

/-- Change the users of a run of rank-table units. -/
def useUnits (first n : Nat) (f : Nat → Nat) (s : State) : State :=
  { s with mar := { s.mar with units := (List.range n).foldl (fun t i => tset 0 t (first + i) (f (tget 0 t (first + i)))) s.mar.units } }

/-- A context leaves its slice (R365): a slice that nobody uses is free. -/
def leaveSlice (first ranks : Nat) (s : State) : State :=
  let s := useUnits first (unitsFor ranks) (· - 1) s
  if tget 0 s.mar.units first = 0 then
    { s with mar := { s.mar with rank := tkeep s.mar.rank fun k _ =>
      !(decide (first * 256 ≤ k) && decide (k < (first + unitsFor ranks) * 256)) } }
  else s

/-- The rank list has been read (R365): its entries are written to the slice, or the bind is refused and the units are free. -/
def ranksRead (n : Nat) (q : Ask) (first : Nat) (s : State) : State :=
  let c := ctxOf s n
  let count := rankCount c
  let b := bufBytes c.rankBuf (rankListAt c) (2 * count)
  let l := (List.range count).map fun r => leAt b (2 * r) 2
  let lines := areaLines (rankListAt c, 2 * count)
  if (lines.any fun l => (tfind c.rankBuf l).isNone) || l.any (fun e => e / 4096 != 0 || !inTorus s (e % 4096)) then
    finish q keyCtxControl stBadQueue [] (leaveSlice first count (setCtx n { c with ranks := none, rankBuf := [] } s))
  else
    let t := (List.range count).foldl (fun t r => tput t (first * 256 + r) (l.getD r 0 + 32768)) s.mar.rank
    bindDone q n first count { s with mar := { s.mar with rank := t } }

/-- Binds whose rank lists have come whole go on. -/
def pumpRanks (s : State) : State :=
  each (s.cle.ctxs.map (·.1)) (fun n s =>
    match (ctxOf s n).ranks with
    | some (q, first) =>
      if s.cle.access.any fun p => p.2.ctx == n && p.2.chunk.isNone && !p.2.lines.isEmpty then s else ranksRead n q first s
    | none => s) s

/-- Contexts that wait for an unbind have their translations invalidated once their jobs are gone (R257, R275). -/
def pumpUnbinds (s : State) : State :=
  each (s.cle.ctxs.map (·.1)) (fun n s =>
    let c := ctxOf s n
    match c.waiting with
    | some (2, _) =>
      if c.inval = 0 && (jobsOf s n).isEmpty then
        requestInval { port := c.port, ld := c.ld, lo := 0, hi := 2 ^ 64, ctx := some n } (setCtx n { c with inval := 1 } s)
      else s
    | _ => s) s

/-- The Clerks run on, and with them the binds and unbinds that wait on them. -/
def runQueues (s : State) : State :=
  pumpUnbinds (pumpRanks (runClerk clerkFuel s))

/-- BIND (R274, R365): the context is bound after its checks, allocating any rank slice, or is refused with a status. -/
def execBind (q : Ask) (s : State) : Host.Outcome State Fault Refusal :=
  .next <| onCtx q keyCtxControl 3 (fun n c s =>
    let refusal := bindRefusal s c
    if c.state != 3 || c.waiting.isSome || c.ranks.isSome then finish q keyCtxControl stBusy [] s
    else if refusal != 0 then finish q keyCtxControl refusal [] s
    else if !bitOf c.fabric 0 then bindDone q n 0 0 s
    else if bitOf c.fabric 28 then
      let o := ctxOf s (shareCtx c)
      if o.part != c.part || !o.assigned then finish q keyCtxControl stWrongPartition [] s
      else if o.state = 3 || !bitOf o.fabric 0 then finish q keyCtxControl stBadQueue [] s
      else bindDone q n o.slice o.sliceLen (useUnits o.slice (unitsFor o.sliceLen) (· + 1) s)
    else
      let count := rankCount c
      if count = 0 || 4096 < count || rankListAt c % 64 != 0 then finish q keyCtxControl stBadQueue [] s
      else match freeUnits s (unitsFor count) with
        | none => finish q keyCtxControl stRankSpace [] { s with mar := { s.mar with refusals := s.mar.refusals + 1 } }
        | some first =>
          let lines := areaLines (rankListAt c, 2 * count)
          let runs := fun (w : Bool) => runsOf s { c with fabric := 0 } w (lines.map fun l => (l, l * 64)) []
          match runs false, runs true with
          | .error _, _ => finish q keyCtxControl stBadQueue [] s
          | _, .error _ => finish q keyCtxControl stBadQueue [] s
          | .ok rs, .ok _ =>
            let s := useUnits first (unitsFor count) (· + 1) (setCtx n { c with ranks := some (q, first), rankBuf := [] } s)
            runQueues (each rs (fun r s =>
              let a := openAccess { ctx := n, bind := r.bind, lda := r.lda, home := pgaCoord r.pga, lines := r.lines } s
              engineRead { kind := .rankList, a := a.1 } r.pga r.lines.length r.entry.part r.entry.view r.entry.partner (matchRun n r a.2)) s)) s

/-- UNBIND (R275, R635): fetching stops, and the context waits for its jobs and their records. -/
def execUnbind (q : Ask) (s : State) : Host.Outcome State Fault Refusal :=
  .next <| onCtx q keyCtxControl 3 (fun n c s =>
    if c.state = 3 || c.waiting.isSome then finish q keyCtxControl stBusy [] s
    else
      let s := stopFetch n false s
      runQueues (setCtx n { ctxOf s n with waiting := some (2, q), inval := 0 } s)) s

/-- A context that is unbound or reset while its count is not 0 fires its vector (R487). -/
def firePending (ctx : Nat) (s : State) : State := if 0 < (ctxOf s ctx).n then fireContext ctx s else s

/-- UNBIND_COMPLETE (R275, R487): no job is left and the translations are invalidated: the context is not bound. -/
def execUnbindComplete (ctx : Nat) (s : State) : Host.Outcome State Fault Refusal :=
  .next <|
    let s := runQueues s
    let c := ctxOf s ctx
    match c.waiting with
    | some (2, q) =>
      if c.inval = 2 && (jobsOf s ctx).isEmpty then
        let s := if bitOf c.fabric 0 then leaveSlice c.slice c.sliceLen s else s
        let s := firePending ctx s
        finish q keyCtxControl stOk [] (setCtx ctx { c with
          state := 3, waiting := none, haltCode := 0, sqTail := 0, slice := 0, sliceLen := 0, n := 0, timerAt := none, inval := 0 } s)
      else s
    | _ => s

/-- RESUME (R275, R305): a halted context clears HALT_CODE and runs on; a record that met an access error is written again. -/
def execResume (q : Ask) (s : State) : Host.Outcome State Fault Refusal :=
  .next <| onCtx q keyCtxControl 3 (fun n c s =>
    if c.state = 3 || c.waiting.isSome then finish q keyCtxControl stBusy [] s
    else if c.state != 2 then finish q keyCtxControl stOk [] s
    else
      let s := setCtx n { c with state := b2n (pendingSlots c), haltCode := 0, recordStuck := false } s
      runQueues (finish q keyCtxControl stOk [] s)) s

/-- CONTEXT_RESET (R276, R635): chunks that are not committing are abandoned, and the rest are waited for. -/
def execContextReset (q : Ask) (s : State) : Host.Outcome State Fault Refusal :=
  .next <| onCtx q keyCtxControl 3 (fun n c s =>
    if c.state = 3 || c.waiting.isSome then finish q keyCtxControl stBusy [] s
    else
      let jobs := jobsOf s n
      let mine := fun (x : Chunk) => jobs.any fun p => p.1 == x.job
      let chunks := tkeep s.cle.chunks fun _ x => x.state == 2 || !mine x
      let s := { s with cle := { s.cle with chunks := chunks } }
      let s := each jobs (fun p s => setJob p.1 { p.2 with phase := 5 } s) s
      let s := stopFetch n true s
      runQueues (setCtx n { ctxOf s n with
        waiting := some (4, q), records := [], recordBusy := false, recordStuck := false
        chainOpen := none, chainOk := none } s)) s

/-- An access that is a counter update not yet settled nor lost (R299, R303): the only home operation without a chunk. -/
def openCounter (a : Access) : Bool := a.chunk.isNone && a.op == 4 && !a.lost

/-- CONTEXT_RESET_COMPLETE (R276, R487): every committing chunk has settled; no record is written and no counter updated, and the context is
idle with its indices at 0. -/
def execContextResetComplete (ctx : Nat) (s : State) : Host.Outcome State Fault Refusal :=
  .next <|
    let s := runQueues s
    let c := ctxOf s ctx
    match c.waiting with
    | some (4, q) =>
      let jobs := jobsOf s ctx
      if (jobs.any fun p => !(chunksOfJob s p.1).isEmpty) || s.cle.access.any (fun p => p.2.ctx == ctx && openCounter p.2) then s
      else
        let s := firePending ctx { s with cle := { s.cle with jobs := tkeep s.cle.jobs fun _ x => x.ctx != ctx } }
        runQueues (finish q keyCtxControl stOk [] (setCtx ctx { c with
          state := 0, n := 0, timerAt := none, haltCode := 0, waiting := none, sqHead := 0, sqTail := 0, cqIndex := 0, phase := true } s))
    | _ => s

/-! ### Doorbells (R104, R105, R275) -/

/-- A write that a context page ignores is counted (R104). -/
def strayWrite (port ld : Nat) (s : State) : State :=
  let k := ldKey port ld
  setLd k { ldOf s k with stray := (ldOf s k).stray + 1 } s

/-- Whether a context's page is live on a logical device (R104). -/
def pageLive (s : State) (port ld page : Nat) : Bool :=
  let c := ctxOf s page
  c.state != 3 && c.port == port && c.ld == ld

/-- SQ_TAIL (R104, R275, R277, R635): the doorbell of a context. -/
def execSqTail (port ld page value : Nat) (aligned : Bool) (s : State) : Host.Outcome State Fault Refusal :=
  .next <|
    if !ldUp s port ld then s
    else if !aligned || !pageLive s port ld page then strayWrite port ld s
    else
      let c := ctxOf s page
      let v := value % 2 ^ 32
      if 2 ^ c.sqOrder ≤ v then haltCtx page 0x0060 s
      else
        let c := { c with sqTail := v }
        let c := if c.state = 0 && c.waiting.isNone && pendingSlots c then { c with state := 1 } else c
        runQueues (idleCheck page (setCtx page c s))

/-- CQ_HEAD (R104, R279): software has read records; those that wait for room are written. -/
def execCqHead (port ld page value : Nat) (aligned : Bool) (s : State) : Host.Outcome State Fault Refusal :=
  .next <|
    if !ldUp s port ld then s
    else if !aligned || !pageLive s port ld page then strayWrite port ld s
    else runQueues (setCtx page { ctxOf s page with cqHead := value % 2 ^ 32 } s)

/-! ### Jobs -/

/-- DESCRIPTOR_FETCH (R278, R281, R282, R305): a descriptor that has been read is checked and becomes a job; a fetch that met an access
error or an uncorrectable error halts the context. -/
def execDescriptorFetch (ctx : Nat) (s : State) : Host.Outcome State Fault Refusal :=
  .next <|
    let s := runQueues s
    let c := ctxOf s ctx
    match c.fetched with
    | none => s
    | some (st, d) =>
      let s := setCtx ctx { c with fetched := none } s
      if c.state != 1 || c.waiting.isSome || 16384 ≤ s.cle.jobs.length then s
      else if st = 0x0032 then haltCtx ctx 0x0032 s
      else if st != 0 then haltCtx ctx 0x0061 s
      else
        let j := s.cle.nextJob
        let x : Job := { ctx := ctx, slot := c.sqHead, order := j, desc := d.take 64, prev := c.chainOpen,
                         linkOk := if c.chainOpen.isSome then c.chainOk else none, checkErr := checkDescriptor d }
        let s := setCtx ctx { c with
          fetched := none
          sqHead := (c.sqHead + 1) % 2 ^ c.sqOrder
          chainOpen := if dChain d then some j else none
          chainOk := none } s
        let s := { s with cle := { s.cle with nextJob := j + 1 } }
        runQueues (startJobs ctx (cleCount 0 1 (setJob j x s)))

/-- JOB_COMPLETE (R302, R303): every chunk of a job has settled; its counter is updated, then its record written. -/
def execJobComplete (job : Nat) (s : State) : Host.Outcome State Fault Refusal :=
  .next <|
    let s := runQueues s
    match tfind s.cle.jobs job with
    | none => s
    | some x =>
      if x.phase != 2 then s
      else if dCounter x.desc && x.checkErr = 0 then
        runQueues (setJob job { x with phase := 3, counterSent := false, parked := false } s)
      else runQueues (jobCompletes job x s)

/-! ### Chunks (R296 to R299) -/

/-- The job table's record of a job is lost (R594, structure 15): its chunks are abandoned, its context halts with UNCORRECTABLE and
no record is written. -/
def loseJob (j : Nat) (x : Job) (s : State) : State :=
  let s := { s with cle := { s.cle with
    chunks := tkeep s.cle.chunks fun _ c => c.job != j
    jobs := tdel s.cle.jobs j } }
  contained 15 2 0 j 0 x.ctx (some (ctxOf s x.ctx).part) (haltCtx x.ctx 0x0032 s)

/-- A Tally-book entry is lost (R594, structure 12): it is invalid, and an access translates again. -/
def loseTally (n : Nat) (s : State) : State :=
  match tfind s.tlb.entries n with
  | some e =>
    if e.state != 2 then s
    else
      let near := s.tlb.near.map fun p => (p.1, p.2.filter fun x => !(x.ctx == e.ctx && x.cva == e.cva))
      corrected 12 n { s with tlb := { s.tlb with
        entries := tdel s.tlb.entries n
        near := near } }
  | none => s

/-- CHUNK_ISSUE (R298): a waiting chunk is issued to a quad with room, and its operands are translated and read. `upset` is an error met
on the way, by structure of R594: 12 a Tally-book entry (number upset / 32), 13 a pending-fault entry (index upset / 32), 14 the
quad's chunk buffer, 15 the job table. -/
def execChunkIssue (chunk quad upset : Nat) (s : State) : Host.Outcome State Fault Refusal :=
  .next <| match tfind s.cle.chunks chunk with
  | none => s
  | some c =>
    match tfind s.cle.jobs c.job with
    | none => s
    | some x =>
      if c.state != 0 || x.phase != 1 || !quadTakes s quad || (c.reissues != 0 && c.quad == quad) then s
      else
        let part := (ctxOf s x.ctx).part
        if upset % 32 = 15 then runQueues (loseJob c.job x s)
        else if upset % 32 = 14 then
          let s := contained 14 2 quad chunk (if dOp x.desc = 2 || dOp x.desc = 4 || dOp x.desc = 5 then 3 else 4) x.ctx (some part) s
          runQueues (chunkFails chunk { c with state := 1, quad := quad, gen := x.gen } 0x0032 s)
        else
          let s := if upset % 32 = 12 then loseTally (upset / 32) s else s
          let s := if upset % 32 = 13 && (tfind s.tlb.faults (upset / 32)).isSome then
              endFault (upset / 32) 0x0020 (contained 13 2 0 (upset / 32) 0 x.ctx (some part) s)
            else s
          runQueues (issueChunk chunk c x quad s)

/-- Send what a chunk writes once its destination's translation is at hand (R269, R296). -/
def commitChunk (k : Nat) (c : Chunk) (x : Job) (s : State) : State :=
  let ctx := ctxOf s x.ctx
  let areas := chunkTargets x.desc c
  let p := translateAll { job := c.job, chunk := some k, perm := 1 } c.quad x.ctx (piecesOver areas) {} s
  let s := p.2
  match p.1.fails with
  | some code => chunkFails k c code s
  | none =>
    if p.1.waits then
      -- the quad asks again when the translation has come (R259)
      if p.1.fault then setChunk k { c with faulting := true, due := c.due - s.now } s else s
    else
      let b := chunkBytes x.desc c
      match areaRuns s ctx true ((areas.zip b.1).map fun a => (a.1.1, a.2, (areaLines a.1).map fun l => (l, p.1.line l))) with
      | .error no => chunkFails k c no.code (noteNoRun x.ctx no 1 s)
      | .ok rs => accessRuns k { c with state := 2, result := b.2 } x.ctx rs s

/-- A chunk that no quad has run yet: no message about it can come. -/
def neverIssued (c : Chunk) : Bool := c.state == 0 && c.reissues == 0

/-- LEAVE_REQUEST (R296, R298): a quad asks leave to write; granted only for the recorded generation of an issued chunk, and the chunk
write is sent. -/
def execLeaveRequest (chunk gen : Nat) (s : State) : Host.Outcome State Fault Refusal :=
  .next <|
    let s := runQueues s
    match tfind s.cle.chunks chunk with
    | none => s
    | some c =>
      match tfind s.cle.jobs c.job with
      | none => s
      | some x =>
        if neverIssued c then s
        else if gen != c.gen then countStale s
        else if c.state != 1 || c.step != 2 || c.homeOp || dOp x.desc = 3 || c.faulting then s
        else runQueues (commitChunk chunk c x s)

/-- CHUNK_RESULT (R296, R298): the result of a COMPARE's chunk, accepted with the recorded generation. -/
def execChunkResult (chunk gen : Nat) (s : State) : Host.Outcome State Fault Refusal :=
  .next <|
    let s := runQueues s
    match tfind s.cle.chunks chunk with
    | none => s
    | some c =>
      match tfind s.cle.jobs c.job with
      | none => s
      | some x =>
        if neverIssued c then s
        else if gen != c.gen then countStale s
        else if c.state != 1 || c.step != 2 || dOp x.desc != 3 then s
        else
          let r := firstDiff c.lo (bufBytes c.buf (dDst x.desc + c.lo) c.len) (bufBytes c.buf (dSrc x.desc + c.lo) c.len)
          runQueues (settleChunk chunk { c with result := r.getD noDiff } 0 s)

/-- CHUNK_ERROR (R298, R304): a quad reports that its chunk failed with a status of R301. -/
def execChunkError (chunk gen err : Nat) (s : State) : Host.Outcome State Fault Refusal :=
  .next <| match tfind s.cle.chunks chunk with
  | none => s
  | some c =>
    if neverIssued c || err = 0 then s
    else if gen != c.gen then countStale s
    else if c.state != 1 then s
    else runQueues (chunkFails chunk c err s)

/-- CHUNK_TIMEOUT (R298): `CLE_CHUNK_TIMEOUT` has passed on an issued chunk that waits on no fault. -/
def execChunkTimeout (chunk : Nat) (s : State) : Host.Outcome State Fault Refusal :=
  .next <| match tfind s.cle.chunks chunk with
  | none => s
  | some c =>
    if c.state != 1 || c.faulting || s.now < c.due then s else runQueues (reissueChunk chunk s)

/-- The home operations and chunk writes of a committing chunk that are lost: neither report nor keep-alive for `CLE_LOST_TIMEOUT`
(R299). -/
def lateAccesses (s : State) (chunk : Nat) (c : Chunk) : Tbl Access :=
  s.cle.access.filter fun p => p.2.chunk == some chunk && p.2.gen == c.gen && decide (p.2.lostDue ≤ s.now)

/-- The counter updates of a job that are lost (R299). -/
def lateCounters (s : State) (job : Nat) : Tbl Access :=
  s.cle.access.filter fun p => p.2.job == job && openCounter p.2 && decide (p.2.lostDue ≤ s.now)

/-- A job's counter update is lost: it has failed (R299, R303). -/
def loseCounter (job : Nat) (s : State) : State :=
  let late := lateCounters s job
  if late.isEmpty then s
  else
    let s := { s with cle := { s.cle with
      access := s.cle.access.map fun p => if (tfind late p.1).isSome then (p.1, { p.2 with lost := true }) else p } }
    match tfind s.cle.jobs job with
    | some x => runQueues (if x.phase = 3 then jobCompletes job { x with counterErr := true } s else s)
    | none => s

/-- LOST_TIMEOUT (R298, R299): `CLE_LOST_TIMEOUT` has passed with neither report nor keep-alive of an operation of chunk `n`, or of the counter
update of job `n`; of a COMMIT the parts that are lost end as CHUNK_LOST, and the others are waited for (R294). -/
def execLostTimeout (n : Nat) (counter : Bool) (s : State) : Host.Outcome State Fault Refusal :=
  .next <| if counter then loseCounter n s else
  let chunk := n
  match tfind s.cle.chunks chunk with
  | none => s
  | some c =>
    let late := lateAccesses s chunk c
    if c.state != 2 || late.isEmpty then s
    else
      let isCommit := match tfind s.cle.jobs c.job with | some x => dOp x.desc == 0x11 | none => false
      if isCommit then
        let gone := fun (p : Nat × Access) => if (tfind late p.1).isSome then (p.1, { p.2 with chunk := none }) else p
        let s := { s with cle := { s.cle with access := s.cle.access.map gone } }
        runQueues (commitEnds chunk (setChunk chunk { c with homes := c.homes ++ late.map fun p => (p.2.home, 0x0040) } s))
      else runQueues (chunkFails chunk c 0x0040 s)

/-- A home reports that an operation is still open (R299): its timer runs again, and no other's. -/
def renewAccess (id : Nat) (s : State) : State :=
  match tfind s.cle.access id with
  | some a => { s with cle := { s.cle with
      access := s.cle.access.map fun p =>
        if p.1 = id || p.1 ∈ a.also then (p.1, { p.2 with lostDue := s.now + msec (rCleLostTimeout s) }) else p } }
  | none => s

/-- Whether a request is a home operation or a chunk write, and the node and tag it came under. -/
def openOpOf (r : MReq) : Option (Nat × Nat) :=
  match r.who with
  | .nodeEngine c t => if r.kind == .engineWrite && !r.contrib then some (c, t) else none
  | _ => none

/-- The home operations and chunk writes that this home holds open for other nodes (R299). -/
def openOps (s : State) : List (Nat × Nat) :=
  let l := (s.ldg.txns.filterMap fun p => openOpOf p.2.req) ++ (s.ring.waiting.filterMap fun p => openOpOf p.req) ++
    (s.pga.migrates.flatMap fun p => p.2.held.filterMap openOpOf) ++
    (s.car.commits.filterMap fun p => match p.2.who with | .nodeEngine c t => some (c, t) | _ => none) ++
    (s.mar.chunks.map fun p => (p.1 / 65536, p.1 % 65536))
  l.foldl (fun acc x => if x ∈ acc then acc else acc ++ [x]) []

/-- KEEPALIVE_SEND (R299): a keep-alive goes to the issuing node of every operation this home holds open; those of this node's own
quads are renewed at once. -/
def execKeepaliveSend (s : State) : Host.Outcome State Fault Refusal :=
  .next <|
    let s := each (openOps s) (fun o s => sendBypass 0x88 o.1 o.2 0 0 [] s) s
    each (s.cle.access.filter fun p => p.2.home == hereAt s) (fun p s => renewAccess p.1 s) s

end Sys2Proof.Machine
end

