-- ==== Sys2Proof/Machine/Lock.lean ====
section
/-! DEFINITION. Partitions, keys and the Sweep (15): the key-record table (R455), rotation and re-keying (R461 to R464), the states
of a partition (R465) and the Sweep (R466, R467), with credentials and attestation (R478, R479). -/
namespace Sys2Proof.Machine

def setPart (p : Nat) (x : Partition) (s : State) : State := { s with lck := { s.lck with parts := tput s.lck.parts p x } }

/-- Add to one of LCK_SWEEP_STATS: 0 Sweeps, 1 range Sweeps, 2 rotations, 3 lines re-keyed, 4 units rewritten, 5 failures (R481). -/
def lckCount (i : Nat) (s : State) : State := { s with lck := { s.lck with stats := bump s.lck.stats i 1 } }

def controlKey (p : Nat) : Nat := 0x700200 + p

/-- A new seed's name; 0 is kept for a zeroised slot (R453; log 5, DESIGN CHOICE). -/
def newSeed (s : State) : Nat := draw s + 1

/-! ### The key-record table (R455) -/

/-- What a change of the key-record table does once it is durable, or at once in flat mode (R456, R461, R463, R465, R467). -/
def changeDone (c : Nat) (s : State) : State :=
  let p := c / 8
  let x := partOf s p
  let record := fun (s : State) =>
    let y := partOf s p
    let t := if y.seedCur = 0 then tdel s.lck.table p else tput s.lck.table p (y.current, y.previous, y.seedCur, y.seedPrev)
    if s.car.tiered then { s with lck := { s.lck with table := t } } else s
  if c % 8 = 1 then
    if x.state != 0 || x.change != 1 then s
    else
      finish x.ask (controlKey p) stOk []
        (record (setPart p { x with state := 1, change := 0, current := 1, seedCur := x.nextSeed, nextSeed := 0, rekeyFails := 0 } s))
  else if c % 8 = 2 then
    if x.change != 2 then s
    else if x.state != 1 then setPart p { x with change := 0, nextSeed := 0 } s
    else
      let s := setPart p { x with
        state := 2, change := 0, previous := x.current, seedPrev := x.seedCur, current := x.current + 1
        seedCur := x.nextSeed, nextSeed := 0, rotateTime := s.now, rekeyLines := 0, rekeyUnits := 0, walked := 0 } s
      finish x.ask (controlKey p) stOk [] (lckCount 2 (record s))
  else if c % 8 = 4 then record (setPart p { x with sweepStep := if x.sweepStep = 3 then 4 else x.sweepStep } s)
  else record s

/-- Ask for a change of the key-record table: absent in flat mode, one at a time in tiered mode (R455, R456). -/
def changeTable (p kind : Nat) (s : State) : State :=
  if !s.car.tiered then changeDone (p * 8 + kind) s
  else match s.lck.changing with
    | none => { s with lck := { s.lck with changing := some (p * 8 + kind) } }
    | some _ => { s with lck := { s.lck with changeWait := s.lck.changeWait ++ [p * 8 + kind] } }

/-- KEY_RECORD_TABLE_DURABLE (R455): a change is durable, the other pair is erased and becomes the standby pair, and the next
change starts. -/
def execKeyRecordTableDurable (s : State) : Host.Outcome State Fault Refusal :=
  .next <| match s.lck.changing with
  | none => s
  | some c =>
    let s := { s with lck := { s.lck with
      standbyB := !s.lck.standbyB
      changing := s.lck.changeWait.head?
      changeWait := s.lck.changeWait.drop 1 } }
    changeDone c (assertSource 129 s)

/-! ### LCK_PARTITION_CONTROL (R465) -/

/-- PARTITION_CREATE (R465): a free partition draws the seed of epoch 1, loads its slot and becomes active. -/
def execPartitionCreate (q : Ask) (part : Nat) (s : State) : Host.Outcome State Fault Refusal :=
  .next <| if 64 ≤ part then s else ask q 1 (controlKey part) true (fun _ s =>
    let x := partOf s part
    if x.state != 0 || x.change != 0 then finish q (controlKey part) stBusy [] s
    else changeTable part 1 (setPart part { x with change := 1, nextSeed := newSeed s, ask := q } (drawn s))) s

/-- PARTITION_ROTATE (R461, R465): an active partition draws a seed; at the rotation point its epoch advances. -/
def execPartitionRotate (q : Ask) (part : Nat) (s : State) : Host.Outcome State Fault Refusal :=
  .next <| if 64 ≤ part then s else ask q 3 (controlKey part) true (fun x0 s =>
    let x := partOf s part
    let moving := s.pga.book.any fun p => p.2.kind == 1 && p.2.part == part && (p.2.state == 4 || p.2.state == 5)
    if !ownsPart x0 part then finish q (controlKey part) stDenied [] s
    else if x.state = 0 then finish q (controlKey part) stNoKeys [] s
    else if x.state != 1 || x.change != 0 || moving then finish q (controlKey part) stBusy [] s
    else if 65535 ≤ x.current then
      finish q (controlKey part) stEpochWrap [] (raise 0x2802 1 (some part) (packLE [(1, part), (2, x.current)]) s)
    else changeTable part 2 (setPart part { x with change := 2, nextSeed := newSeed s, ask := q } (drawn s))) s

/-- A TDI goes to ERROR, with its event where it was locked or running (R475). -/
def tdiError (k : Nat) (s : State) : State :=
  let x := tdiOf s k
  let s := setTdi k { x with state := 3 } s
  if x.state = 1 || x.state = 2 then raise 0x2804 1 (if x.part < 64 then some x.part else none) (packLE [(1, k / 16), (1, k % 16)]) s
  else s

/-- Close the sessions that a test names (R479). -/
def closeSessions (p : Session → Bool) (s : State) : State :=
  { s with sah := { s.sah with sessions := s.sah.sessions.filter fun e => !p e.2 } }

/-- The home entries of a partition. -/
def homesOf (s : State) (part : Nat) : List (Nat × BookEntry) := s.pga.book.filter fun p => p.2.kind == 1 && p.2.part == part

/-- Step t1 of the Sweep: every holder of every tracked line of the ranges is recalled and its data discarded (R467). -/
def sweepRecalls (part : Nat) (s : State) : State :=
  let hs := homesOf s part
  let lines := (s.ldg.entries.filter fun p => hs.any fun h => decide (h.2.base / 64 ≤ p.1) &&
    decide (p.1 * 64 < h.2.base + h.2.length)).map (·.1)
  let a := recallLines (.sweep part) 2 true lines s
  setPart part { partOf a.2 part with recalls := a.1 } a.2

/-- PARTITION_SWEEP (R465 to R467): the Sweep starts; its home entries go to sweeping. -/
def execPartitionSweep (q : Ask) (part : Nat) (s : State) : Host.Outcome State Fault Refusal :=
  .next <| if 64 ≤ part then s else ask q 1 (controlKey part) true (fun _ s =>
    let x := partOf s part
    if x.state = 0 then finish q (controlKey part) stNoKeys [] s
    else if x.state = 3 then finish q (controlKey part) stBusy [] s
    else
      let s := if x.change = 2 then finish x.ask (controlKey part) stBusy [] s else s
      let s := setPart part { x with state := 3, sweepStep := 1, sweepPos := 0, change := 0, nextSeed := 0 } s
      let s := each s.lck.tdis (fun t s => if t.2.part = part then tdiError t.1 s else s) s
      let s := closeSessions (fun e => e.role == 2 && e.part == part) { s with
        lck := { s.lck with tenants := tdel s.lck.tenants part }
        storeBlobs := tdel s.storeBlobs (0x700400 + part) }
      let s := each (homesOf s part) (fun h s =>
        let s := migrateFails h.1 stBusy s
        match tfind s.pga.clears h.1 with
        | some c => answerReserve c stBusy 0 (freeHome h.1 s)
        | none => entryState h.1 6 s) s
      finish q (controlKey part) stOk [] (sweepRecalls part s)) s

/-- A recall of a Sweep has ended (R467, t1). -/
def sweepRecallEnded (part rid : Nat) (s : State) : State :=
  let x := partOf s part
  setPart part { x with recalls := x.recalls.filter (· != rid) } s

/-- Step t2 of the Sweep (R467). -/
def sweepClear (part : Nat) (s : State) : State :=
  let groups := ascending ((s.stk.units.filter fun u => u.2.part == part && (tfind s.stk.live u.1).isSome).map fun u => unitGroup s u.1)
  let hs := homesOf s part
  let s := setPart part { partOf s part with groups := groups } s
  if s.car.tiered then
    let s := each ((s.car.frames.filter fun f => f.2.part == part).map (·.1)) dropBlock s
    each hs (fun h s => clearUnits (h.2.base / 65536) (h.2.length / 65536) 0 0 s) s
  else each hs (fun h s => clearRange (h.2.base / 64) ((h.2.base + h.2.length) / 64) s) s

/-- Step t6 of the Sweep (R467, R470): the ranges are free and clean, and so is the partition. -/
def sweepEnds (part : Nat) (s : State) : State :=
  let s := each (homesOf s part) (fun h s =>
    let gs := granulesOf h.2.base h.2.length
    let s := freeHome h.1 s
    { s with pga := { s.pga with clean := gs.foldl (fun t g => tset false t g true) s.pga.clean } }) s
  let s := { s with lck := { s.lck with parts := tdel s.lck.parts part } }
  raise 0x2803 0 (some part) (packLE [(1, part)]) (lckCount 0 s)

/-- SWEEP_STEP_DONE (R467): the step in progress has ended and the next starts; nothing happens while the Sweep pauses (R465) or the
step's work is not done. -/
def execSweepStepDone (part : Nat) (s : State) : Host.Outcome State Fault Refusal :=
  .next <|
    let x := partOf s part
    let go := fun (st : Nat) (s : State) => setPart part { partOf s part with sweepStep := st, sweepPos := 0 } s
    if x.state != 3 || firmwareHeld s then s
    else if x.sweepStep = 1 then (if x.recalls.isEmpty then sweepClear part (go 2 (assertSource 130 s)) else s)
    else if x.sweepStep = 2 then
      if s.stk.journal.any fun j => j.2.type == 1 && (homesOf s part).any fun h => h.2.base / 65536 == j.2.first then s
      else
        let s := assertSource 130 s
        if x.seedCur = 0 then go 4 s
        else changeTable part 4 (setPart part { partOf (go 3 s) part with seedCur := 0, seedPrev := 0 } (go 3 s))
    else if x.sweepStep = 4 then
      go 5 { assertSource 130 (drawn s) with
        lck := { s.lck with throwaway := 0 }
        stk := { s.stk with refresh := s.stk.refresh ++ x.groups.filter fun g => !decide (g ∈ s.stk.refresh) } }
    else if x.sweepStep = 5 then
      if x.groups.isEmpty then sweepEnds part (assertSource 130 s) else s
    else s

/-! ### The re-key sweep (R462 to R464) -/

/-- The EPOCH that a logical unit's header on flash records, where the map holds it. -/
def unitEpoch (s : State) (b : Nat) : Option Nat :=
  let m := mapEntry s b
  if !m.valid || m.phys = lostUnit then none else (tfind s.stk.units m.phys).map (·.epoch)

/-- The block rewrite of the flash pass (R462): every DIRTY bit is set, and the block is committed without RECALL. -/
def rewriteBlock (b part : Nat) (s : State) : State :=
  match frameOf s b with
  | none => s
  | some f =>
    if f.state = 1 then s
    else
      let s := setFrame b { f with dirty := List.range 1024, state := if f.state = 2 then 3 else f.state } s
      startCommit { who := .engine { kind := .sweep, a := part, b := b }, lo := b * 65536, hi := b * 65536 + 65536, part := part }
        false s

/-- Re-key one line in DRAM (R462, R464). -/
def rekeyLine (dl l part : Nat) (x : Partition) (s : State) : State :=
  let m := lineMeta s l
  if !m.valid || m.epoch != x.previous || m.part != part then s
  else
    let r := readLine l part dl s
    let s := reportLine r.1 l dl part 2 0 r.2
    let b := mergeBase r.1
    let s := writeLine l part dl b.1 b.2 s
    if r.1.status < 2 then lckCount 3 s
    else rekeyFailed part (lckCount 3 s)

/-- The DRAM pass has visited a line: REKEY_LINES advances when all the lines of a block have been visited in order, and a block that is left
before its end is walked again from its start (R460, R465). -/
def walkLine (part line : Nat) (s : State) : State :=
  let x := partOf s part
  if line % 1024 != 0 && line != x.walked then s
  else setPart part { x with walked := line + 1, rekeyLines := x.rekeyLines + (if line % 1024 = 1023 then 65536 else 0) } s

/-- Every DRAM pass is to walk the block in progress again from its start (R465). -/
def rewindPasses (s : State) : State :=
  { s with lck := { s.lck with parts := s.lck.parts.map fun p => (p.1, { p.2 with walked := 0 }) } }

/-- Whether a write-back that began before the rotation point has not ended, so that the flash pass has not started (R462). -/
def oldWriteBack (s : State) (part epoch : Nat) : Bool :=
  s.stk.programs.any fun p => (p.2.done == 0 || p.2.done == 4) && p.2.unit.kind == 0 && p.2.unit.part == part && p.2.unit.epoch == epoch

/-- REKEY_WRITE (R462): a DPA line under PREVIOUS is rewritten under CURRENT, its value unchanged and its DIRTY bit with it. In tiered
mode the last line of a block also lets the flash pass rewrite the block, and a block not in DRAM is filled in the sweep
class first. -/
def execRekeyWrite (part line : Nat) (s : State) : Host.Outcome State Fault Refusal :=
  .next <|
    let x := partOf s part
    let b := line / 1024
    let inFlash := unitEpoch s b == some x.previous && !oldWriteBack s part x.previous
    let serves := match dramLine s line with | some d => lineServes s d | none => true
    if x.state != 2 || firmwareHeld s || x.previous = 0 || !serves then s
    else match homeAt s (line * 64) with
      | none => s
      | some (_, h) =>
        if h.part != part then s
        else if !s.car.tiered then walkLine part line (rekeyLine line line part x s)
        else match frameOf s b with
          | some f =>
            if f.state = 1 then s
            else
              let s := walkLine part line (rekeyLine line (frameLine s b f + line % 1024) part x s)
              if line % 1024 = 1023 && inFlash then rewriteBlock b part s else s
          | none =>
            if inFlash then
              let s := if hasRoom s b then s else makeRoom b s
              if hasRoom s b then startFill b part 7 s else s
            else s

/-- Whether both passes have ended: no line and no unit of the partition is left under PREVIOUS, and no write-back is to leave one. -/
def rekeyed (s : State) (part : Nat) (x : Partition) : Bool :=
  !oldWriteBack s part x.previous &&
  (s.mem.info.all fun m => !(m.2.valid && m.2.part == part && m.2.epoch == x.previous)) &&
  (s.stk.map.all fun m => !(m.2.valid && (match tfind s.stk.units m.2.phys with
    | some u => u.part == part && u.epoch == x.previous
    | none => false)))

/-- REKEY_DONE (R463): both passes have ended; the slot of PREVIOUS is zeroised, its seed leaves the table and the partition is
active. -/
def execRekeyDone (part : Nat) (s : State) : Host.Outcome State Fault Refusal :=
  .next <|
    let x := partOf s part
    if x.state != 2 || firmwareHeld s || !rekeyed s part x then s
    else
      let s := setPart part { x with state := 1, previous := 0, seedPrev := 0 } s
      raise 0x2801 0 (some part) (packLE [(1, part), (2, x.current)]) (changeTable part 3 s)

/-! ### Assignments and credentials (R450, R478, R479) -/

/-- Whether a logical device has an active binding (log 22, DEDUCED) or a bound context (R450). -/
def ldBound (s : State) (port ld : Nat) : Bool :=
  (s.pga.book.any fun p => p.2.kind == 2 && p.2.state == 2 && p.2.port == port && p.2.ld == ld) ||
  (s.cle.ctxs.any fun c => c.2.state != 3 && c.2.port == port && c.2.ld == ld)

/-- LCK_LD_PARTITION (R450, R474): a logical device's partition. -/
def execLckLdPartition (q : Ask) (port ld value : Nat) (s : State) : Host.Outcome State Fault Refusal :=
  .next <| ask q 1 0x700300 true (fun _ s =>
    let k := ldKey port ld
    if 24 ≤ port || 16 ≤ ld || !(decide (value < 64) || value == 255) then finish q 0x700300 stBadValue [] s
    else if ldBound s port ld || (tdiOf s k).state != 0 then finish q 0x700300 stBusy [] s
    else storeLater q 0x700300 k value [] (setTdi k { tdiOf s k with part := value } s)) s

/-- LCK_TENANT_CRED (R479): a tenant's credential; the sessions that used another one are closed. -/
def execLckTenantCred (q : Ask) (part : Nat) (digest : Bytes) (s : State) : Host.Outcome State Fault Refusal :=
  .next <| if 64 ≤ part then s else ask q 1 (0x700400 + part) true (fun _ s =>
    if !(digest.length == 0 || digest.length == 64) then finish q (0x700400 + part) stBadValue [] s
    else
      let s := { s with lck := { s.lck with tenants := if digest.isEmpty then tdel s.lck.tenants part else tput s.lck.tenants part digest } }
      let s := closeSessions (fun e => e.role == 2 && e.part == part && e.digest != digest) s
      storeLater q (0x700400 + part) 0 0 digest s) s

/-- The measurements of R559, by index, 64 B each: digests of the ROM, the image and the provisioning record (their values: log 5, DESIGN CHOICE), the version
and SVN of the image in service, and `FW_SVN_MIN`. -/
def measurement (s : State) (i : Nat) : Bytes :=
  if i = 1 then toLE 64 (Config.digest 1 0)
  else if i = 2 then toLE 64 (imageField s.fw.running 64 64)
  else if i = 3 then packLE [(8, fwVersion s), (2, fwSvn s), (54, 0)]
  else if i = 4 then toLE 64 (Config.digest 3 (fromLE s.sah.anchor))
  else toLE 64 s.fuses

/-- A signature of the identity key over a message (R477; its value: log 5, DESIGN CHOICE). -/
def signature (b : Bytes) : Bytes := toLE 512 (Config.digest 0 (fromLE b))

/-- LCK_ATTEST (R478): a signed report of nonce, measurements, coordinates and the partitions' states and epochs; a tenant's carries
its own partition alone (its layout: log 61, DESIGN CHOICE). -/
def execLckAttest (q : Ask) (nonce : Bytes) (s : State) : Host.Outcome State Fault Refusal :=
  .next <| ask q 3 0x700701 true (fun x s =>
    if nonce.length != 32 then finish q 0x700701 stBadValue [] s
    else
      let ps := if x.role = 2 then [x.part] else List.range 64
      let body := nonce ++ [1, 2, 3, 4, 5].flatMap (measurement s) ++ toLE 2 (hereAt s) ++
        ps.flatMap fun p => packLE [(1, p), (1, (partOf s p).state), (2, (partOf s p).current)]
      finish q 0x700701 stOk (body ++ signature body) s) s

end Sys2Proof.Machine
end

