-- ==== Sys2Proof/Machine/Twin.lean ====
section
/-! DEFINITION. Twin pairs (13): the follower's events, losing a twin, takeover, resilvering and the role swap. -/
namespace Sys2Proof.Machine

/-! ### Ranges and roles (R400, R401, R422) -/

/-- The twinned range a DPA lies in. -/
def twinRange (s : State) (dpa : Nat) : Option (Nat × BookEntry × Twin) :=
  match homeAt s dpa with
  | some (n, h) => (twinOf s n).map fun t => (n, h, t)
  | none => none

/-- A twin record takes a role and a state; TWIN of the home entry follows it (R54, R401): 1 lead, 2 follower, 3 twin lost. -/
def setRole (n role st : Nat) (s : State) : State :=
  match twinOf s n with
  | none => s
  | some t =>
    let s := twinState n { t with role := role, since := if role = 2 then none else t.since } st s
    changeBook n { bookOf s n with twin := if role = 2 then 2 else if st = 3 then 3 else 1 } s

/-- The records of a role in one of some states. -/
def twinsIn (s : State) (role : Nat) (sts : List Nat) : List Nat :=
  (s.twn.recs.filter fun p => p.2.role == role && decide (p.2.state ∈ sts)).map (·.1)

/-- A notice to the partner beside the link faults (R356, 0x85): kind 1 STALE, 2 PATCH, 3 history, 4 VERIFY (log 63, DESIGN CHOICE). -/
def twinNotice (kind value pga : Nat) (s : State) : State :=
  stampSend { opcode := 0x85, src := hereAt s, pga := pga, payload := toLE 8 (packBits [(40, value), (16, 0), (8, kind)]) } 0 s

/-- A follower goes stale (R411, R420): it discards what it holds and answers nothing. -/
def goStale (n : Nat) (s : State) : State :=
  let s := setRole n 2 4 s
  { s with twn := { s.twn with heldReq := [], heldRsp := [], pending := [] } }

/-- A range that can be served by neither twin (R417, R423). -/
def goUnusable (n : Nat) (s : State) : State :=
  let s := setRole n 2 6 s
  raise 0x2C02 2 (some (bookOf s n).part) (packLE [(8, pgaOf s (bookOf s n).base)]) s

/-! ### The follower's requests (R409) -/

/-- A followed COMMIT packet (R167, R294, R409): the follower sends no recall; the lead's recalls end by events of their own. -/
def commitFrom (p : Packet) (respond : Bool) (s : State) : State :=
  let lo := pgaDpa p.pga
  let hi := lo + leAt p.payload 0 8
  let aux := rspAux s 0 1 0 (twinRoleAt s lo)
  let hs := homesOver s lo hi
  if hs.isEmpty || hs.any fun h => h.2.part != p.partition then (if respond then respondTo p 1 [] aux s else s)
  else match commitRefusal s lo hi with
    | some st => if respond then respondTo p 0 (opResult (commitCode st) 1) aux s else s
    | none =>
      startCommit { who := if respond then .nodeEngine p.src p.tag else .host 0, lo := lo, hi := hi, part := p.partition
                    status := commitWindow s lo hi, twin := p.twin } false s

/-- A STAGE packet at its home (R174); a follower answers it only where its event says so (R409). -/
def stageFrom (p : Packet) (respond : Bool) (s : State) : State :=
  let r : StageReq := { block := pgaDpa p.pga / 65536, part := p.partition, line := p.aux, src := p.src, tag := p.tag, twin := p.twin
                        quiet := !respond }
  let a := stageAtHome r s
  match a.1 with
  | some st => if respond then respondTo p st [] (rspAux a.2 0 1 0 (twinRoleAt a.2 (pgaDpa p.pga))) a.2 else a.2
  | none => runCarter carterFuel a.2

/-- Whether a range is a copy at this node that a TWN_DETACH keeps and that waits for the rebinds of its bindings (R402). -/
def keptCopy (s : State) (base : Nat) : Bool :=
  match twinRange s base with
  | some (n, _, t) => t.made && (tfind s.twn.detach n).isSome
  | none => false

/-- One binding has been rebound to the kept copy (R402): its unreference of the old home says so, and the copy keeps its reference
(log 132, DESIGN CHOICE). -/
def noteRebound (base : Nat) (s : State) : State :=
  match twinRange s base with
  | some (n, _, t) => setTwin n { t with rebound := t.rebound + 1 } s
  | none => s

/-- UNREFERENCE and WINDOW_BIND at a home (R65, R311). -/
def manageHere (p : Packet) (respond : Bool) (s : State) : State :=
  if bits p.aux 0 8 = 2 then
    let s' := if keptCopy s (pgaDpa p.pga) then noteRebound (pgaDpa p.pga) s else unreferenceHere (pgaDpa p.pga) p.src s
    if respond then manageDone p [] s' else s'
  else
    let a := windowBindHere (pgaDpa p.pga) (leAt p.payload 0 1) p.src s
    if respond then manageDone p (packLE [(2, a.1), (6, 0), (8, a.2.1)]) a.2.2 else a.2.2

/-- A lead stamps, and copies to its follower, a request that opens no transaction (R403, R404, R406). -/
def stampOther (p : Packet) (s : State) : State :=
  match twinRange s (pgaDpa p.pga) with
  | none => s
  | some (n, _, t) =>
    let first := pgaDpa p.pga / 64
    let count := if p.opcode = 0x07 then (leAt p.payload 0 8 + 63) / 64 else if p.opcode = 0x09 then 1024 else 1
    let s := stampEvent n 0 p.src p.tag p.twin ((List.range (min count (2 ^ 20))).map (· + first)) false s
    if !p.twin && t.role == 1 && (t.state == 1 || t.state == 2 || t.state == 5) then
      stampSend { p with twin := true, pga := rMarPairPartner s * 2 ^ 50 + pgaDpa p.pga } 5 s
    else s

/-- A request packet of another node is served at its home, which leads the range (R44, R65, R167, R174, R311). -/
def serveHere (p : Packet) (s : State) : State :=
  if p.opcode = 0x0B then manageHere p true (stampOther p s)
  else if p.opcode = 0x07 then
    commitHere (.nodeEngine p.src p.tag) (pgaDpa p.pga) (leAt p.payload 0 8) p.partition (bitOf (leAt p.payload 8 8) 0) p.twin (stampOther p s)
  else if p.opcode = 0x09 then stageFrom p true (stampOther p s)
  else homeRequest (requestOf p) s

/-- Requests held for a range that this node leads again are served in arrival order (R417 step 4, R424). -/
def serveHeld (s : State) : State :=
  let held := s.twn.heldReq
  each held serveHere { s with twn := { s.twn with heldReq := [] } }

/-- A lead goes solo (R419): TWIN is 3, no more stamps, changes are marked from now on; requests held by a swap go on. -/
def goSolo (n : Nat) (s : State) : State :=
  let s := setRole n 1 3 { s with twn := { s.twn with partnerStale := true } }
  match s.twn.swap with
  | some (q, _) =>
    serveHeld (finish q 0x780102 stTimeout [] { s with twn := { s.twn with swap := none, swapped := false } })
  | none => s

/-- A contribution that the lead applied in a newer generation re-arms the follower's window first (R409; log 62, DEDUCED). -/
def followGen (n : Nat) (h : BookEntry) (r : MReq) (s : State) : State :=
  let w := winOf s n
  if r.contrib && newerGen r.wgen w.gen then
    let a := windowAreas w.inFmt w.outFmt w.elements
    setWin n { w with state := 1, isOver := false, gen := r.wgen, count := 0, applied := 0 }
      (clearRange ((h.base + a.2.1) / 64) ((h.base + a.2.2.1) / 64) s)
  else s

/-- EXEC (R409): a held request is applied as the lead applied it. Answers whether it was, or waits for a fill. -/
def followApply (p : Packet) (respond : Bool) (s : State) : Bool × State :=
  match homeAt s (pgaDpa p.pga) with
  | none => (true, s)
  | some (n, h) =>
    if p.opcode = 0x0B then (true, manageHere p respond s)
    else if p.opcode = 0x07 then (true, commitFrom p respond s)
    else if p.opcode = 0x09 then (true, stageFrom p respond s)
    else
      let r := { requestOf p with noRsp := !respond }
      if h.part != r.part || beyondRange h r then (true, answer r { status := 1, role := twinRole s n } s)
      else if h.window then
        let a := windowAccess n h r true (followGen n h r s)
        (true, match a.1 with | some rsp => answer r { rsp with role := twinRole a.2 n } a.2 | none => a.2)
      else
        let lines := reqLines h r
        let s := if s.car.tiered then each (ascending (lines.map (· / 1024))) (fun b s => needFrame b r s) s else s
        if !(lines.all fun l => lineReady s l (fullWrite r)) then (false, s)
        else
          let b := applyRequest n h { req := r, lines := lines } s
          (true, answer r b.1 b.2)

/-- RECALL_END (R409): a held recall response is applied, its write-back as a write by the owner; a timeout poisons the line (R135), and a
PURGED answer acts as the purge would (R111). -/
def followRecall (p : Packet) (s : State) : State :=
  match homeAt s (pgaDpa p.pga) with
  | none => s
  | some (_, h) =>
    let lines := storedLines h p.view (pgaDpa p.pga) 1
    let s := if p.payload.isEmpty then s
      else writeShown h p.view (pgaDpa p.pga) h.part p.host p.payload fullBE p.poison s
    each lines (fun l s =>
      if p.status = 3 then removeHolder l p.host (poisonDpa l h.part s)
      else if p.status = 8 then
        removeHolder l p.host (if (match tfind s.ldg.entries l with | some x => x.owned | none => false) then poisonDpa l h.part s else s)
      else applyAnswer l p.host p.view p.aux s) s

/-- Write one line of a resilver unit: data, poison, or the cleared state (R425). -/
def writeUnitLine (l part : Nat) (data : Bytes) (m : Nat) (s : State) : State :=
  if m % 2 = 1 then writeDpa l part data (m / 2 == 1) s
  else match dramLine s l with
    | some d => dirtyLine l (clearLine d s)
    | none => s

/-- A window record from its 64 B (R316); the fields that only this node keeps stay. -/
def readWindow (w : Win) (b : Bytes) : Win :=
  let a := leAt b 0 4
  { w with
    state := bits a 0 3, isOver := bitOf a 3, inFmt := bits a 8 4, outFmt := bits a 12 4, gen := bits a 16 16
    expected := leAt b 4 4, elements := leAt b 8 8, notify := leAt b 16 8, count := leAt b 24 8, applied := leAt b 32 8
    stale := leAt b 40 8, dup := leAt b 48 8, rejected := leAt b 56 8 }

/-- RESILVER (R425): a received unit is written at its place in ORDER, and answered. Answers whether it was. -/
def followUnit (tag : Nat) (s : State) : Bool × State :=
  match tfind s.twn.units tag with
  | none => (false, s)
  | some ps =>
    match ps.find? fun p => p.opcode == 0x0B with
    | none => (false, s)
    | some mp =>
      match twinRange s (pgaDpa mp.pga) with
      | none => (true, s)
      | some (n, h, t) =>
        let dl := pgaDpa mp.pga / 64
        let s := if s.car.tiered then needFrame (dl / 1024) { part := h.part } s else s
        if !lineReady s dl true then (false, s)
        else
          let data := (List.range 32).flatMap fun i =>
            match ps.find? fun p => p.opcode == 0x03 && bits p.aux 0 6 == i with | some p => p.payload | none => zeros 1024
          let bitsOf := fromLE mp.payload
          let s := if t.state = 4 then setRole n 2 1 s else s
          let s := each (List.range 512) (fun i s =>
            writeUnitLine (dl + i) h.part ((data.drop (64 * i)).take 64) (bits bitsOf (2 * i) 2) s) s
          let w := winOf s n
          let s := if h.window && pgaDpa mp.pga == h.base + (windowAreas w.inFmt w.outFmt w.elements).2.2.1 then
              setWin n (readWindow w data) (clearRange dl (dl + 512) s) else s
          let s := acceptClosed mp.src tag { s with twn := { s.twn with units := tdel s.twn.units tag } }
          (true, respondTo mp 0 [] 0 s)

/-! ### Applying events in ORDER (R408 to R411) -/

/-- A held packet that an event names. -/
def heldFor (l : List Packet) (src tag : Nat) : Option Packet := l.find? fun p => p.src == src && p.tag == tag

/-- The range of an event has applied it: LAST_ORDER, and in sync from the first event with RESPOND set (R422). -/
def eventDone (dpa : Nat) (e : StampEv) (s : State) : State :=
  match twinRange s dpa with
  | none => s
  | some (n, _, t) =>
    let s := setTwin n { t with lastOrder := e.order } s
    if e.respond && t.role == 2 && t.state == 1 then entryState n 2 (setRole n 2 2 s) else s

/-- The partner hands its lead role over (R422, R424): steps 3 and 4 of R417 with the ranges in sync, and with VERIFY every flash unit
of the ranges is read once, in the sweep class; how each read ended comes with a FLASH_PATROL of the unit (log 131, DESIGN CHOICE). TERM is
one more than that of the SWAP's message, once, whatever heartbeats have brought (R399). -/
def takeRole (term : Nat) (s : State) : State :=
  let mine := twinsIn s 2 [2]
  let next := (term + 1) % 65536
  let s := each mine (fun n s => setRole n 1 2 s)
    { s with twn := { s.twn with term := if newerGen s.twn.term next then s.twn.term else next } }
  let s := if s.twn.verify then
      each mine (fun n s =>
        let h := bookOf s n
        each (s.stk.map.filter fun m => m.2.valid && m.2.phys != lostUnit && decide (h.base / 65536 ≤ m.1) &&
          decide (m.1 * 65536 < h.base + h.length)) (fun m s => emit (.flash 2 m.2.phys 7)
            { s with twn := { s.twn with verifying := s.twn.verifying ++ [m.2.phys] } }) s) s
    else s
  serveHeld { s with twn := { s.twn with verify := false } }

/-- Apply one event if it can be applied now. -/
def applyEvent (e : StampEv) (s : State) : Bool × State :=
  if e.kind = 0 then
    match heldFor s.twn.heldReq e.src e.tag with
    | none => (false, s)
    | some p =>
      let s' := eventDone (pgaDpa p.pga) e s
      let a := followApply p e.respond s'
      if a.1 then (true, { a.2 with twn := { a.2.twn with heldReq := a.2.twn.heldReq.erase p } }) else (false, s)
  else if e.kind = 1 || e.kind = 2 then
    match s.twn.heldRsp.find? fun p => p.tag == e.tag with
    | none => (false, s)
    | some p =>
      let s := eventDone (pgaDpa p.pga) e s
      let p' := if e.kind = 2 then { p with status := 3 } else p
      (true, followRecall p' { s with twn := { s.twn with heldRsp := s.twn.heldRsp.erase p } })
  else if e.kind = 3 then
    let dpa := match tfind s.twn.units e.tag with | some (p :: _) => pgaDpa p.pga | _ => 0
    let a := followUnit e.tag s
    if a.1 then (true, eventDone dpa e a.2) else a
  else (true, takeRole e.term s)

/-- Whether an event is discarded at once: no range of the stream applies events, and it is no RESILVER (R422). -/
def idleFollower (s : State) : Bool := (twinsIn s 2 [1, 2]).isEmpty

/-- Apply the received events in ORDER as far as they can be applied (R408). -/
def runEvents : Nat → State → State
  | 0, s => s
  | fuel + 1, s =>
    match s.twn.pending with
    | [] => s
    | (e, _) :: rest =>
      let a := applyEvent e s
      if a.1 then
        runEvents fuel (twnCount 2 1 { a.2 with twn := { a.2.twn with
          applied := (e.order + 1) % 2 ^ 40
          pending := if a.2.twn.pending.isEmpty then [] else rest } })
      else s

def eventFuel : Nat := 100000

/-- A request for a twinned range at its home (R404, R409, R412, R417, R423): served, held for its event, dropped by a stale twin, or
answered ACCESS by an unusable one. -/
def twinned (p : Packet) (act : State → State) (s : State) : State :=
  match twinRange s (pgaDpa p.pga) with
  | none => act s
  | some (_, _, t) =>
    if t.state = 6 then respondTo p 1 [] 0 s
    else if t.state = 4 then s
    else if t.role = 2 || t.state = 5 then
      runEvents eventFuel { s with twn := { s.twn with heldReq := s.twn.heldReq ++ [p] } }
    else act s

/-- Whether the follower's store is full and requests for twinned ranges wait in their links (R411). -/
def storeFull (s : State) : Bool := decide (32768 ≤ s.twn.heldReq.length + s.twn.heldRsp.length)

/-! ### Losing a twin (R416 to R421) -/

/-- Recall afresh every line of a range that is recorded as owned (R417 step 5): each is held by a transaction of its own. -/
def recallOwned (n : Nat) (s : State) : State :=
  let h := bookOf s n
  let lines := (s.ldg.entries.filter fun p => p.2.owned && decide (h.base / 64 ≤ p.1) && decide (p.1 * 64 < h.base + h.length)).map (·.1)
  each lines (fun l s => openTxn { kind := .invalidate, dpa := l * 64, part := h.part, noRsp := true } [l] s) s

/-- Apply what can be applied of the received events, whether or not earlier ones wait (R417 step 1). -/
def drainEvents (s : State) : State :=
  each s.twn.pending (fun e s => (applyEvent e.1 s).2) (runEvents eventFuel s)

/-- TAKEOVER (R417): the follower leads the ranges of the lead's stream that it holds in sync. -/
def takeover (s : State) : State :=
  let s := drainEvents s
  let s := each s.twn.heldRsp followRecall s
  let s := { s with twn := { s.twn with heldRsp := [], pending := [], term := (s.twn.term + 1) % 65536, partnerStale := true } }
  let mine := twinsIn s 2 [2]
  let s := each mine (fun n s => setRole n 1 3 (match twinOf s n with | some t => setTwin n { t with since := some [] } s | none => s))
    (twnCount 7 1 s)
  serveHeld (each mine recallOwned s)

/-- PARTNER_TIMEOUT (R416, R417, R419): the stamp link is down and no heartbeat has come for `TWN_PARTNER_TIMEOUT`. -/
def execPartnerTimeout (s : State) : Host.Outcome State Fault Refusal :=
  .next <|
    let down := match stampLink s with | some p => !portUp s p | none => true
    if !s.twn.seen || !down || s.now < s.twn.seenPair + usec (rTwnPartnerTimeout s) then s
    else
      let s := latchAlert 2 { s with twn := { s.twn with seen := false, lost := s.twn.lost + 1 } }
      let s := each (twinsIn s 1 [1, 2, 5]) goSolo s
      let s := each (twinsIn s 2 [1, 4]) goUnusable s
      if (twinsIn s 2 [2]).isEmpty then s else takeover s

/-- HEARTBEAT_SEND (R397, R399): a heartbeat to the node named as partner, on the stamp link and on the ring route of R341. -/
def execHeartbeatSend (s : State) : Host.Outcome State Fault Refusal :=
  .next <|
    if rMarPairPartner s = 0xFFFF || s.now < s.twn.hbDue then s
    else
      let p : Packet := { opcode := 0x84, dest := rMarPairPartner s, src := hereAt s,
                          payload := packLE [(8, s.now), (2, s.twn.term), (6, 0)] }
      let s := pairSend p 0 { s with twn := { s.twn with hbDue := s.now + usec 5 } }
      match routeRing s p none with
      | .send port q e => injectOn port q 0 e s
      | _ => s

/-- A lead that was solo starts a delta resilver once its stale partner is back (R422, R426). -/
def startDelta (s : State) : State :=
  let up := match stampLink s with | some p => portUp s p | none => false
  if !up || !partnerReachable s || !s.twn.partnerStale then s
  else
    let s := { s with twn := { s.twn with partnerStale := false } }
    each (twinsIn s 1 [3]) (fun n s =>
      match twinOf s n with
      | some t => setRole n 1 1 (setTwin n { t with full := t.full && decide (t.pos < (bookOf s n).length) } s)
      | none => s) s

/-- A TERM newer than this node's (R421): the node goes stale for every range it led, and TWIN_SPLIT names them. The TERM of a SWAP that
waits to be applied is no split: it is taken with the role (R399, R424). -/
def meetTerm (term : Nat) (s : State) : State :=
  if !newerGen term s.twn.term || s.twn.pending.any (fun e => e.1.kind == 4 && (e.1.term + 1) % 65536 == term) then s
  else
    let split := twinsIn s 1 [1, 2, 3, 5]
    let since := s.now - s.twn.seenPair
    let s := { s with twn := { s.twn with term := term } }
    let s := each split (fun n s =>
      raise 0x2C03 2 (some (bookOf s n).part) (packLE [(8, pgaOf s (bookOf s n).base), (8, since)]) (goStale n s)) s
    if split.isEmpty then s else twnCount 9 1 s

/-- A former lead is follower once its partner has taken the role (R424): it discards its conflict queue. -/
def swapEnds (term : Nat) (s : State) : State :=
  if !s.twn.swapped || term != s.twn.term then s
  else
    let s := each (twinsIn s 1 [5]) (fun n s => setRole n 2 2 s) s
    let s := { s with twn := { s.twn with swapped := false, heldReq := [] } }
    match s.twn.swap with
    | some (q, _) => finish q 0x780102 stOk [] (twnCount 8 1 { s with twn := { s.twn with swap := none } })
    | none => s

/-- HEARTBEAT (R397, R399, R420, R421, R423): the partner names this node and is reachable; its TERM is met; a partner that stays reachable while the stamp link is
down makes the lead solo and the follower stale; a stale node sends its history. -/
def execHeartbeat (p : Packet) (s : State) : Host.Outcome State Fault Refusal :=
  .next <|
    if !isOp p 0x84 then s
    else if malformedPacket p then countMalformed s
    else if p.src != rMarPairPartner s then s
    else
      let s := { s with twn := { s.twn with named := true } }
      let back := !s.twn.seen
      let term := leAt p.payload 8 2
      let s := swapEnds term (meetTerm term s)
      let s := { s with twn := { s.twn with seen := true, seenPair := s.now } }
      let s := each (twinsIn s 2 [6]) (fun n s => setRole n 2 4 s) s
      let up := match stampLink s with | some q => portUp s q | none => false
      let s := if up then s else each (twinsIn s 2 [1, 2]) goStale (each (twinsIn s 1 [1, 2, 5]) goSolo s)
      let s := if back && !(twinsIn s 2 [4]).isEmpty then
          let hist := s.twn.history
          each hist (fun h s => twinNotice 3 h.2.2 (rMarPairPartner s * 2 ^ 50 + h.2.1) s) s
        else s
      startDelta s

/-- REJOIN_HISTORY (R423): the units of a rejoining twin's last events are marked, and the delta resilver follows; a range that is stale
here too is unusable. -/
def execRejoinHistory (p : Packet) (s : State) : Host.Outcome State Fault Refusal :=
  .next <|
    if !isOp p 0x85 || leAt p.payload 7 1 != 3 then s
    else if malformedPacket p then countMalformed s
    else if p.src != rMarPairPartner s then s
    else match twinRange s (pgaDpa p.pga) with
      | none => s
      | some (n, _, t) =>
        if t.role = 2 then (if t.state = 4 then goUnusable n s else s)
        else
          let lines := (List.range (max 1 (leAt p.payload 0 5))).map (· + pgaDpa p.pga / 64)
          startDelta (markUnits n lines { s with twn := { s.twn with partnerStale := true } })

/-- STALE_REPORT (R411, R419): the lead goes solo for every range of its stream. -/
def execStaleReport (p : Packet) (s : State) : Host.Outcome State Fault Refusal :=
  .next <|
    if !isOp p 0x85 || leAt p.payload 7 1 != 1 then s
    else if malformedPacket p then countMalformed s
    else if p.src != rMarPairPartner s then s
    else startDelta (each (twinsIn s 1 [1, 2, 5]) goSolo s)

/-! ### Stamps (R407 to R411) -/

/-- The events of a STAMP message. -/
def stampEvents (b : Bytes) : List StampEv :=
  let h := leAt b 0 8
  (List.range (bits h 40 2 + 1)).map fun i =>
    let e := leAt b (8 + 4 * i) 4
    { order := (bits h 0 40 + i) % 2 ^ 40, src := bits e 0 12, tag := bits e 12 16, kind := bits e 28 3, respond := bitOf e 31
      term := bits h 42 16 }

/-- A received event joins those not yet applied. A gap in ORDER means that stamps were lost, and a lag above `TWN_LAG_LIMIT` that
the follower cannot keep up: it reports STALE (R411; log 64, DEDUCED). -/
def receiveEvent (e : StampEv) (s : State) : State :=
  let next := (s.twn.applied + s.twn.pending.length) % 2 ^ 40
  if idleFollower s && s.twn.pending.isEmpty && e.kind != 3 then
    { s with twn := { s.twn with applied := (e.order + 1) % 2 ^ 40 } }
  else
    let gap := !(twinsIn s 2 [2]).isEmpty && e.order != next && (s.twn.applied != 0 || !s.twn.pending.isEmpty)
    if gap || rTwnLagLimit s ≤ s.twn.pending.length then
      twinNotice 1 0 0 (each (twinsIn s 2 [1, 2]) goStale { s with twn := { s.twn with applied := (e.order + 1) % 2 ^ 40 } })
    else { s with twn := { s.twn with
      applied := if s.twn.pending.isEmpty then e.order else s.twn.applied
      pending := s.twn.pending ++ [(e, s.now + usec (rTwnBodyWait s))] } }

/-- STAMP (R408, R421, R424): the follower applies the stamped events in ORDER with the requests it holds. -/
def execStamp (p : Packet) (s : State) : Host.Outcome State Fault Refusal :=
  .next <|
    if !isOp p 0x82 then s
    else if malformedPacket p then countMalformed s
    else if p.src != rMarPairPartner s then s
    else
      let term := bits (leAt p.payload 0 8) 42 16
      let s := swapEnds term (meetTerm term s)
      runEvents eventFuel (each (stampEvents p.payload) receiveEvent s)

/-- BODY_WAIT_TIMEOUT (R410): the body of the oldest event has not come; a patch is asked for, and later events go on (log 65, DEDUCED). -/
def execBodyWaitTimeout (order : Nat) (s : State) : Host.Outcome State Fault Refusal :=
  .next <| match s.twn.pending with
  | [] => s
  | (e, due) :: rest =>
    if e.order != order || s.now < due || (applyEvent e s).1 then s
    else
      let body := if e.kind = 0 then (heldFor s.twn.heldReq e.src e.tag).isSome
        else if e.kind = 3 then (tfind s.twn.units e.tag).isSome else false
      if body then s
      else
        let s := twinNotice 2 e.order 0 s
        runEvents eventFuel { s with twn := { s.twn with applied := (e.order + 1) % 2 ^ 40, pending := rest } }

/-- PATCH (R410): the lead resilvers the units that its history gives for the ORDER named. -/
def execPatch (p : Packet) (s : State) : Host.Outcome State Fault Refusal :=
  .next <|
    if !isOp p 0x85 || leAt p.payload 7 1 != 2 then s
    else if malformedPacket p then countMalformed s
    else if p.src != rMarPairPartner s then s
    else match s.twn.history.find? fun h => h.1 == leAt p.payload 0 5 with
      | none => s
      | some h =>
        match twinRange s h.2.1 with
        | none => s
        | some (n, _, _) => twnCount 3 1 (markUnits n ((List.range h.2.2).map (· + h.2.1 / 64)) s)

/-! ### Resilvering (R425, R426) -/

/-- The next unit to copy of a range, or none when nothing remains. -/
def nextUnit (s : State) (n : Nat) (t : Twin) : Option Nat :=
  if t.full && decide (t.pos < (bookOf s n).length) then some (t.pos / 32768) else t.changed.head?

/-- The range that has a unit to copy. -/
def resilverNext (s : State) : Option (Nat × Nat) :=
  (s.twn.recs.filterMap fun p =>
    if p.2.role == 1 && (p.2.state == 1 || p.2.state == 2) then (nextUnit s p.1 p.2).map fun u => (p.1, u) else none).head?

/-- Nothing remains to be copied: the range is in sync (R422, R426). -/
def syncEnds (n : Nat) (s : State) : State :=
  match twinOf s n with
  | some t =>
    if t.role = 1 && t.state = 1 && (nextUnit s n t).isNone && s.twn.resilver.isNone then
      setRole n 1 2 (setTwin n { t with full := false } s)
    else s
  | none => s

/-- The bytes of the unit as they are sent: the control area of a window carries its record (R426). -/
def unitBytes (s : State) (n u : Nat) (data : Bytes) : Bytes :=
  let h := bookOf s n
  let w := winOf s n
  if h.window && u * 32768 == (windowAreas w.inFmt w.outFmt w.elements).2.2.1 then windowRecord w ++ data.drop 64 else data

/-- A unit that the home has read is sent: 32 CHUNK_WRITE packets and one RESILVER_META under one tag on the stamp link (R425). -/
def sendUnit (s : State) : State :=
  match s.twn.resilver with
  | none => s
  | some (n, u, tag) =>
    match takenFor s { kind := .resilver, a := n, b := u } with
    | none => s
    | some rsp =>
      let s := useTaken (fun r => r.kind == .resilver) s
      let h := bookOf s n
      let pga := rMarPairPartner s * 2 ^ 50 + h.base + u * 32768
      let base : Packet := { src := hereAt s, tag := tag, twin := false, pga := pga, partition := h.part }
      let data := unitBytes s n u (rsp.data.take 32768)
      let s := each (List.range 32) (fun i s => stampSend { base with
        opcode := 0x03, aux := packBits [(6, i), (6, 32)], payload := (data.drop (1024 * i)).take 1024 } 5 s) s
      stampSend { base with opcode := 0x0B, aux := packBits [(8, 8), (6, 32), (6, 32)], payload := (rsp.data.drop 32768).take 128 } 5 s

/-- RESILVER_UNIT (R425, R426): the lead recalls, blocks, reads and stamps the next unit and sends it; a range with nothing left to copy is
in sync. -/
def execResilverUnit (s : State) : Host.Outcome State Fault Refusal :=
  .next <|
    let s := each (twinsIn s 1 [1]) syncEnds s
    if s.twn.resilver.isSome then sendUnit s
    else match resilverNext s, freeTag s false with
      | some _, none =>
        if s.twn.unitStalled then s
        else { s with mar := { s.mar with stalls := s.mar.stalls + 1 }, twn := { s.twn with unitStalled := true } }
      | some (n, u), some tag =>
        match twinOf s n with
        | none => s
        | some t =>
          let h := bookOf s n
          let s := setTwin n { t with changed := t.changed.filter (· != u) } s
          let rec_ : TagRec := { use := .resilver n u, dest := rMarPairPartner s, npk := 1, due := s.now + pathTimeout s, pga := pgaOf s (h.base + u * 32768) }
          let s := { s with
            mar := { s.mar with tags := tput s.mar.tags tag rec_ }
            twn := { s.twn with resilver := some (n, u, tag), unitStalled := false } }
          let r : MReq := { kind := .invalidate, who := .engine { kind := .resilver, a := n, b := u }, dpa := h.base + u * 32768,
                            lines := 512, part := h.part, op := 5, aux := tag }
          sendUnit (openTxn r ((List.range 512).map (· + (h.base + u * 32768) / 64)) (twnCount 4 1 s))
      | none, _ => s

/-- The follower has written a unit (DONE under its tag): a full resilver's RESILVER_POS moves past it (R401, R426). -/
def unitDone (n u : Nat) (s : State) : State :=
  let s := match twinOf s n with
    | some t => if t.full && t.pos == u * 32768 then setTwin n { t with pos := t.pos + 32768 } s else s
    | none => s
  syncEnds n { s with twn := { s.twn with resilver := none } }

/-- A unit has not been answered in time (R588): it is to be copied again. -/
def unitLost (n u : Nat) (s : State) : State :=
  let s := match twinOf s n with
    | some t => if t.full && t.pos == u * 32768 then s else setTwin n { t with changed := ascending (t.changed ++ [u]) } s
    | none => s
  { s with twn := { s.twn with resilver := none } }

/-- One packet of an operation of `npk` packets joins it, and `act` is done with all of them once every index has come (R361). -/
def joinOp (p : Packet) (idx npk : Nat) (act : List Packet → State → State) (s : State) : State :=
  let k := p.src * 65536 + p.tag
  let x := (tfind s.mar.chunks k).getD { npk := npk, due := s.now + msec (rCleLostTimeout s) }
  if idx ∈ x.got then s
  else
    let x := { x with got := idx :: x.got, parts := tput x.parts idx p }
    if x.got.length < x.npk then { s with mar := { s.mar with chunks := tput s.mar.chunks k x } }
    else act (x.parts.map (·.2)) { s with mar := { s.mar with chunks := tdel s.mar.chunks k } }

/-- A resilver unit has come whole and waits for its event (R358, R408). -/
def unitArrived (tag : Nat) (ps : List Packet) (s : State) : State :=
  runEvents eventFuel { s with twn := { s.twn with units := tput s.twn.units tag ps } }

/-- Receive the RESILVER_META of a unit; with all 33 packets the unit waits for its event (R358, R361). -/
def receiveUnit (p : Packet) (idx : Nat) (s : State) : State := joinOp p idx 33 (unitArrived p.tag) s

/-- RESILVER_META (R358, R425): the metadata of a unit; with all 33 packets received the unit is written at its place in ORDER. -/
def execResilverMeta (p : Packet) (s : State) : Host.Outcome State Fault Refusal :=
  .next <| if !isManage p 8 then s else accepting p (receiveUnit p 32) s

/-! ### Attach, detach and swap (R400, R402, R424) -/

/-- Step 1 of R400 at the partner. -/
def attachHere (f : FollowArg) (s : State) : State :=
  if !rangeFree s f.base f.length || 16384 ≤ s.twn.recs.length then s
  else match allocEntry { kind := 1, state := 1, part := f.part, base := f.base, length := f.length, window := f.window, twin := 2,
                          count := f.refs, target := rMarPairPartner s } s with
    | none => s
    | some (n, s) =>
      let s := setTwin n { made := true, role := 2, state := 1, full := true, partner := rMarPairPartner s, stateTime := s.now } s
      bookChanged (if f.window then setWin n (readWindow {} f.record) s else s)

/-- TWN_ATTACH (R400): the range is twinned with the partner, and a full resilver starts. `answer` is what the partner's allocation came
to (OK, NO_CAPACITY, BOOK_FULL or TWIN_FULL); `follow` is set where this node is the partner (log 66, DESIGN CHOICE). -/
def execTwnAttach (q : Ask) (entry answer : Nat) (follow : Option FollowArg) (s : State) : Host.Outcome State Fault Refusal :=
  .next <| match follow with
  | some f => if hasPartner s then attachHere f s else s
  | none => ask q 1 0x780100 true (fun _ s =>
    let h := bookOf s entry
    if !hasPartner s || (stampLink s).isNone then finish q 0x780100 stNoPartner [] s
    else if (tfind s.pga.book entry).isNone || h.kind != 1 || h.twin != 0 then finish q 0x780100 stBadValue [] s
    else if h.state != 2 || (h.window && (winOf s entry).state == 3) then finish q 0x780100 stBusy [] s
    else if answer != 0 then finish q 0x780100 answer [] s
    else if 16384 ≤ s.twn.recs.length then finish q 0x780100 stTwinFull [] s
    else
      let s := setBook entry { h with twin := 1, target := rMarPairPartner s } s
      let s := setTwin entry { role := 1, state := 1, full := true, partner := rMarPairPartner s, stateTime := s.now } s
      finish q 0x780100 stOk [] (bookChanged s)) s

/-- This node's twin is kept: TWIN returns to 0 and the record is freed (R402). -/
def keepTwin (n : Nat) (s : State) : State :=
  let s := setBook n { bookOf s n with twin := 0, target := 0, state := 2 } s
  bookChanged { s with twn := { s.twn with recs := tdel s.twn.recs n, detach := tdel s.twn.detach n } }

/-- TWN_DETACH (R402): one twin is kept and the other's entry freed; an entry that bindings still name is freed once the warden has rebound
them, within the drain window (log 67, DEDUCED). -/
def execTwnDetach (q : Ask) (entry keep : Nat) (s : State) : Host.Outcome State Fault Refusal :=
  .next <| ask q 1 0x780101 true (fun _ s =>
    match twinOf s entry with
    | none => finish q 0x780101 stBadValue [] s
    | some t =>
      if 1 < keep then finish q 0x780101 stBadValue [] s
      else if (tfind s.twn.detach entry).isSome then finish q 0x780101 stBusy [] s
      else
        let mine := (keep == 0) != t.made
        if mine && keep == 0 then finish q 0x780101 stOk [] (keepTwin entry s)
        else if mine then
          { s with twn := { s.twn with detach := tput s.twn.detach entry (q, s.now + msec (rPgaDrainWindow s)) } }
        else if t.made || (bookOf s entry).count == 0 then finish q 0x780101 stOk [] (freeHome entry s)
        else { s with twn := { s.twn with detach := tput s.twn.detach entry (q, s.now + msec (rPgaDrainWindow s)) } }) s

/-- DETACH_WAIT_EXPIRY (R402): the drain window of a TWN_DETACH has passed: the kept twin is kept, and an entry that was still named is
freed, its late bindings meeting R44, and completes the command with TIMEOUT (log 67, DEDUCED). -/
def execDetachWaitExpiry (entry : Nat) (s : State) : Host.Outcome State Fault Refusal :=
  .next <| match tfind s.twn.detach entry with
  | none => s
  | some (q, due) =>
    if s.now < due || firmwareHeld s then s
    else
      let s := { s with twn := { s.twn with detach := tdel s.twn.detach entry } }
      match twinOf s entry with
      | some t => if t.made then finish q 0x780101 stOk [] (keepTwin entry s) else finish q 0x780101 stTimeout [] (freeHome entry s)
      | none => finish q 0x780101 stOk [] s

/-- The rebinds that a TWN_DETACH waited for have come (R402). -/
def pumpDetach (s : State) : State :=
  if firmwareHeld s then s else
  each s.twn.detach (fun d s =>
    match twinOf s d.1 with
    | none => finish d.2.1 0x780101 stOk [] { s with twn := { s.twn with detach := tdel s.twn.detach d.1 } }
    | some t =>
      if !t.made && (bookOf s d.1).count == 0 then
        finish d.2.1 0x780101 stOk [] (freeHome d.1 { s with twn := { s.twn with detach := tdel s.twn.detach d.1 } })
      else if t.made && decide ((bookOf s d.1).count ≤ t.rebound) then finish d.2.1 0x780101 stOk [] (keepTwin d.1 s)
      else s) s

/-- Step 2 of a swap (R424): once every open transaction of the stream has been applied, SWAP is stamped and TERM rises. -/
def trySwap (s : State) : State :=
  match s.twn.swap with
  | none => s
  | some (_, v) =>
    let mine := twinsIn s 1 [5]
    let busy := s.ldg.txns.any fun t => t.2.phase != .acking && (match homeAt s t.2.req.dpa with | some (n, _) => decide (n ∈ mine) | none => false)
    if s.twn.swapped || busy || firmwareHeld s then s
    else
      let s := if v = 1 then twinNotice 4 0 0 s else s
      let s := stampEvent (mine.headD 0) 4 (hereAt s) 0 true [] false s
      { s with twn := { s.twn with swapped := true, term := (s.twn.term + 1) % 65536 } }

/-- TWN_SWAP (R424): the lead stops opening transactions, stamps SWAP and hands its role to the partner; BUSY unless every range of the
stream is in sync. -/
def execTwnSwap (q : Ask) (verify : Nat) (s : State) : Host.Outcome State Fault Refusal :=
  .next <| ask q 1 0x780102 true (fun _ s =>
    if 1 < verify then finish q 0x780102 stBadValue [] s
    else if !hasPartner s then finish q 0x780102 stNoPartner [] s
    else if !(twinsIn s 1 [0, 1, 3, 4, 5, 6]).isEmpty || (twinsIn s 1 [2]).isEmpty then finish q 0x780102 stBusy [] s
    else
      let s := each (twinsIn s 1 [2]) (fun n s => setRole n 1 5 s) s
      trySwap { s with twn := { s.twn with swap := some (q, verify), swapped := false } }) s

end Sys2Proof.Machine
end

