-- ==== Sys2Proof/Machine/Rdma.lean ====
section
/-! DEFINITION. The RDMA engine (R509 to R512): queue pairs, regions, the requests of remote queue pairs, and checkpoint drains. -/
namespace Sys2Proof.Machine

/-- Count in `SAH_RDMA_STATS`: 0 bytes written in, 1 bytes read out, 2 bytes drained, 3 access NAKs, 4 drains. -/
def rdmaCount (i n : Nat) (s : State) : State := { s with sah := { s.sah with rdmaStats := bump s.sah.rdmaStats i n } }

/-- The lending-book entry by which this node knows the range of a PGA: its own home, or a binding to it. -/
def rdmaRange (s : State) (pga : Nat) : Option BookEntry :=
  if pgaCoord pga = hereAt s then (homeAt s (pgaDpa pga)).map (·.2)
  else (s.pga.book.find? fun p => p.2.kind == 2 && p.2.state == 2 &&
    decide (p.2.target ≤ pga) && decide (pga < p.2.target + p.2.length)).map (·.2)

/-- Whether the engine knows a PGA to lie in a window range (R510). -/
def rdmaWindow (s : State) (pga : Nat) : Bool :=
  match rdmaRange s pga with | some e => e.isWin || e.window | none => false

/-- The partner that holds the second copy of a twinned range (R403, R510). -/
def rdmaPartner (s : State) (pga : Nat) : Option Nat :=
  bothTwins s pga (if pgaCoord pga = hereAt s then none else match rdmaRange s pga with | some e => e.partner | none => none)

/-- The pieces of at most `mtu` bytes of a message, as (offset, length) (R507). -/
def rdmaPieces (length mtu : Nat) : List (Nat × Nat) :=
  (List.range ((length + mtu - 1) / mtu)).map fun i => (i * mtu, min mtu (length - i * mtu))

/-- Whether a request of a queue pair may reach a region (R509, R510): same partition, inside the region, permitted. -/
def rdmaAllowed (q : Qp) (r : Region) (va length : Nat) (read : Bool) : Bool :=
  q.part == r.part && decide (va + length ≤ r.length) && (if read then r.read else r.write)

/-- A Remote Access Error NAK (R509, R510). -/
def rdmaNak (qp va : Nat) (s : State) : State := sendFrame (.rdma qp 3 va []) (rdmaCount 3 1 s)

/-- A remote request's accesses have all been answered: acknowledged, answered with data, or NAKed (R510, R511). -/
def rdmaEnd (id : Nat) (o : RdmaOp) (s : State) : State :=
  let s := { s with sah := { s.sah with rdmaOps := tdel s.sah.rdmaOps id } }
  if (tfind s.sah.qps o.qp).isNone then s
  else if o.failed then rdmaNak o.qp o.va s
  else if o.read then
    let data := ((o.pieces.flatMap (·.2)).drop o.skip).take o.length
    sendFrame (.rdma o.qp 1 o.va data) (rdmaCount 1 o.length s)
  else sendFrame (.rdma o.qp 0 o.va []) (rdmaCount 0 o.length s)

/-- One access of a remote request has been answered. -/
def rdmaTook (ref : EngRef) (r : MRsp) (s : State) : State :=
  match tfind s.sah.rdmaOps ref.a with
  | none => s
  | some o =>
    let o := { o with left := o.left - 1, failed := o.failed || r.status != 0, pieces := tput o.pieces ref.b r.data }
    let s := { s with sah := { s.sah with rdmaOps := tput s.sah.rdmaOps ref.a o } }
    if o.left = 0 then rdmaEnd ref.a o s else s

/-- Open a remote request of `left` accesses. -/
def rdmaOpen (o : RdmaOp) (s : State) : Nat × State :=
  (s.sah.nextOp, { s with sah := { s.sah with nextOp := s.sah.nextOp + 1, rdmaOps := tput s.sah.rdmaOps s.sah.nextOp o } })

/-! ### Drains (R512) -/

def keyDrain : Nat := 0x880402

/-- A drain ends with a status. -/
def drainEnds (id status : Nat) (d : Drain) (s : State) : State :=
  finish d.ask keyDrain status [] { s with sah := { s.sah with drains := tdel s.sah.drains id } }

/-- The bytes a drain's next RDMA WRITE carries: one packet of the path MTU. -/
def drainPart (s : State) (d : Drain) : Nat :=
  min (d.length - d.sent) (match tfind s.sah.qps d.qp with | some q => q.mtu | none => 1024)

/-- A drain reads its next bytes once those before them are acknowledged (R512; one packet under way at a time: log 83, DESIGN CHOICE). -/
def drainRead (id : Nat) (s : State) : State :=
  match tfind s.sah.drains id with
  | none => s
  | some d =>
    if d.reading || d.acked != d.sent || d.length ≤ d.sent then s
    else
      let at_ := d.pga + d.sent
      let skip := at_ % 64
      let lines := (skip + drainPart s d + 63) / 64
      let s := { s with sah := { s.sah with drains := tput s.sah.drains id { d with reading := true } } }
      engineRead { kind := .drain, a := id } (at_ - skip) lines d.part 0 (rdmaPartner s at_) s

/-- A drain's read has been answered: its data is sent, or the drain ends with ACCESS (R512). -/
def drainTook (id : Nat) (r : MRsp) (s : State) : State :=
  match tfind s.sah.drains id with
  | none => s
  | some d =>
    if r.status != 0 then drainEnds id stAccess d s
    else
      let n := drainPart s d
      let data := (r.data.drop ((d.pga + d.sent) % 64)).take n
      let s := { s with sah := { s.sah with drains := tput s.sah.drains id { d with reading := false, sent := d.sent + n } } }
      sendFrame (.rdma d.qp 2 (d.addr + d.sent) data) (rdmaCount 2 n s)

/-- The engine uses the responses it has taken. -/
def drainRdma : Nat → State → State
  | 0, s => s
  | fuel + 1, s =>
    match s.taken.find? fun p => p.1.kind == .rdma || p.1.kind == .drain with
    | none => s
    | some (ref, rsp) =>
      let s := useTaken (fun r => r == ref) s
      drainRdma fuel (if ref.kind = .rdma then rdmaTook ref rsp s else drainTook ref.a rsp s)

/-- A queue pair enters its error state or is closed: its drains end with REMOTE (R512). -/
def qpFails (qp : Nat) (s : State) : State :=
  each (s.sah.drains.filter fun p => p.2.qp == qp) (fun p s => drainEnds p.1 stRemote p.2 s) s

end Sys2Proof.Machine
end

