-- ==== Sys2Proof/Machine/Recalls.lean ====
section
/-! DEFINITION. The end of recalls (04): BIRsp and recall responses, timeouts, the conflict handshake (R131, R134), acknowledgements,
lockstep channels (R142 to R144), lost Ledger sets (R596) and Clear Poison. -/
namespace Sys2Proof.Machine

/-! ### What moves on after a change at a home -/

/-- A mailbox command completes with a return code and a payload, and vector 0 fires (R99, R482). The codes are those of CXL 3.1
(log 72, PRESUMED); the FM-owned logical device, number 0xFFFF, has no vector. -/
def mailboxDone (port ld code : Nat) (payload : Bytes) (s : State) : State :=
  let s := emit (.mailbox port ld code payload) s
  if ld < 16 then fireVector (ldKey port ld) 0 s else s

/-- An engine write that clears or sets poison has been applied: its command completes (R99, R149). -/
def drainClears : Nat → State → State
  | 0, s => s
  | fuel + 1, s =>
    match s.taken.find? fun p => p.1.kind == .clearPoison || p.1.kind == .poisonOp with
    | none => s
    | some (ref, rsp) =>
      let s := useTaken (fun r => r == ref) s
      drainClears fuel (if ref.kind == .clearPoison then
          finish { sid := ref.a, req := ref.b } 0x301100 (if rsp.status = 0 then stOk else stAccess) [] s
        else mailboxDone (ref.a / 65536) (ref.a % 65536) (if rsp.status = 0 then 0 else 0x0F) [] (countDown (some ref.b) s))

/-- Completed windows increment their NOTIFY counters, as an engine's ATOMIC ADD in the window's partition (R327). -/
def sendNotifies (s : State) : State :=
  each s.win.notifies (fun n s =>
    let w := winOf s n
    sendMem { kind := .engineWrite, who := .engine { kind := .notify, a := n }, part := (bookOf s n).part, op := 3 }
      w.notify none false s) { s with win := { s.win with notifies := [] } }

/-- A NOTIFY whose add failed raises its event (R327). -/
def drainNotifies : Nat → State → State
  | 0, s => s
  | fuel + 1, s =>
    match s.taken.find? fun p => p.1.kind == .notify with
    | none => s
    | some (ref, rsp) =>
      let s := useTaken (fun r => r == ref) s
      let h := bookOf s ref.a
      let failed := rsp.status != 0 || leAt rsp.data 0 2 != 0
      drainNotifies fuel (if failed then winCount 7 1 (raise 0x1C02 1 (some h.part) (packLE [(8, pgaOf s h.base)]) s) else s)

/-- BI-ConflictAcks whose request has completed are sent (R134). -/
def sendConflictAcks (s : State) : State :=
  let ready := s.cxl.afterReq.filter fun c => (tfind s.cxl.reqs c.1).isNone
  let s := { s with cxl := { s.cxl with afterReq := s.cxl.afterReq.filter fun c => (tfind s.cxl.reqs c.1).isSome } }
  each ready (fun c s => emit (.ndr c.2.1 c.2.2.1 c.2.2.2 3 (devLoad s c.2.1 c.2.2.1)) s) s

/-! ### Recalls end -/

/-- Tell whoever started a recall that it has ended. -/
def ownerEnded (o : ROwner) (rid : Nat) (s : State) : State :=
  match o with
  | .txn id => txnRecallEnded id rid s
  | .evict b => evictRecallEnded b s
  | .commit id => commitRecallEnded id rid s
  | .revoke id => revokeRecallEnded id rid s
  | .migrate n => migrateRecallEnded n rid s
  | .clear n => clearRecallEnded n rid s
  | .sweep p => sweepRecallEnded p rid s
  | _ => s

/-- BIConflicts that wait on a BISnp, for their request or for the answer to their probe, are answered when it ends (R131, R134). -/
def conflictsEnd (port ld bitag : Nat) (s : State) : State :=
  let hit := s.cxl.conflicts.filter fun c => c.1 == port && c.2.1 == ld && c.2.2.2 == bitag
  let asked := s.cxl.probes.filter fun c => c == (port, ld, bitag)
  let s := { s with cxl := { s.cxl with
    conflicts := s.cxl.conflicts.filter fun c => !decide (c ∈ hit)
    probes := s.cxl.probes.filter fun c => !decide (c ∈ asked) } }
  each (List.replicate (hit.length + asked.length) bitag) (fun b s => emit (.ndr port ld b 3 (devLoad s port ld)) s) s

/-- The lead stamps the end of a recall of a twinned line (R406). -/
def stampRecall (line kind tag : Nat) (wrote : Bool) (s : State) : State :=
  match homeAt s (line * 64) with
  | some (n, _) => stampEvent n kind (hereAt s) tag true [line] wrote s
  | none => s

/-- The response to one line of a block form (R86): the recalls it answers. The recall that the BISnp is known by first changes places with
another while the block is not answered whole. -/
def oneOfBlock (rid low : Nat) (s : State) : List Nat × State :=
  match (withRiders s rid).find? fun x => match tfind s.ldg.recalls x with | some r => r.line % 4 == low | none => false with
  | none => ([], s)
  | some x =>
    match (if x = rid then (withRiders s rid).drop 1 else []), tfind s.ldg.recalls rid with
    | y :: _, some r =>
      match tfind s.ldg.recalls y with
      | some z =>
        let one := tput s.ldg.recalls rid { r with line := z.line, shown := z.shown, stop := z.stop }
        ([y], { s with ldg := { s.ldg with recalls := tput one y { z with line := r.line, shown := r.shown, stop := r.stop } } })
      | none => ([x], s)
    | _, _ => ([x], s)

/-- Some recalls of one BISnp have ended (R73, R86): their owner is told, the conflicts of the BISnp are answered when it is over, and
requests that waited for their lines open. `stop` is what ends one recall. -/
def recallsOver (rid : Nat) (r : Recall) (mine : List Nat) (stop : Nat → State → State) (s : State) : State :=
  let lines := ascending (mine.filterMap fun x => (tfind s.ldg.recalls x).map (·.line))
  wakeLines lines (each mine (fun x s => ownerEnded r.owner x (stop x s))
    (if r.remote || !decide (rid ∈ mine) then s else conflictsEnd (holderPort r.holder) (holderLd r.holder) rid s))

/-- A recall has ended, and with it those that its BISnp served. -/
def recallOver (rid : Nat) (r : Recall) (stop : Nat → State → State) (s : State) : State :=
  recallsOver rid r (withRiders s rid) stop s

/-- A recall has ended with an answer (R130). -/
def recallEnded (rid ans : Nat) (s : State) : State :=
  match tfind s.ldg.recalls rid with
  | none => s
  | some r => recallOver rid r (fun x => endRecall x ans) s

/-- A host's response to a BISnp of this home (R86, R119): kinds 3 to 5 are the block forms. -/
def hostAnswered (rid kind low : Nat) (r : Recall) (s : State) : State :=
  if 3 ≤ kind || r.blk = 1 then recallEnded rid (kind % 3) s
  else
    let a := oneOfBlock rid low s
    if a.1.isEmpty then { s with ldg := { s.ldg with late := s.ldg.late + 1 } }
    else recallsOver rid r a.1 (fun x => endRecall x kind) a.2

/-- A probe that waits at the home for its request is answered when its recall ends: the recall comes first (R131, R134). -/
def probeOver (rid : Nat) (s : State) : State :=
  match tfind s.ldg.recalls rid, recallTag s rid with
  | some r, some t =>
    if r.conflict then
      sendBypass 0x87 (holderCoord r.holder) t (pgaOf s r.shown) 0 []
        { s with ldg := { s.ldg with recalls := tput s.ldg.recalls rid { r with conflict := false } } }
    else s
  | _, _ => s

/-- A recall has ended by timeout (R135). -/
def recallTimedOut (rid : Nat) (s : State) : State :=
  match tfind s.ldg.recalls rid with
  | none => s
  | some r =>
    let s := match recallTag s rid with
      | some t => freeTagNow t (stampRecall r.line 2 t false (probeOver rid s))
      | none => s
    recallOver rid r timeoutRecall s

/-- Write-back data that came with a recall response is applied as a write by the owner (R132); data for a range that is being revoked or
swept is discarded. -/
def recallWriteBack (r : Recall) (data : Bytes) (be : Nat) (poison : Bool) (s : State) : State :=
  match homeAt s (r.line * 64) with
  | none => s
  | some (n, h) =>
    if r.stop then s
    else
      let lines := storedLines h r.view r.shown 1
      let s := writeShown h r.view r.shown h.part r.holder data be poison s
      noteWrite n h lines (noteWriteBack lines s)

/-- A recall response that this node's own recall does not wait for (R136, R409, R417): held by a follower for its event; one for a
recall of the former lead is applied by a new lead where the line has not been written since the takeover; else it is discarded. -/
def strayRecallRsp (p : Packet) (s : State) : State :=
  let late := fun (s : State) => countStray { s with ldg := { s.ldg with late := s.ldg.late + 1 } }
  match (if p.twin then twinRange s (pgaDpa p.pga) else none) with
  | none => late s
  | some (_, h, t) =>
    if t.role = 2 then
      if t.state = 1 || t.state = 2 then
        runEvents eventFuel { s with twn := { s.twn with heldRsp := s.twn.heldRsp ++ [p] } }
      else late s
    else
      let own := match tfind s.mar.tags p.tag with | some g => (match g.use with | .recallOp _ => true | _ => false) | none => false
      match t.since with
      | some written =>
        let lines := storedLines h p.view (pgaDpa p.pga) 1
        if own then late s
        else if lines.any fun l => decide (l ∈ written) then each lines (fun l s => poisonDpa l h.part s) (late s)
        else followRecall p s
      | none => late s

/-- A recall response that has come: it ends its recall, by answer, as PURGED, or as a timeout (R132, R135, R136). Its write-back waits while a
stack that it goes to does not serve, and its end with it (R192, R196). -/
def takeRecallRsp (p : Packet) (s : State) : State :=
  let own := match openTagOf s p.tag with
    | some t => match t.use with | .recallOp rid => (tfind s.ldg.recalls rid).map fun r => (rid, r) | _ => none
    | none => none
  match own with
  | none => strayRecallRsp p s
  | some (rid, r) =>
    if p.src != holderCoord r.holder && p.status != 6 then strayRecallRsp p s
    else
      let wb := !p.payload.isEmpty
      let lines := match homeAt s (r.line * 64) with | some (_, h) => storedLines h r.view r.shown 1 | none => []
      if wb && !r.stop && !linesServe s lines then { s with ldg := { s.ldg with rsps := s.ldg.rsps ++ [p] } }
      else
        let s := if wb then recallWriteBack r p.payload p.mval p.poison s else s
        if p.status = 0 then
          recallEnded rid p.aux (freeTagNow p.tag (stampRecall r.line 1 p.tag wb (probeOver rid s)))
        else if p.status = 8 then
          recallEnded rid 0 (clearHolders (fun h => holderKey h == holderKey r.holder)
            (freeTagNow p.tag (stampRecall r.line 1 p.tag wb (probeOver rid s))))
        else recallTimedOut rid s

/-- Recall responses whose write-back waited for a stack are taken once it serves. -/
def pumpRsps (s : State) : State :=
  each s.ldg.rsps takeRecallRsp { s with ldg := { s.ldg with rsps := [] } }

/-- A host's response to a BISnp of this home is held while writes that it follows wait for their stacks (R119, R192, R196). -/
def answerHost (rid kind low : Nat) (s : State) : State :=
  match tfind s.ldg.recalls rid with
  | none => s
  | some r =>
    let lines := (withRiders s rid).filterMap fun x => (tfind s.ldg.recalls x).map (·.line)
    let s := each lines (fun l s => serveOwnerWrites l r.holder s) s
    if lines.any fun l => !(ownerWrites s l r.holder).isEmpty then
      { s with ldg := { s.ldg with birsps := s.ldg.birsps ++ [(rid, kind, low)] } }
    else hostAnswered rid kind low r s

/-- Held responses go on once the writes before them have been served. -/
def pumpBirsps (s : State) : State :=
  each s.ldg.birsps (fun x s => answerHost x.1 x.2.1 x.2.2 s) { s with ldg := { s.ldg with birsps := [] } }

/-- Recalls whose shared holder went with a port reset are over (R110; log 54, DEDUCED). -/
def endGone (s : State) : State :=
  each ((s.ldg.recalls.filter fun p => p.2.gone).map (·.1)) (fun rid s =>
    match tfind s.ldg.recalls rid with
    | some r => recallsOver rid r [rid] (fun x => endRecall x 0) s
    | none => s) s

/-- What may go on once requests or recalls of this node have ended, or a stack serves again: source stops, recalls that are over, fills and
write-backs that waited for a stack or a frame, the Carter, contributions, a resilver unit, a swap, the Clerks and their queues. -/
def settle (s : State) : State :=
  runQueues (sendConflictAcks (trySwap (pumpDetach (sendUnit (drainRdma 4096 (drainClears 4096 (drainContribs 4096
    (drainNotifies 4096 (sendNotifies (runCarter carterFuel (endStageFills (pumpPins (pumpHistory (wakeVictims (wakeFills
      (pumpWriteBacks 8192 (pumpLanded (pumpBirsps (pumpRsps (endGone (pumpRing (pumpMigrates s))))))))))))))))))))))

/-- BIRSP (R86, R119, R132, R136): a host answers a BISnp of this node's home, or one that this node sent for another home. A late response
is counted here, also one to another home's recall and one whose port or logical device does not match (log 124, DESIGN CHOICE). -/
def execBirsp (port ld bitag kind low : Nat) (s : State) : Host.Outcome State Fault Refusal :=
  .next <|
    let late := { s with ldg := { s.ldg with late := s.ldg.late + 1 } }
    match tfind s.ldg.recalls bitag with
    | some r =>
      if r.remote || r.due.isNone || holderPort r.holder != port || holderLd r.holder != ld then late
      else if s.ldg.birsps.any fun x => x.1 == bitag then late
      else settle (answerHost bitag kind low s)
    | none =>
      match tfind s.ldg.proxies bitag with
      | none => late
      | some x =>
        if x.port != port || x.ld != ld || x.due.isNone then late
        else
          let wb := x.wb.getD ([], 0, false)
          let rsp : Packet := { opcode := 0x43, dest := x.home, src := hereAt s, tag := x.tag, pga := x.pga, partition := x.part
                                view := x.view, twin := x.twin.isSome, aux := clipAnswer x.kind (kind % 3), payload := wb.1, mval := wb.2.1
                                poison := wb.2.2, host := hostRecord s port ld }
          let s := { s with ldg := { s.ldg with proxies := tdel s.ldg.proxies bitag } }
          let s := inject rsp 1 s
          let s := match x.twin with
            | some c => inject { rsp with dest := c, pga := c * 2 ^ 50 + pgaDpa rsp.pga } 1 s
            | none => s
          settle (conflictsEnd port ld bitag (pumpSnoops s))

/-- RECALL (R132, R111): the ingress node sends the BISnp with the logical device's present BI-ID; a home in the port's purge set is
answered PURGED. -/
def execRecallOp (p : Packet) (s : State) : Host.Outcome State Fault Refusal :=
  .next <| if !isOp p 0x0A then s else accepting p (fun s =>
    let port := bits p.aux 2 5
    let ld := bits p.aux 7 4
    let twin := if p.twin then some (bits p.aux 52 12) else none
    if purging s port ld p.src then
      let rsp : Packet := { opcode := 0x43, dest := p.src, src := hereAt s, tag := p.tag, pga := p.pga, partition := p.partition
                            view := p.view, twin := p.twin, status := 8, host := p.host }
      let s := inject rsp 1 s
      match twin with
      | some c => inject { rsp with dest := c, pga := c * 2 ^ 50 + pgaDpa rsp.pga } 1 s
      | none => s
    else
      let n := freshId s
      let x : Proxy := { home := p.src, tag := p.tag, port := port, ld := ld, pga := p.pga, kind := bits p.aux 0 2, view := p.view
                         part := p.partition, span := msec (bits p.aux 11 32), twin := twin }
      pumpSnoops { n.2 with ldg := { n.2.ldg with proxies := tput n.2.ldg.proxies n.1 x } }) s

/-- PROXY_RECALL_TIMEOUT (R132): the ingress node returns a recall response of STATUS TIMEOUT with any write-back. -/
def execProxyRecallTimeout (pid : Nat) (s : State) : Host.Outcome State Fault Refusal :=
  .next <| match tfind s.ldg.proxies pid with
  | none => s
  | some x =>
    if !(match x.due with | some d => decide (d ≤ s.now) | none => false) then s
    else
      let wb := x.wb.getD ([], 0, false)
      let rsp : Packet := { opcode := 0x43, dest := x.home, src := hereAt s, tag := x.tag, pga := x.pga, partition := x.part
                            view := x.view, twin := x.twin.isSome, status := 3, payload := wb.1, mval := wb.2.1, poison := wb.2.2
                            host := hostRecord s x.port x.ld }
      let s := inject rsp 1 { s with ldg := { s.ldg with proxies := tdel s.ldg.proxies pid } }
      let s := match x.twin with
        | some c => inject { rsp with dest := c, pga := c * 2 ^ 50 + pgaDpa rsp.pga } 1 s
        | none => s
      settle (conflictsEnd x.port x.ld pid (pumpSnoops s))

/-- RECALL_RSP (R132, R135, R136): a recall response ends its recall, by answer, as PURGED, or as a timeout. One that no recall waits for is a
stray (R393). -/
def execRecallRsp (p : Packet) (s : State) : Host.Outcome State Fault Refusal :=
  .next <|
    if !isOp p 0x43 then s
    else if malformedPacket p then countMalformed s
    else settle (takeRecallRsp p s)

/-- RECALL_TIMEOUT (R135): a recall on this node's own port reaches the ledger timeout. -/
def execRecallTimeout (rid : Nat) (s : State) : Host.Outcome State Fault Refusal :=
  .next <| match tfind s.ldg.recalls rid with
  | none => s
  | some r =>
    if !r.remote && !(s.ldg.birsps.any fun x => x.1 == rid) && (match r.due with | some d => decide (d ≤ s.now) | none => false) then
      settle (recallTimedOut rid s)
    else s

/-- RECALL_BACKSTOP_TIMEOUT (R133): the home's own timer of a remote recall expires. -/
def execRecallBackstopTimeout (rid : Nat) (s : State) : Host.Outcome State Fault Refusal :=
  .next <| match tfind s.ldg.recalls rid with
  | none => s
  | some r =>
    let held := match recallTag s rid with | some t => s.ldg.rsps.any fun p => p.tag == t | none => false
    if r.remote && !held && (match r.due with | some d => decide (d ≤ s.now) | none => false) then settle (recallTimedOut rid s) else s

/-! ### The conflict handshake (R88, R131, R134) -/

/-- A host's request for a line at its home: whether it has the line blocked, so that it was accepted before a recall that is outstanding,
or waits for it in the conflict queue (R131). -/
def ownerTxn (s : State) (line holder : Nat) : Option (Bool × Txn) :=
  (s.ldg.txns.find? fun t => holderKey t.2.req.holder == holderKey holder && decide (line ∈ t.2.lines)).map fun t =>
    (tfind s.ldg.blocked line == some t.1, t.2)

/-- A host's outstanding request for a PGA at its ingress node. -/
def hostReqFor (s : State) (port ld pga : Nat) : Option Nat :=
  (s.cxl.reqs.find? fun r => r.2.port == port && r.2.ld == ld &&
    (match decodeLda s port ld r.2.lda false true with | some (_, _, a) => a / 64 == pga / 64 | none => false)).map (·.1)

/-- BICONFLICT (R131, R134): without a BISnp outstanding the port acknowledges at once; at this node's home the order of R131 decides; for
another home the ingress node sends a probe. `done` says that the home has accepted and completed the owner's request already (log 68, DEDUCED). -/
def execBiconflict (port ld bitag : Nat) (done : Bool) (s : State) : Host.Outcome State Fault Refusal :=
  .next <|
    if !ldUp s port ld then s
    else
      let ack := emit (.ndr port ld bitag 3 (devLoad s port ld)) s
      match tfind s.ldg.recalls bitag with
      | some r =>
        if r.remote || r.due.isNone || holderPort r.holder != port || holderLd r.holder != ld then ack
        else match ownerTxn s r.line r.holder with
          | some (first, t) =>
            match (if first then t.req.who else .engine {}) with
            | .host id => { s with cxl := { s.cxl with afterReq := s.cxl.afterReq ++ [(id, port, ld, bitag)] } }
            | _ => ack
          | none => if done then ack else { s with cxl := { s.cxl with conflicts := s.cxl.conflicts ++ [(port, ld, pgaOf s r.shown, bitag)] } }
      | none =>
        match tfind s.ldg.proxies bitag with
        | none => ack
        | some x =>
          if x.port != port || x.ld != ld || x.due.isNone then ack
          else sendBypass 0x86 x.home x.tag x.pga bitag [] { s with cxl := { s.cxl with probes := s.cxl.probes ++ [(port, ld, bitag)] } }

/-- PROBE (R131, R134): the home answers with the order: 1 the request first, 0 the recall first; it waits while the request has not
arrived. `done` says that the home has accepted and completed the owner's request already (log 68, DEDUCED). -/
def execProbe (p : Packet) (done : Bool) (s : State) : Host.Outcome State Fault Refusal :=
  .next <|
    if !isOp p 0x86 then s
    else if malformedPacket p then countMalformed s
    else
      let own := match openTagOf s p.tag with
        | some t => match t.use with | .recallOp rid => (tfind s.ldg.recalls rid).map fun r => (rid, r) | _ => none
        | none => none
      match own with
      | none => sendBypass 0x87 p.src p.tag p.pga (packBits [(1, 0), (31, 0), (32, p.aux)]) [] s
      | some (rid, r) =>
        let order := fun (first : Bool) => sendBypass 0x87 p.src p.tag p.pga (packBits [(1, b2n first), (31, 0), (32, p.aux)]) [] s
        match ownerTxn s r.line r.holder with
        | some (first, _) => order first
        | none =>
          if done then order true
          else { s with ldg := { s.ldg with recalls := tput s.ldg.recalls rid { r with conflict := true } } }

/-- ANSWER (R134): the ingress node acknowledges once every completion that the answer places first has been delivered. -/
def execAnswer (p : Packet) (s : State) : Host.Outcome State Fault Refusal :=
  .next <|
    if !isOp p 0x87 then s
    else if malformedPacket p then countMalformed s
    else match s.ldg.proxies.find? fun x => x.2.home == p.src && x.2.tag == p.tag with
      | none => s
      | some (pid, x) =>
        if !decide ((x.port, x.ld, pid) ∈ s.cxl.probes) then s
        else
        let s := { s with cxl := { s.cxl with probes := s.cxl.probes.erase (x.port, x.ld, pid) } }
        match (if bitOf p.aux 0 then hostReqFor s x.port x.ld x.pga else none) with
        | some id => { s with cxl := { s.cxl with afterReq := s.cxl.afterReq ++ [(id, x.port, x.ld, pid)] } }
        | none => emit (.ndr x.port x.ld pid 3 (devLoad s x.port x.ld)) s

/-! ### Acknowledgements (R124, R125) -/

/-- The transaction that a node's request opened and that waits for its acknowledgement. -/
def ackTxn (s : State) (src tag : Nat) : Option Nat :=
  (s.ldg.txns.find? fun t => t.2.phase == .acking && (t.2.req.who == .node src tag || t.2.req.who == .nodeEngine src tag)).map (·.1)

/-- Unblock a transaction's lines and move on what waited. -/
def release (id : Nat) (s : State) : State :=
  let a := unblock id s
  settle (runTxns runFuel a.1 a.2)

/-- ACK (R124): the remote acknowledgement unblocks the lines, and the oldest waiting request opens. A follower discards it (R412). -/
def execAck (p : Packet) (s : State) : Host.Outcome State Fault Refusal :=
  .next <|
    if !isOp p 0x81 then s
    else if malformedPacket p then countMalformed s
    else match ackTxn s p.src p.tag with
      | some id => release id s
      | none => s

/-- ACK_TIMEOUT (R125): no acknowledgement within `LDG_TIMEOUT`. -/
def execAckTimeout (txn : Nat) (s : State) : Host.Outcome State Fault Refusal :=
  .next <| match txnOf s txn with
  | none => s
  | some t =>
    if t.phase == .acking && decide (t.ackDue ≤ s.now) then
      release txn { s with ldg := { s.ldg with ackTimeouts := s.ldg.ackTimeouts + 1 } }
    else s

/-! ### Lockstep channels (R142 to R144) -/

/-- Whether the fenced channel of a slice may be re-admitted (R144, R148). -/
def mayReadmit (x : Slice) : Bool := x.fenced.all (fun c => decide (x.fences.getD c 0 < 3)) && decide (x.readmits < 2)

/-- Re-admit the fenced channel of a slice. -/
def readmit (k : Nat) (s : State) : State :=
  let x := sliceRec s k
  pumpRing (setSlice k { x with fenced := [], readmits := x.readmits + 1, autoDue := none } s)

/-- CHANNEL_FENCED (R143): a channel of a slice that runs on three disagrees with the other two. -/
def execChannelFenced (slice channel : Nat) (s : State) : Host.Outcome State Fault Refusal :=
  .next <|
    let x := sliceRec s slice
    if nStacks s ≤ slice || 3 ≤ channel || !x.fenced.isEmpty || x.stopped then s
    else
      let x := { x with fenced := [channel], fences := bump x.fences channel 1 }
      let x := { x with autoDue := if mayReadmit x then some (s.now + msec 10) else none }
      latchAlert 1 (raise 0x0C02 1 none (packLE [(1, slice), (1, channel), (6, 0), (8, s.now)]) (setSlice slice x s))

/-- LDG_CHANNEL_READMIT (R144): OK with no action when nothing is fenced, BUSY for a channel that stays fenced. -/
def execLdgChannelReadmit (q : Ask) (slice value : Nat) (s : State) : Host.Outcome State Fault Refusal :=
  .next <| ask q 1 (0x300600 + slice) true (fun _ s =>
    let key := 0x300600 + slice
    if 16 ≤ slice then refuse q stAbsent s
    else if nStacks s ≤ slice then refuse q stBadValue s
    else if value != 1 then finish q key stBadValue [] s
    else if (sliceRec s slice).fenced.isEmpty then finish q key stOk [] s
    else if !mayReadmit (sliceRec s slice) then finish q key stBusy [] s
    else finish q key stOk [] (readmit slice s)) s

/-- AUTO_READMIT (R144): 10 ms after a fence, while `LDG_READMIT_AUTO` is 1. -/
def execAutoReadmit (slice : Nat) (s : State) : Host.Outcome State Fault Refusal :=
  .next <|
    let x := sliceRec s slice
    match x.autoDue with
    | none => s
    | some d => if d ≤ s.now && rLdgReadmitAuto s == 1 && !x.stopped && mayReadmit x then readmit slice s else s

/-! ### Lost Ledger sets (R596) -/

/-- The tracked lines of a set, in the order the loss mask counts them (log 69, DESIGN CHOICE). -/
def setEntries (s : State) (k set : Nat) : Tbl LEntry :=
  s.ldg.entries.filter fun p => sliceOf s p.1 == k && ledgerSetOf s p.1 == set

/-- A line poisoned for a lost entry (R596): its value stays. -/
def poisonLost (l : Nat) (s : State) : State :=
  let part := match homeAt s (l * 64) with | some (_, h) => h.part | none => 0
  poisonCounted l part s

/-- LEDGER_LOST: the set and the lines poisoned. -/
def raiseLost (k set n : Nat) (s : State) : State :=
  let s := { s with ras := { s.ras with ledgerLost := s.ras.ledgerLost + 1, ledgerPoisoned := s.ras.ledgerPoisoned + n } }
  let s := countError 6 2 s
  raise 0x3804 2 none (errorDetail s 6 2 k set 10 0 n) s

/-- A read of a slice's table, for a line, was uncorrectable: its set is blocked and scanned. `mask` gives the ways lost; 0 stands for the
line's overflow chain, which is freed at once (R596; log 69, DESIGN CHOICE). -/
def loseLedger (line mask : Nat) (s : State) : State :=
  let k := sliceOf s line
  let set := ledgerSetOf s line
  if mask = 0 then
    match entryOf s line with
    | some e => raiseLost k set 1 (poisonLost line (setEntry line { e with holders := e.holders.take 2 } s))
    | none => s
  else
    let x := sliceRec s k
    { setSlice k { x with scanning := if set ∈ x.scanning then x.scanning else x.scanning ++ [set] } s with
      ras := { s.ras with rebuilding := tput s.ras.rebuilding (k * 2 ^ 24 + set) mask } }

/-- LEDGER_SCAN_DONE (R596): lines of blocks with a tracked line that hash to the set and have no readable entry are poisoned; the lost
ways are free and the set unblocks. -/
def execLedgerScanDone (slice set : Nat) (s : State) : Host.Outcome State Fault Refusal :=
  .next <|
    let x := sliceRec s slice
    if !decide (set ∈ x.scanning) then s
    else
      let mask := tget 0 s.ras.rebuilding (slice * 2 ^ 24 + set)
      let all := (setEntries s slice set).zipIdx
      let lost := (all.filter fun p => bitOf mask p.2).map (·.1.1)
      let kept := (all.filter fun p => !bitOf mask p.2).map (·.1.1)
      let blocks := ascending ((s.ldg.entries.filter fun p => sliceOf s p.1 == slice).map (·.1 / 1024))
      let lines := (blocks.flatMap fun b => (List.range 1024).map (· + b * 1024)).filter fun l =>
        ledgerSetOf s l == set && !decide (l ∈ kept)
      let s := each lines poisonLost s
      let s := { s with
        ldg := { s.ldg with entries := s.ldg.entries.filter fun p => !decide (p.1 ∈ lost) }
        ras := { s.ras with rebuilding := tdel s.ras.rebuilding (slice * 2 ^ 24 + set) } }
      settle (raiseLost slice set lines.length (setSlice slice { sliceRec s slice with scanning := x.scanning.filter (· != set) } s))

/-! ### LDG_CLEAR_POISON (R149) -/

/-- LDG_CLEAR_POISON (R137, R149): every holder of the line is recalled with BISnpInv, then zeros are written and the poison cleared; the
command completes when the write has been applied. -/
def execLdgClearPoison (q : Ask) (pga : Nat) (s : State) : Host.Outcome State Fault Refusal :=
  .next <| ask q 1 0x301100 true (fun _ s =>
    if pgaCoord pga != hereAt s then finish q 0x301100 stNotHome [] s
    else match homeAt s (pgaDpa pga) with
      | none => finish q 0x301100 stBadValue [] s
      | some (_, h) =>
        let r : MReq := { kind := .engineWrite, who := .engine { kind := .clearPoison, a := q.sid, b := q.req }, part := h.part
                          dpa := pgaDpa pga / 64 * 64, be := fullBE, op := 4 }
        settle (if (ownPartner s pga).isSome then sendMem { r with data := zeros 64, op := 7 } (pga / 64 * 64) none false s
                else homeRequest r s)) s

end Sys2Proof.Machine
end

