-- ==== Sys2Proof/Machine/Dram.lean ====
section
/-! DEFINITION. The DRAM stack controller (06): refresh, speed levels, drift retraining, drained stacks and the patrol scrub. -/
namespace Sys2Proof.Machine

/-- Close the rows of some banks (pseudo-channel × 32 + bank) of a stack (R187). -/
def closeRows (x : Stack) (p : Nat → Bool) : Stack := { x with openRow := x.openRow.filter fun b => !p b.1 }

/-! ### Refresh and temperature (R189, R190) -/

/-- REFRESH_DUE (R189): the next bank of the cycle is refreshed on every pseudo-channel of the stack. A stack in self-refresh refreshes
itself. Requests that waited for the end of a pause go on here too (R196; log 118, DESIGN CHOICE). -/
def execRefreshDue (stack : Nat) (s : State) : Host.Outcome State Fault Refusal :=
  .next <|
    let x := stackOf s stack
    if nStacks s ≤ stack || inSelfRefresh s x || s.now < x.refreshDue then s
    else
      let y := closeRows x fun b => b % 32 == x.bank
      settle (setStack stack { y with
        stats := bump y.stats 5 64
        bank := (x.bank + 1) % 32
        refreshDue := s.now + x.refresh / 32 } s)

/-- How far two temperatures lie apart. -/
def tempGap (a b : Int) : Nat := (a - b).natAbs

/-- TEMPERATURE_READ (R190, R196): the refresh interval follows the temperature, HBM_HOT is raised on reaching 95 °C, and pseudo-channels
whose temperature has moved by 5 °C since their last pause have one due. -/
def execTemperatureRead (stack : Nat) (temp : Int) (s : State) : Host.Outcome State Fault Refusal :=
  .next <|
    let x := stackOf s stack
    if nStacks s ≤ stack then s
    else
      let moved := (List.range 64).filter fun pc => decide (5 ≤ tempGap temp (tget 25 x.pauseTemp pc))
      let s' := setStack stack { x with
        temp := temp
        refresh := if 95 ≤ temp then 975 else if 85 < temp then 1950 else 3900
        pauseDue := ascending (x.pauseDue ++ moved) } s
      if 95 ≤ temp && x.temp < 95 then raise 0x1401 1 none (packLE [(1, stack), (7, 0), (8, (temp % 2 ^ 64).toNat)]) s' else s'

/-! ### Levels (R192, R193) -/

/-- Start a change of level (R192); one that meets a pause in progress starts when the pause ends (R193). -/
def startLevel (stack k : Nat) (s : State) : State :=
  let x := stackOf s stack
  let from_ := (x.pauseAt.map fun p => p.2 + pauseTime).foldl max s.now
  setStack stack { x with changing := some k, changeFrom := from_, changeDue := from_ + changeTime } s

/-- Request a level (R193): no faster than `HBM_LEVEL_LIMIT`; held as the pending target while a change is in progress or the stack is drained
(R198). -/
def requestLevel (stack k : Nat) (s : State) : State :=
  let x := stackOf s stack
  let k := max k x.limit
  let s := { s with sah := { s.sah with
    levelRequests := s.sah.levelRequests + 1
    lastLevelReq := some s.now
    lastLevel := tput s.sah.lastLevel stack s.now } }
  if x.changing.isSome || isDrained s x then setStack stack { x with pendingLevel := some k } s
  else if x.level = k then s
  else startLevel stack k s

/-- LEVEL_CHANGE_DONE (R192, R193): step t5: every bank was refreshed before self-refresh (t2), the set of the new level is active and the
former one a shadow (t3), the stack takes requests again, a pause is due on every pseudo-channel, and a pending target starts. Drains that waited
for the change complete first, and a drained stack keeps its target pending (R198; log 132, DESIGN CHOICE). -/
def execLevelChangeDone (stack : Nat) (s : State) : Host.Outcome State Fault Refusal :=
  .next <|
    let x := stackOf s stack
    match x.changing with
    | none => s
    | some k =>
      if s.now < x.changeDue then s
      else
        let s := setStack stack { x with
          level := k, changing := none, pendingLevel := none, openRow := [], drainAsks := []
          drained := x.drained || (!x.drainAsks.isEmpty && s.pga.book.isEmpty)
          pauseDue := List.range 64, stats := bump (bump x.stats 5 2048) 10 1, refreshDue := s.now + x.refresh / 32 } (assertSource (192 + stack) s)
        let s := each x.drainAsks (fun q s => finish q (0x400800 + stack) (if s.pga.book.isEmpty then stOk else stBusy) [] s) s
        if isDrained s (stackOf s stack) then settle (setStack stack { stackOf s stack with pendingLevel := x.pendingLevel } s)
        else match x.pendingLevel with
        | some j =>
          let j := max j x.limit
          if j = k then settle s else startLevel stack j s
        | none => settle s

/-! ### Drift retraining (R195 to R197) -/

/-- What the steps of a pause do to the active timing set and the training rows (R195): a pause has `todo` steps to do in the order 2
measure, 3 read, 4 write, and leaves the last `left` of them. The values are the free values `v` onward (log 115, DESIGN CHOICE). -/
def pauseSteps (pc todo left v : Nat) (x : Stack) : Stack :=
  let runs := fun (step : Nat) => decide (4 < todo + step) && decide (left + step ≤ 4)
  let t := timingSet x x.level
  let t := { t with
    oscillator := if runs 2 then tput t.oscillator pc (Config.fresh v) else t.oscillator
    readDelay := if runs 3 then tput t.readDelay pc (Config.fresh (v + 1)) else t.readDelay
    writeDelay := if runs 4 then tput t.writeDelay pc (Config.fresh (v + 2)) else t.writeDelay }
  { x with
    sets := tput x.sets x.level t
    trainRows := if runs 4 then tput x.trainRows pc (Config.fresh (v + 3)) else x.trainRows }

/-- RETRAINING_PAUSE (R195, R196, R197): a due pause is granted to a pseudo-channel: all its banks are refreshed, and the steps that the
last pause left, or else all three, are done. `steps` holds, below 16, the drift measured in largest permitted steps, and above, how
many of the steps to do move to the next pause. -/
def execRetrainingPause (stack pc steps : Nat) (s : State) : Host.Outcome State Fault Refusal :=
  .next <|
    let x := stackOf s stack
    let due := decide (pc ∈ x.pauseDue) || decide (tget 0 x.pauseAt pc + usec (rHbmRetrainInterval s) ≤ s.now)
    if nStacks s ≤ stack || 64 ≤ pc || x.changing.isSome || isDrained s x || !due ||
        rHbmPauseConcurrency s ≤ (pausedNow s x).length then s
    else
      let todo := if tget 0 x.carried pc = 0 then 3 else tget 0 x.carried pc
      let left := min (steps / 16) todo
      let y := pauseSteps pc todo left s.fresh (closeRows x fun b => b / 32 == pc)
      let more := decide (1 < steps % 16)
      let t := timingSet y y.level
      let row := if more then tget 0 t.drift pc + 1 else 0
      let y := { y with
        stats := bump (bump y.stats 5 32) 6 1
        pauseAt := tput y.pauseAt pc s.now
        pauseTemp := tput y.pauseTemp pc x.temp
        pauseDue := if more then ascending (pc :: y.pauseDue) else y.pauseDue.filter (· != pc)
        sets := tput y.sets y.level { t with drift := tset 0 t.drift pc (row % 8) }
        carried := tset 0 y.carried pc left }
      let s := setStack stack y { s with fresh := s.fresh + 4 }
      if row = 8 then
        raise 0x1402 1 none (packLE [(1, stack), (1, pc)]) { s with mem := { s.mem with driftEvents := s.mem.driftEvents + 1 } }
      else s

/-! ### Drained stacks (R198, R199) -/

/-- HBM_STACK_DRAIN (R198): BUSY while any lending-book entry is not free; it completes when a change of level in progress has ended (log 132, DESIGN
CHOICE). -/
def execHbmStackDrain (q : Ask) (stack : Nat) (s : State) : Host.Outcome State Fault Refusal :=
  .next <| ask q 1 (0x400800 + stack) true (fun _ s =>
    let key := 0x400800 + stack
    if 16 ≤ stack then refuse q stAbsent s
    else if nStacks s ≤ stack then refuse q stBadValue s
    else if !s.pga.book.isEmpty then finish q key stBusy [] s
    else
      let x := stackOf s stack
      if x.changing.isSome then setStack stack { x with drainAsks := x.drainAsks ++ [q] } s
      else finish q key stOk [] (setStack stack { x with drained := true } s)) s

/-- The target that a drained stack kept pending starts once the stack is released (R193). -/
def startPending (stack : Nat) (s : State) : State :=
  let x := stackOf s stack
  match (if x.changing.isSome then none else x.pendingLevel) with
  | some k =>
    let s := setStack stack { x with pendingLevel := none } s
    if max k x.limit = x.level then s else startLevel stack (max k x.limit) s
  | none => s

/-- HBM_STACK_RELEASE (R198): the stack serves again; BUSY while it retrains. -/
def execHbmStackRelease (q : Ask) (stack : Nat) (s : State) : Host.Outcome State Fault Refusal :=
  .next <| ask q 1 (0x400800 + stack) true (fun _ s =>
    let key := 0x400800 + stack
    if 16 ≤ stack then refuse q stAbsent s
    else if nStacks s ≤ stack then refuse q stBadValue s
    else if (stackOf s stack).retraining then finish q key stBusy [] s
    else
      finish q key stOk [] (settle (startPending stack (setStack stack { stackOf s stack with drained := false } s)))) s

/-- HBM_RETRAIN_STACK (R198, R199): retained-data retraining of a drained stack; the command completes when it ends. -/
def execHbmRetrainStack (q : Ask) (stack value : Nat) (s : State) : Host.Outcome State Fault Refusal :=
  .next <| ask q 1 (0x400900 + stack) true (fun _ s =>
    let key := 0x400900 + stack
    let x := stackOf s stack
    if 16 ≤ stack then refuse q stAbsent s
    else if nStacks s ≤ stack then refuse q stBadValue s
    else if value != 1 then finish q key stBadValue [] s
    else if !isDrained s x then finish q key stNotDrained [] s
    else if x.retraining then finish q key stBusy [] s
    else setStack stack { x with retraining := true, openRow := [], stats := bump x.stats 5 2048, ask := q } s) s

/-- RETRAINING_DONE (R199): the active level has been trained; data, shadow sets and device marks are kept. -/
def execRetrainingDone (stack : Nat) (s : State) : Host.Outcome State Fault Refusal :=
  .next <|
    let x := stackOf s stack
    if !x.retraining then s
    else
      let s := trainLevel stack x.level s
      finish x.ask (0x400900 + stack) stOk [] (settle (setStack stack { stackOf s stack with
        retraining := false, refreshDue := s.now + x.refresh / 32 } s))

/-! ### The patrol (R207) -/

/-- The DPA line that a DRAM line holds. -/
def dpaOfLine (s : State) (l : Nat) : Option Nat :=
  if s.car.tiered then
    (s.car.frames.find? fun p => decide (frameLine s p.1 p.2 ≤ l) && decide (l < frameLine s p.1 p.2 + 1024)).map fun p =>
      p.1 * 1024 + (l - frameLine s p.1 p.2)
  else some l

/-- The number of the `HBM_SCRUB_PERIOD` that node time lies in, in hours (R207, R211), plus 1. -/
def scrubRound (s : State) : Nat := s.now / (rHbmScrubPeriod s * 3600000000000) + 1

/-- PATROL_SCRUB (R202, R207): the patrol reads one line of a stack, if it has not read it in this period yet; `found` lists the error symbols that have come up in it since it was
last written, as (codeword, symbol). A line that decodes is rewritten with its corrected codeword; an uncorrectable one stays and
raises UE_PATROL with its DPA. -/
def execPatrolScrub (stack line : Nat) (found : List (Nat × Nat)) (s : State) : Host.Outcome State Fault Refusal :=
  .next <|
    let x := stackOf s stack
    if nStacks s ≤ stack || lineStack s line != stack || !lineInside s line || !lineServes s line ||
        tget 0 x.scrubbed line == scrubRound s then s
    else
      let found := found.filter fun p => decide (p.1 < 4) && decide (p.2 < 11)
      let d := (tfind s.mem.damage line).getD [] ++ found.filter fun p => !decide (p ∈ (tfind s.mem.damage line).getD [])
      let s := hbmCount stack 0 1 (openLine line (setStack stack { x with scrubbed := tput x.scrubbed line (scrubRound s) } s))
      if d.isEmpty then s
      else if lineDecodes (tfind x.marks (linePc s line)) d then
        hbmCount stack 1 1 (countCorrections line d true { s with mem := { s.mem with damage := tdel s.mem.damage line } })
      else
        let s := { s with mem := { s.mem with damage := tput s.mem.damage line d } }
        let s := countError 1 1 (hbmCount stack 8 1 s)
        let dpa := ((dpaOfLine s line).getD line) * 64
        raise 0x1404 2 ((homeAt s dpa).map (·.2.part)) (errorDetail s 1 1 stack dpa 0 0 0) s

end Sys2Proof.Machine
end

