-- ==== Sys2Proof/Machine/Flash.lean ====
section
/-! DEFINITION. The Storekeeper (07): fills and write-backs as they end, programs and erases, the journal, checkpoint rounds, relocation,
patrol, targets and format. -/
namespace Sys2Proof.Machine

/-! ### Placing again after a failure (R160, R239) -/

/-- A program that has lost its place takes another, or waits for one; under the reserve a write-back cannot be placed (R240). -/
def rehome (n : Nat) (p : Program) (s : State) : State :=
  let gone := fun (s : State) => setStk (fun k => { k with programs := tdel k.programs n }) s
  if p.unit.kind = 0 && s.stk.freeReserve then setStk (fun k => { k with programs := tput k.programs n { p with done := 3, started := false } }) s
  else match openPlace s (if p.unit.kind = 0 then 0 else 1) with
    | some (lun, g) => closeIfFull g (placeUnit lun g p.unit p.src (gone s))
    | none => setStk (fun k => { k with programs := tput k.programs n { p with done := 4, started := false } }) s

/-- A program failed (R160, R239): its group is retired, and its data, with what else was placed there, goes elsewhere; the frame is
unchanged. -/
def replace (n : Nat) (p : Program) (bad : Nat) (s : State) : State :=
  let g := unitGroup s p.phys
  let s := keepOpen (groupLun s g) (retireGroup g 2 (markPlanes g bad s))
  let moved := s.stk.programs.filter fun q => q.2.done == 0 && unitGroup s q.2.phys == g && (q.1 == n || !q.2.started)
  each moved (fun q s =>
    if q.2.dropped then setStk (fun k => { k with programs := tdel k.programs q.1 }) s else rehome q.1 q.2 s) s

/-! ### What moves on when frames or places change -/

/-- Programs and write-backs that wait are placed, and fills that wait for a LUN suspend what runs there (R160, R165, R224, R233); a group
is opened where no place is left. -/
def pumpFlash (s : State) : State :=
  let s := each (s.stk.programs.filter fun p => p.2.done == 4) (fun p s => rehome p.1 p.2 s) s
  let s := pumpWriteBacks 8192 s
  let s := each (s.stk.lunWait.map (·.1)) trySuspend s
  if s.stk.wbWait.isEmpty || (openPlace s 0).isSome then s
  else match (allLuns s).find? fun l => (bestFree s l).isSome || openingOn s (l * 2) with
    | some l => openGroup l 0 s
    | none => s

/-- Frames have changed: waiting write-backs, requests, stage requests, events of a follower and migrations go on. -/
def afterFrames (s : State) : State :=
  let s := runEvents eventFuel (settle (drainDirty (pumpFlash s)))
  settle (each (s.pga.migrates.map (·.1)) migrateAdvance s)

/-- STAGE_HOLD_EXPIRY (R164): a STAGED flag clears CAR_STAGE_HOLD after STAGE_TIME, and what waits for a frame or for
fewer staged frames goes on (R163, R175). -/
def execStageHoldExpiry (block : Nat) (s : State) : Host.Outcome State Fault Refusal :=
  .next <| match frameOf s block with
  | some f =>
    if f.staged && decide (rCarStageHold s ≤ (s.now / 1000000 + 2 ^ 32 - f.stageTime) % 2 ^ 32) then
      settle (setFrame block { f with staged := false } s)
    else s
  | none => s

/-! ### Fills (R159, R219, R229, R230) -/

/-- A unit is lost (R220, R230): its entry is marked while it still names the unit, and UE_FLASH names LOGICAL. -/
def loseUnit (p : Nat) (u : FlashUnit) (s : State) : State :=
  let m := mapEntry s u.logical
  if !(m.valid && m.phys == p) then s
  else
    let s := setMap u.logical { m with phys := lostUnit } s
    let s := setStk (fun k => { k with live := tdel k.live p, lost := tbump k.lost u.part 1 }) s
    raise 0x1802 2 (some u.part) (errorDetail s 2 2 (unitTarget p / 8) u.logical 0 0 0) (countError 2 2 s)

/-- An integrity failure of a unit is counted, and its security event names LOGICAL and PARTITION (R230). -/
def unitForged (logical part : Nat) (s : State) : State :=
  stkCount 6 1 (security part (packLE [(8, logical), (1, part)]) (countError 2 2 s))

/-- An uncorrectable read: the group's live units are relocated, then it is retired with CAUSE 4 (R239). -/
def badRead (g : Nat) (s : State) : State :=
  let s := setGroup g { groupOf s g with cause := 4 } s
  if (groupOf s g).state = 2 then refreshLater g s else s

/-- Whether a unit lies on a usable target (R214, R231). -/
def onTarget (s : State) (p : Nat) : Bool := s.stk.targets.any fun t => t.1 == unitTarget p

/-- A fill's unit has been read. -/
def fillRead (block : Nat) (f : Fill) (found : UnitRead) (s : State) : State :=
  let m := mapEntry s block
  if f.dropped then s
  else if !m.valid then fillEnds block [] none false s
  else if m.phys = lostUnit then fillFails block s
  else if !onTarget s m.phys then fillFails block (countError 2 2 s)
  else
    let s := countRead m.phys found s
    if !decodes s found then fillFails block (badRead (unitGroup s m.phys) (countError 2 2 s))
    else match tfind s.stk.units m.phys with
      | none => fillFails block s
      | some u =>
        if unitSound s u found f.part block then fillEnds block u.data (some u.poison) false s
        else fillFails block (unitForged block f.part s)

/-- FILL_ARRIVES (R159, R219, R229, R230): a fill's unit has been read, with what the read found; its LUN takes its next work. -/
def execFillArrives (block : Nat) (found : UnitRead) (s : State) : Host.Outcome State Fault Refusal :=
  .next <| match tfind s.stk.fills block with
  | none => s
  | some f =>
    let s := fillRead block f found (stkCount 0 1 (setStk (fun k => { k with fills := tdel k.fills block }) s))
    afterFrames (match f.lun with | some l => serveLun l (creditSpan l (s.now - f.readAt) false s) | none => s)

/-- WRITE_BACK_DONE (R159, R167): a write-back's program and map update are complete, or it could not be placed again. -/
def execWriteBackDone (block : Nat) (s : State) : Host.Outcome State Fault Refusal :=
  .next <| match s.stk.programs.find? fun p => p.2.unit.kind == 0 && p.2.unit.logical == block && p.2.done != 0 && p.2.done != 4 with
  | none => s
  | some (n, p) =>
    let s := setStk (fun k => { k with programs := tdel k.programs n }) s
    afterFrames (if p.dropped then s else if p.done = 3 then cannotPlace block s else writeBackEnds block s)

/-! ### Programs (R224, R234, R239) -/

/-- A unit stands on flash. -/
def unitWritten (p : Program) (s : State) : State :=
  stkCount 1 1 (stkCount 11 65536 (setStk (fun k => { k with units := tput k.units p.phys p.unit }) s))

/-- The map takes a unit (R224): the new unit's liveness bit is set and the old one's cleared. -/
def mapUnit (p : Program) (s : State) : State :=
  let b := p.unit.logical
  let m := mapEntry s b
  let s := setStk (fun k => { k with live := tput (if m.valid then tdel k.live m.phys else k.live) p.phys true }) s
  setMap b { m with phys := p.phys, valid := true } s

/-- PROGRAM_DONE (R224, R239): a write-back's program has ended; `bad` names the plane blocks that failed. On success the map takes the
unit if GEN is unchanged (R162); on failure the group is retired and the data programmed elsewhere. -/
def execProgramDone (prog bad : Nat) (s : State) : Host.Outcome State Fault Refusal :=
  .next <| match tfind s.stk.programs prog with
  | none => s
  | some p =>
    if p.unit.kind != 0 || p.done != 0 || !p.started then s
    else
      let lun := unitLun s p.phys
      let s := if bad = 0 then
          let s := stkCount 10 65536 (unitWritten p s)
          if p.dropped then setStk (fun k => { k with programs := tdel k.programs prog }) s
          else if (mapEntry s p.unit.logical).gen = p.unit.gen then
            mapUnit p (setStk (fun k => { k with programs := tput k.programs prog { p with done := 1 } }) s)
          else setStk (fun k => { k with programs := tput k.programs prog { p with done := 2 } }) s
        else replace prog p bad s
      pumpFlash (lunEnded lun s)

/-! ### Relocation and erase (R234 to R239) -/

/-- Whether a program placed in a group has not ended. -/
def groupBusy (s : State) (g : Nat) : Bool := s.stk.programs.any fun p => p.2.done == 0 && unitGroup s p.2.phys == g

/-- A group without live units, programs and relocations in progress is erased, or retired for an uncorrectable read or wear (R236, R239). -/
def groupEmptied (g : Nat) (s : State) : State :=
  let x := groupOf s g
  if x.state != 3 || !(liveUnits s g).isEmpty || groupBusy s g || (s.stk.relocs.any fun r => unitGroup s r.1 == g) then s
  else
    let s := setStk (fun k => { k with refresh := k.refresh.filter (· != g), collecting := if k.collecting = some g then none else k.collecting }) s
    if x.cause = 4 then retireGroup g 4 s
    else if rStkEraseLimit s ≤ x.erases then retireGroup g 5 s
    else serveLun (groupLun s g) (setGroup g { x with state := 4 } s)

/-- Relocate what remains of a group, as far as places and the 1,024 relocations allow (R235); not while background work pauses (R241). -/
def relocate (g kind : Nat) (s : State) : State :=
  if bgPaused s then s
  else
    let s := each (liveUnits s g) (fun p s =>
      if (tfind s.stk.relocs p).isSome || 1024 ≤ s.stk.relocs.length then s
      else match openPlace s 1, tfind s.stk.units p with
        | some (lun, og), some u =>
          closeIfFull og (placeUnit lun og { u with kind := kind } p (setStk (fun k => { k with relocs := tput k.relocs p kind }) s))
        | none, some _ =>
          (match (allLuns s).find? fun l => (bestFree s l).isSome || openingOn s (l * 2 + 1) with
            | some l => openGroup l 1 s
            | none => s)
        | _, none => s) s
    groupEmptied g s

/-- Whether a group's data is older than `STK_RETENTION_AGE`, once wall time is known (R238, R580). -/
def aged (s : State) (g : Nat) : Bool :=
  wallTime s != 0 && decide ((groupOf s g).programTime + rStkRetentionAge s * 86400 < wallTime s)

/-- The KIND a group's relocation writes (R234): 2 for a refresh, 1 for garbage collection. -/
def relocKind (s : State) (g : Nat) : Nat := if decide (g ∈ s.stk.refresh) || aged s g then 2 else 1

/-- RELOCATION_DONE (R230, R234): what the read of the unit found, and the plane blocks where the program of the copy failed. A unit that
cannot be read, or is forged, is lost; the entry takes a copy only if it still names the unit read. -/
def execRelocationDone (prog bad : Nat) (found : UnitRead) (s : State) : Host.Outcome State Fault Refusal :=
  .next <| match tfind s.stk.programs prog with
  | none => s
  | some p =>
    if p.unit.kind = 0 || p.done != 0 || !p.started then s
    else
      let lun := unitLun s p.phys
      let g := unitGroup s p.src
      let drop := fun (s : State) => setStk (fun k => { k with programs := tdel k.programs prog, relocs := tdel k.relocs p.src }) s
      let s := countRead p.src found s
      let m := mapEntry s p.unit.logical
      let named := m.valid && m.phys == p.src
      let s := if !decodes s found then loseUnit p.src p.unit (badRead g (drop s))
        else if named && !unitSound s p.unit found p.unit.part p.unit.logical then
          loseUnit p.src p.unit (unitForged p.unit.logical p.unit.part (drop s))
        else if bad != 0 then replace prog p bad s
        else
          let s := stkCount (if p.unit.kind = 2 then 8 else 7) 1 (unitWritten p (drop s))
          if named then mapUnit p s else s
      let s := lunEnded lun s
      pumpFlash (if (groupOf s g).state = 3 then relocate g (relocKind s g) s else s)

/-- The spread of ERASES over the groups that have been used (R236, R246): lowest, highest. -/
def wearSpread (s : State) : Nat × Nat :=
  let l := s.stk.groups.map (·.2.erases)
  let l := if s.stk.groups.length < totalGroups s then 0 :: l else l
  (l.foldl min (l.headD 0), l.foldl max 0)

/-- Closed groups of usable targets. -/
def closedGroups (s : State) : Tbl Group := s.stk.groups.filter fun p => p.2.state == 2 && s.stk.targets.any fun t => t.1 == p.1 / 65536

/-- Those of them whose last programs have ended: a group is collected and refreshed only then (R235). -/
def settledGroups (s : State) : Tbl Group := (closedGroups s).filter fun p => !groupBusy s p.1

/-- The next victim (R235, R236): by lowest ERASES when the spread is too wide, otherwise by fewest live units and then age. -/
def gcVictim (s : State) : Option Nat :=
  let w := wearSpread s
  let wide := decide (w.1 + rStkWearSpread s < w.2)
  if !wide && !below s (rStkGcStart s) then none
  else
    let cs := (settledGroups s).map fun p => (p.1, p.2, (liveUnits s p.1).length)
    let less := fun (a b : Nat × Group × Nat) =>
      if wide then decide (a.2.1.erases < b.2.1.erases)
      else decide (a.2.2 < b.2.2) || (a.2.2 == b.2.2 && decide (a.2.1.programTime < b.2.1.programTime))
    match cs with
    | [] => none
    | c :: cs => some (cs.foldl (fun a b => if less b a then b else a) c).1

/-- The next group to relocate (R235 to R238): one that is due for refresh or has aged, else the next victim. -/
def nextVictim (s : State) : Option Nat :=
  ((s.stk.refresh.find? fun g => (tfind (settledGroups s) g).isSome).orElse fun _ => ((settledGroups s).find? fun p => aged s p.1).map (·.1)).orElse
    fun _ => gcVictim s

/-- GARBAGE_COLLECTION (R235 to R238): the group being collected goes on, or the next is taken. Nothing happens while background work pauses
(R241). -/
def execGarbageCollection (s : State) : Host.Outcome State Fault Refusal :=
  .next <|
    if bgPaused s || !s.car.tiered then s
    else match s.stk.collecting with
      | some g => relocate g (relocKind s g) s
      | none =>
        match nextVictim s with
        | none => s
        | some g =>
          let s := setGroup g { groupOf s g with state := 3 } (setStk (fun k => { k with collecting := some g }) s)
          relocate g (relocKind s g) s

/-- ERASE_DONE (R235, R239): the group is free again with one more erase, or is retired where a plane block's erase failed. -/
def execEraseDone (group bad : Nat) (s : State) : Host.Outcome State Fault Refusal :=
  .next <|
    let lun := groupLun s group
    match tfind s.stk.lunOps lun with
    | none => s
    | some o =>
      if o.kind != 1 || o.target != group then s
      else
        let x := groupOf s group
        let s := sweptGroups (· == group) (setStk (fun k => { k with units := k.units.filter fun u => unitGroup s u.1 != group }) s)
        let s := if bad = 0 then checkFree (stkCount 2 1 (setGroup group { erases := x.erases + 1, planeBad := x.planeBad } s))
          else retireGroup group 3 (markPlanes group bad s)
        afterFrames (keepOpen lun (lunEnded lun s))

/-- OPERATION_RESUME (R233): no fill that may suspend the operation waits for the LUN. -/
def execOperationResume (lun : Nat) (s : State) : Host.Outcome State Fault Refusal :=
  .next <| match tfind s.stk.lunOps lun with
  | none => s
  | some o =>
    if !o.suspended || readingOn s lun then s
    else emit (.flash 4 lun o.target) (setStk (fun k => { k with
      lunOps := tput k.lunOps lun { o with suspended := false, started := s.now } }) s)

/-! ### Journal and checkpoint (R225, R226) -/

/-- The group being collected goes on being relocated. -/
def goOnCollecting (s : State) : State :=
  match s.stk.collecting with
  | some g => relocate g (relocKind s g) s
  | none => s

/-- JOURNAL_RECORD_DURABLE (R225): what waited for the record proceeds: a clear of a grant, or the opening of a group. -/
def execJournalRecordDurable (seq : Nat) (s : State) : Host.Outcome State Fault Refusal :=
  .next <| match tfind s.stk.journal seq with
  | none => s
  | some j =>
    let s := setStk (fun k => { k with journal := tdel k.journal seq, durable := tput k.durable seq j }) s
    if j.type = 1 then (if j.waits = 1 then settle (clearFinished j.arg s) else s)
    else if j.type = 3 && s.stk.targets.any (fun t => t.1 == j.arg / 65536) then
      let s := setGroup j.arg { groupOf s j.arg with state := 1, next := 0 } s
      goOnCollecting (pumpFlash (checkFree (setStk (fun k => { k with opened := tput k.opened (j.waits - 1) j.arg }) s)))
    else s

/-- Pairs of system groups that a round's 64 MiB segments take: the map, the group table and the lending book (R226, R578). -/
def roundPairs (s : State) : Nat :=
  let bytes := s.stk.capacity / 65536 * 6 + totalGroups s * 192 + s.pga.book.length * 64
  let segs := (bytes + (2 ^ 26 - 1)) / 2 ^ 26
  (segs * 1024 + (s.stk.pages - 1)) / max 1 s.stk.pages

/-- A round of what the Storekeeper holds now: its pairs are taken and programmed (R226). -/
def beginRound (s : State) : Round × State :=
  let seq := s.stk.seq
  let a := takePairs (roundPairs s) s
  let s := each a.1 (fun p s => emit (.flash 5 (groupUnit s p.2 0) seq) (emit (.flash 5 (groupUnit s p.1 0) seq) s)) a.2
  ({ seq := seq, segs := a.1, map := s.stk.map, clears := s.stk.clears, groups := s.stk.groups, journals := s.stk.jpairs }, s)

/-- CHECKPOINT_ROUND_START (R226): `STK_CHECKPOINT_BYTES` have been placed since the last round started. Journal records go to new groups
from here on. -/
def execCheckpointRoundStart (s : State) : Host.Outcome State Fault Refusal :=
  .next <|
    if !s.car.tiered || bgPaused s || s.stk.round.isSome || s.stk.placed < rStkCheckpointBytes s then s
    else
      let a := beginRound s
      checkFree (journalPair (setStk (fun k => { k with round := some a.1, placed := 0, jpairs := [], jnext := 0 }) a.2))

/-- The anchor record of a complete round, written to the three anchor groups (R227). -/
def writeAnchor (groups : List Nat) (r : Round) (s : State) : State :=
  let k := s.stk
  let a : Anchor := {
    capacity := k.capacity, nextSeq := k.seq, roundSeq := r.seq, pages := k.pages, luns := k.luns, spare := k.spare
    groups := k.groupsPerTarget, segs := r.segs, anchors := groups, keyPairs := k.keyPairs }
  setStk (fun k => { k with last := some r, anchors := groups.map fun g => (g, a) }) s

/-- System groups that are no longer needed are erased (R226). -/
def eraseSystem (g : Nat) (s : State) : State :=
  if (groupOf s g).state = 6 then serveLun (groupLun s g) (setGroup g { groupOf s g with state := 4 } s) else s

/-- CHECKPOINT_ROUND_COMPLETE (R226): the round with its SEQ stands in the anchor; the round before and the journal records that came before
this one are no longer needed, and their groups are erased. -/
def execCheckpointRoundComplete (s : State) : Host.Outcome State Fault Refusal :=
  .next <| match s.stk.round with
  | none => s
  | some r =>
    if bgPaused s then s
    else
      let old := (match s.stk.last with | some l => l.segs | none => []) ++ r.journals
      let s := writeAnchor (s.stk.anchors.map (·.1)) { r with journals := [] } (setStk (fun k => { k with
        round := none, rounds := k.rounds + 1, durable := k.durable.filter fun j => decide (r.seq ≤ j.1) }) s)
      each (old.flatMap fun p => [p.1, p.2]) eraseSystem s

/-! ### Targets and patrol (R231, R238) -/

/-- TARGET_FAILURE (R231): every unit on the target is lost; its groups are no longer among the node's, and programs that were to go there
go elsewhere (R160). -/
def execTargetFailure (target : Nat) (s : State) : Host.Outcome State Fault Refusal :=
  .next <|
    if (tfind s.stk.targets target).isNone then s
    else
      let here := fun (p : Nat) => unitTarget p == target
      let gone := s.stk.map.filter fun m => m.2.valid && m.2.phys != lostUnit && here m.2.phys
      let s := each gone (fun m s =>
        let part := match tfind s.stk.units m.2.phys with | some u => u.part | none => 0
        setMap m.1 { m.2 with phys := lostUnit } (setStk (fun k => { k with lost := tbump k.lost part 1 }) s)) s
      let stuck := s.stk.programs.filter fun p => here p.2.phys && p.2.done == 0
      let waits := (s.stk.lunWait.filter fun p => p.1 / 8 == target).flatMap (·.2)
      let s := setStk (fun k => { k with
        targets := tdel k.targets target
        fit := k.fit.filter (· != target)
        failedTargets := k.failedTargets ++ [target]
        live := k.live.filter fun p => !here p.1
        units := k.units.filter fun p => !here p.1
        groups := k.groups.filter fun p => p.1 / 65536 != target
        opened := k.opened.filter fun p => p.1 / 2 / 8 != target
        lunOps := k.lunOps.filter fun p => p.1 / 8 != target
        lunWait := k.lunWait.filter fun p => p.1 / 8 != target
        programs := k.programs.filter fun p => !(here p.2.phys && p.2.done == 0) && !(p.2.unit.kind != 0 && here p.2.src && !p.2.started)
        relocs := k.relocs.filter fun p => !here p.1
        refresh := k.refresh.filter fun g => g / 65536 != target
        collecting := match k.collecting with | some g => if g / 65536 = target then none else some g | none => none
        chanState := if (k.targets.filter fun t => t.1 / 8 == target / 8).length ≤ 1 then tput k.chanState (target / 8) 2 else k.chanState }) s
      let s := each stuck (fun p s => if p.2.dropped || (p.2.unit.kind != 0 && here p.2.src) then s else rehome p.1 p.2 s) s
      let s := each waits (fun b s => fillFails b (setStk (fun k => { k with fills := tdel k.fills b }) s)) s
      afterFrames (goOnCollecting (checkFree (sweptGroups (fun g => g / 65536 == target) s)))

/-- Whether a sixty-fourth of a closed group is due for patrol (R238): not read in this `STK_PATROL_PERIOD`. -/
def patrolDue (s : State) (x : Group) (i : Nat) : Bool :=
  match tfind x.patrolled i with
  | none => true
  | some t => decide (t + rStkPatrolPeriod s * 3600000000000 ≤ s.now)

/-- Whether a LUN has no other work, which all comes before patrol (R232). -/
def lunFree (s : State) (lun : Nat) : Bool :=
  (tfind s.stk.lunOps lun).isNone && !readingOn s lun && (tget [] s.stk.lunWait lun).isEmpty && (nextProgram lun s).isNone

/-- Whether patrol may read a unit now (R232, R238): its sixty-fourth is due, no group with an older PROGRAM_TIME has one that is, and its
LUN is free. -/
def patrols (s : State) (unit : Nat) : Bool :=
  let g := unitGroup s unit
  let x := groupOf s g
  x.state == 2 && patrolDue s x (unitPart s unit) && lunFree s (groupLun s g) &&
  (closedGroups s).all fun p => decide (x.programTime ≤ p.2.programTime) || (List.range 64).all fun i => !patrolDue s p.2 i

/-- FLASH_PATROL (R229, R230, R238): one unit of a closed group is read: ERR of its sixty-fourth is updated, and the group is due for refresh
after step 3 or above `STK_REFRESH_BITS`. A unit that cannot be read, or is forged, is lost. A read that a swap's VERIFY asked for ends the
same way (R424). -/
def execFlashPatrol (unit : Nat) (found : UnitRead) (s : State) : Host.Outcome State Fault Refusal :=
  .next <|
    let asked := decide (unit ∈ s.twn.verifying)
    if !s.car.tiered || (!asked && (bgPaused s || !patrols s unit)) then s
    else
      let s := { s with twn := { s.twn with verifying := s.twn.verifying.erase unit } }
      let g := unitGroup s unit
      let i := unitPart s unit
      let s := countRead unit found s
      let x := groupOf s g
      let s := setGroup g { x with patrolled := tput x.patrolled i s.now } s
      let s := if rStkRefreshBits s < tget 0 x.err i then refreshLater g s else s
      match tfind s.stk.units unit with
      | none => s
      | some u =>
        if !decodes s found then loseUnit unit u (badRead g s)
        else if (tfind s.stk.live unit).isSome && !unitSound s u found u.part u.logical then
          loseUnit unit u (unitForged u.logical u.part s)
        else s

/-! ### Format (R221, R227, R242, R455) -/

/-- The logical capacity of R221. -/
def flashCapacity (s : State) : Nat := totalGroups s * s.stk.pages * 65536 * 8 / 10 / 2 ^ 26 * 2 ^ 26

/-- The channels that hold a usable target, ascending. -/
def usableChannels (s : State) : List Nat := ascending ((s.stk.targets.map fun t => t.1 / 8).eraseDups)

/-- The first `n` good groups of a target: those without a factory bad mark. -/
def firstGood (s : State) (target n : Nat) : List Nat :=
  (((List.range (min s.stk.groupsPerTarget (n + s.stk.badMarks.length))).map (· + target * 65536)).filter fun g =>
    (tfind s.stk.badMarks g).isNone).take n

/-- The lowest-numbered usable target of a channel. -/
def lowestTarget (s : State) (c : Nat) : Nat := (((s.stk.targets.map (·.1)).filter fun t => t / 8 == c).min?).getD 0

/-- The anchor groups chosen at format (R227). -/
def chooseAnchors (s : State) : List Nat :=
  let cs := usableChannels s
  let k := cs.length
  if k < 3 then ((ascending (s.stk.targets.map (·.1))).flatMap fun t => firstGood s t 3).take 3
  else [0, k / 3, 2 * k / 3].flatMap fun i => firstGood s (lowestTarget s (cs.getD i 0)) 1

/-- Take a free group of a channel, on another target than `other` where there is one. -/
def takeOn (c : Nat) (other : Option Nat) (s : State) : Option Nat × State :=
  let ls := (allLuns s).filter fun l => lunChannel l == c
  let ls := ls.filter (fun l => other != some (l / 8)) ++ ls
  match ls.findSome? (bestFree s) with
  | some g => (some g, takeSystem g s)
  | none => (none, s)

/-- Two pairs of system groups on the channels of R455. -/
def takeQuad (s : State) : List (Nat × Nat) × State :=
  let cs := usableChannels s
  let k := cs.length
  [(0, k / 2), (k / 4, 3 * k / 4)].foldl (fun a i =>
    let x := takeOn (cs.getD i.1 0) none a.2
    let y := takeOn (cs.getD i.2 0) (if cs.getD i.1 0 = cs.getD i.2 0 then x.1.map (· / 65536) else none) x.2
    match x.1, y.1 with
    | some p, some q => (a.1 ++ [(p, q)], y.2)
    | _, _ => (a.1, y.2)) ([], s)

/-- The usable targets after a training (R214): those that fit and trained. Excluded ones are counted by channel; a channel with targets none
of which is usable has failed; the retry table is taken over (R246). -/
def useTargets (untrained : List Nat) (s : State) : State :=
  let ok := s.stk.fit.filter fun t => !decide (t ∈ untrained)
  let out := s.stk.fit.filter fun t => decide (t ∈ untrained)
  setStk (fun k => { k with
    targets := ok.map fun t => (t, true)
    excluded := out.foldl (fun t x => tbump t (x / 8) 1) []
    chanState := (List.range 64).filterMap fun c =>
      if ok.any fun t => t / 8 == c then some (c, 1)
      else if (List.range s.asm.nand).any fun t => t / 8 == c then some (c, 2) else none
    retryTable := s.sah.retryTable }) s

/-- Format the flash (R242): groups with factory bad marks are retired, the capacity is set, every entry is at VALID 0 and GEN 0, and an
empty round and the anchor are written; what the book log held is gone with the rest (R152). -/
def formatFlash (s : State) : State :=
  let s := setStk (fun k => { k with
    map := [], clears := [], units := [], live := [], programs := [], lunOps := [], lunWait := [], opened := [], journal := [], durable := []
    fills := [], landed := [], wbWait := [], relocs := [], refresh := [], collecting := none, round := none, placed := 0, last := none
    jpairs := [], jnext := 0, anchors := [], bookLog := [], lost := [], formatted := true, capacity := flashCapacity s
    groups := (k.groups.filter fun p => p.2.state == 5 || p.2.erases != 0).map fun p =>
      if p.2.state = 5 then p else (p.1, { erases := p.2.erases, planeBad := p.2.planeBad }) }) s
  let bad := s.stk.badMarks.filter fun p => (groupOf s p.1).state != 5 && p.2 % 16 != 0
  let s := each bad (fun p s => markPlanes p.1 p.2 (setGroup p.1 { groupOf s p.1 with state := 5, cause := 1 } s)) s
  let anchors := chooseAnchors s
  let keys := takeQuad (each anchors takeSystem s)
  let books := takeQuad keys.2
  let s := setStk (fun k => { k with keyPairs := keys.1, bookPairs := books.1 }) books.2
  let r := beginRound s
  let s := setStk (fun k => { k with retired := (k.groups.filter fun p => p.2.state == 5).length }) r.2
  let s := each bad (fun p s => addRecord { first := groupUnit s p.1 0, count := 0, type := 2 } s) (journalPair s)
  keepAll (checkWorn (checkFree (writeAnchor anchors r.1 s)))

/-- STK_FORMAT (R242): BUSY unless every lending-book entry is free. -/
def execStkFormat (q : Ask) (value : Nat) (s : State) : Host.Outcome State Fault Refusal :=
  .next <| ask q 1 0x480900 true (fun _ s =>
    if value != 1 then finish q 0x480900 stBadValue [] s
    else if !s.car.tiered then finish q 0x480900 stNoTier [] s
    else if !s.pga.book.isEmpty then finish q 0x480900 stBusy [] s
    else
      let s := each (s.car.frames.map (·.1)) freeFrame s
      finish q 0x480900 stOk [] (bookChanged (formatFlash s))) s

/-! ### Reading the anchor and replay (R227, R228) -/

/-- The record of the anchor that a boot uses (R227): the newest that decodes in at least two of the groups it names, looked for in the
first three good groups of the lowest usable target of every channel. `lost` names groups that do not decode. -/
def findAnchor (lost : List Nat) (s : State) : Option Anchor :=
  let seen := (usableChannels s).flatMap fun c => firstGood s (lowestTarget s c) 3
  let copies := s.stk.anchors.filter fun p => decide (p.1 ∈ seen) && !decide (p.1 ∈ lost)
  let held := copies.filter fun p => decide (2 ≤ (copies.filter fun q => q.2 == p.2 && decide (q.1 ∈ p.2.anchors)).length)
  match held with
  | [] => none
  | p :: ps => some (ps.foldl (fun a q => if a.2.nextSeq < q.2.nextSeq then q else a) p).2

/-- An event of the replay: a clear, or a unit header; ordered by R228's key. -/
inductive Replay where
  | clear (seq first count : Nat)
  | header (phys : Nat) (u : FlashUnit)
  deriving DecidableEq, Repr

def Replay.key : Replay → Nat × Nat
  | .clear q _ _ => (q, q)
  | .header _ u => (u.origSeq, u.seq)

/-- One step of the replay on the map and the clears behind it. -/
def replayStep (a : Tbl MapEntry × List (Nat × Nat)) : Replay → Tbl MapEntry × List (Nat × Nat)
  | .clear _ first count =>
    (a.1.map fun p => if first ≤ p.1 && p.1 < first + count then (p.1, { phys := 0, valid := false, gen := (p.2.gen + 1) % 16384 }) else p,
      (first, count) :: a.2)
  | .header phys u =>
    let gen := (a.2.filter fun c => decide (c.1 ≤ u.logical) && decide (u.logical < c.1 + c.2)).length % 16384
    let e := (tfind a.1 u.logical).getD { gen := gen }
    if e.gen = u.gen then (tput a.1 u.logical { e with phys := phys, valid := true }, a.2) else a

/-- The events of the replay of a round in the order of their keys (R228): clears and unit headers from its SEQ on. `torn` names units whose
header does not decode. -/
def replayEvents (s : State) (r : Round) (torn : List Nat) : List Replay :=
  let clears := (s.stk.durable.filter fun j => j.2.type == 1 && decide (r.seq ≤ j.1)).map fun j => Replay.clear j.1 j.2.first j.2.count
  let heads := (s.stk.units.filter fun u => decide (r.seq ≤ u.2.seq) && !decide (u.1 ∈ torn)).map fun u => Replay.header u.1 u.2
  let le := fun (a b : Replay) => decide (a.key.1 < b.key.1) || (a.key.1 == b.key.1 && decide (a.key.2 ≤ b.key.2))
  sortBy le (clears ++ heads)

/-- Liveness from the map (R228). -/
def liveFrom (m : Tbl MapEntry) : Tbl Bool := m.foldl (fun t p => if p.2.valid && p.2.phys != lostUnit then tput t p.2.phys true else t) []

/-- A group record after a replay (R228, R243): as in the round, but for groups that were open in it or opened since: closed with the units
found, or free without any. Groups retired since are retired; the system groups of now are system groups; those of a round that a reset
cut off are erased. Patrol starts anew (R238). -/
def groupAfter (s : State) (r : Round) (g : Nat) : Group :=
  let x := { (tfind r.groups g).getD {} with patrolled := [] }
  let torn := match s.stk.round with | some q => q.segs.any fun p => p.1 == g || p.2 == g | none => false
  let since := fun (type : Nat) => s.stk.durable.any fun j => j.2.type == type && decide (r.seq ≤ j.1) && unitGroup s j.2.first == g
  let us := (s.stk.units.filter fun u => unitGroup s u.1 == g).map (·.2.seq)
  let system := ((s.stk.jpairs ++ r.segs ++ s.stk.keyPairs ++ s.stk.bookPairs).any fun p => p.1 == g || p.2 == g) ||
    s.stk.anchors.any fun a => a.1 == g
  if system then { x with state := 6 }
  else if torn then { x with state := 4 }
  else if x.state = 5 || since 2 then { x with state := 5 }
  else if x.state != 2 || since 3 then
    if us.isEmpty then { x with state := 0 }
    else { x with state := 2, next := s.stk.pages, firstSeq := us.foldl min (us.headD 0), lastSeq := us.foldl max 0, programTime := 0 }
  else x

/-- The groups that the round or the records and headers since name. -/
def groupsNamed (s : State) (r : Round) : List Nat :=
  ascending ((r.groups.map (·.1) ++ (s.stk.durable.filter fun j => j.2.type != 1).map (fun j => unitGroup s j.2.first) ++
    s.stk.units.map (fun u => unitGroup s u.1) ++
    (s.stk.jpairs ++ (match s.stk.round with | some q => q.segs | none => [])).flatMap fun p => [p.1, p.2]).eraseDups)

/-- The map is loaded from the last complete round and replayed (R228, R243). None where no anchor record qualifies, or both copies of a
segment or of a journal group are lost (R227, R230). -/
def loadMap (lost torn : List Nat) (s : State) : Option State :=
  match findAnchor lost s, s.stk.last with
  | some a, some r =>
    if (s.stk.jpairs ++ r.segs).any fun p => decide (p.1 ∈ lost) && decide (p.2 ∈ lost) then none
    else
      let m := (replayEvents s r torn).foldl replayStep (r.map, r.clears)
      let groups := (groupsNamed s r).map fun g => (g, groupAfter s r g)
      let seq := (s.stk.units.foldl (fun n u => max n (u.2.seq + 1)) (s.stk.durable.foldl (fun n j => max n (j.1 + 1)) a.nextSeq))
      let placed := 65536 * (s.stk.units.filter fun u => u.2.kind == 0 && decide (r.seq ≤ u.2.seq)).length
      let s := keepAll (checkWorn (checkFree (setStk (fun k => { k with
        map := m.1, clears := m.2, live := liveFrom m.1, groups := groups, capacity := a.capacity, seq := seq
        round := none, placed := placed, retired := (groups.filter fun p => p.2.state == 5).length }) s)))
      some (each (allLuns s) serveLun s)
  | _, _ => none

end Sys2Proof.Machine
end

