-- ==== Sys2Proof/Machine/LinkOps.lean ====
section
/-! DEFINITION. Flits and packets as bytes (R354, R369, R370), and the sending and receiving side of a link (R372 to R389). -/
namespace Sys2Proof.Machine

/-! ### Packets as bytes (R354) -/

/-- The 40 B header. -/
def headerBytes (p : Packet) : Bytes :=
  toLE 8 (packBits [(8, p.opcode), (12, p.dest), (12, p.src), (16, p.tag), (11, p.payload.length), (1, p.dir),
    (1, b2n p.dl), (1, b2n p.fwd), (1, b2n p.twin), (1, b2n p.wpt)]) ++
  toLE 8 (packBits [(62, p.pga), (2, p.rsvd)]) ++
  toLE 8 (packBits [(6, p.partition), (12, p.waypoint), (7, p.hops), (7, p.rsvd / 4), (32, p.seq)]) ++
  toLE 8 (packBits [(16, p.wgen), (8, p.status), (4, p.view), (36, p.rsvd / 512)]) ++
  toLE 8 p.aux

def wholeBytes (p : Packet) : Bytes := headerBytes p ++ p.payload

/-- LENGTH of a header. -/
def headerLength (b : Bytes) : Nat := bits (leAt b 0 8) 48 11

/-- The packet a header and payload spell; `side` holds its items without a header field (log 30, DESIGN CHOICE). -/
def parsePacket (b : Bytes) (side : Nat × Nat × Bool) : Packet :=
  let w0 := leAt b 0 8
  let w1 := leAt b 8 8
  let w2 := leAt b 16 8
  let w3 := leAt b 24 8
  { opcode := bits w0 0 8, dest := bits w0 8 12, src := bits w0 20 12, tag := bits w0 32 16, dir := bits w0 59 1,
    dl := bitOf w0 60, fwd := bitOf w0 61, twin := bitOf w0 62, wpt := bitOf w0 63, pga := bits w1 0 62,
    partition := bits w2 0 6, waypoint := bits w2 6 12, hops := bits w2 18 7, seq := bits w2 32 32,
    wgen := bits w3 0 16, status := bits w3 16 8, view := bits w3 24 4, aux := leAt b 32 8,
    payload := b.drop 40,
    rsvd := bits w1 62 2 + 4 * bits w2 25 7 + 512 * bits w3 28 36,
    host := side.1, mval := side.2.1, poison := side.2.2 }

/-! ### Flits (R369 to R371) -/

def flitHeader (f : Flit) : Nat :=
  packBits [(2, f.ftype), (3, f.vc), (12, f.seq), (12, f.ack), (1, b2n f.nak), (3, f.cvc), (12, f.credit), (8, f.first),
    (8, f.payload.length), (3, f.rsvd)]

/-- One bit step of CRC-32C in reflected form: polynomial 0x1EDC6F41 (R369; bit order and start value: log 34, PRESUMED). -/
def crcBit (c : Nat) : Nat := if c % 2 = 1 then Nat.xor (c / 2) 0x82F63B78 else c / 2

def crcByte (c : Nat) (b : Byte) : Nat :=
  crcBit (crcBit (crcBit (crcBit (crcBit (crcBit (crcBit (crcBit (Nat.xor c b.toNat))))))))

def crc32c (b : Bytes) : Nat := Nat.xor (b.foldl crcByte 0xFFFFFFFF) 0xFFFFFFFF

/-- The CRC of a flit, over bytes 0–251 (R369). -/
def flitCrc (f : Flit) : Nat :=
  crc32c (toLE 8 (flitHeader f) ++ f.payload ++ f.pad ++ zeros (244 - f.payload.length - f.pad.length))

/-- Whether a flit breaks the layout of R370 to R372, R376 or R387 (R9). -/
def malformedFlit (f : Flit) : Bool :=
  f.ftype == 3 || f.rsvd != 0 || decide (244 < f.payload.length + f.pad.length) || (f.pad.any fun b => b != 0) || decide (5 ≤ f.vc) || decide (5 ≤ f.cvc) ||
  decide (4096 ≤ f.seq) || decide (4096 ≤ f.ack) || decide (4096 ≤ f.credit) ||
  (f.ftype == 0 && f.first != 255 && decide (244 ≤ f.first)) ||
  (f.ftype == 0 && f.vc == 4 && f.first != 0) ||
  (f.ftype != 0 && (f.vc != 0 || f.seq != 0 || f.cvc != 0 || f.credit != 0 || f.first != 255)) ||
  (f.ftype == 1 && (f.payload.length != 10 || (List.range 5).any fun v => decide (4096 ≤ leAt f.payload (2 * v) 2))) ||
  (f.ftype == 2 && (f.payload.length != 18 || f.ack != 0 || f.nak || decide (4096 ≤ leAt f.payload 0 2) ||
    !(leAt f.payload 5 1 == 1 || leAt f.payload 5 1 == 2)))

/-- Whether a flit is bad (R371). -/
def badFlit (f : Flit) : Bool := f.fecBad != 0 || f.crc != flitCrc f || malformedFlit f

/-! ### Sending (R374 to R382) -/

/-- Receive buffers of a port per VC (R374). -/
def rxBuffers (port : Nat) : List Nat := if port < 6 then [512, 512, 512, 512, 16] else [1024, 0, 1024, 0, 16]

/-- The receiver's credit total of a VC (R375). -/
def freedOf (l : Link) (vc : Nat) : Nat := ((tfind l.rx vc).getD {}).freed % 4096

/-- Unacknowledged flits: U to N − 1 (R377). -/
def unacked (l : Link) : Nat := (l.n + 4096 - l.u) % 4096

/-- Whether a kept flit is acknowledged. -/
def isAcked (l : Link) (x : Sent) : Bool := decide (unacked l ≤ (x.flit.seq + 4096 - l.u) % 4096)

/-- Finish a flit's header with what every flit carries, and its CRC (R370, R379). -/
def sealFlit (f : Flit) : Flit := { f with crc := flitCrc f }

/-- Send one new data flit (R375 to R377): the next sequence number, one credit, a place in the replay buffer. -/
def sendNew (port : Nat) (x : Sent) (s : State) : State :=
  let l := linkOf s port
  let f := sealFlit { x.flit with ftype := 0, seq := l.n, ack := l.e, nak := false, cvc := l.cvc, credit := freedOf l l.cvc }
  emit (.flit port f) (setLink port { l with
    n := (l.n + 1) % 4096,
    replay := l.replay ++ [{ x with flit := f, sentAt := s.now }],
    sentUnits := bump l.sentUnits f.vc 1,
    cvc := (l.cvc + 1) % 5,
    unreported := 0, lastSentAt := s.now,
    stats := bump l.stats 0 1 } s)

/-- The first waiting flit whose VC has a credit; flits of one VC stay in order. -/
def nextOut (l : Link) : Option Sent := l.outq.find? fun x => decide (0 < creditsOf l x.flit.vc)

/-- Send waiting flits while the link is up, the replay buffer has room and a VC has a credit (R375, R377). -/
def pumpLink : Nat → Nat → State → State
  | 0, _, s => s
  | fuel + 1, port, s =>
    let l := linkOf s port
    if l.state != 3 || 1536 ≤ l.replay.length || 2048 ≤ unacked l then s
    else match nextOut l with
      | none => s
      | some x => pumpLink fuel port (sendNew port x (setLink port { l with outq := l.outq.erase x } s))

/-- The pieces of at most 244 B of a byte string. -/
def pieces : Nat → Bytes → List Bytes
  | 0, _ => []
  | fuel + 1, b => if b.isEmpty then [] else b.take 244 :: pieces fuel (b.drop 244)

/-- Cut a packet into data flits; each packet starts a flit of its own (R372; log 35, DESIGN CHOICE). -/
def packetFlits (p : Packet) (vc cls pid : Nat) : List Sent :=
  let ps := pieces 6 (wholeBytes p)
  ps.zipIdx.map fun (b, i) =>
    { flit := { vc := vc, first := if i = 0 then 0 else 255, payload := b,
                side := if i + 1 = ps.length then [(p.host, p.mval, p.poison)] else [] },
      pkt := p, cls := cls, pid := pid }

/-- Place a packet on a link. -/
def linkSend (port : Nat) (p : Packet) (vc cls : Nat) (s : State) : State :=
  let l := linkOf s port
  pumpLink 8 port (setLink port { l with outq := l.outq ++ packetFlits p vc cls l.nextPid, nextPid := l.nextPid + 1 } s)

/-- Send a control flit with E, all five credit totals and, where asked, NAK (R376, R379, R381). -/
def sendControl (port : Nat) (nak : Bool) (s : State) : State :=
  let l := linkOf s port
  let f := sealFlit { ftype := 1, ack := l.e, nak := nak, payload := packLE ((List.range 5).map fun v => (2, freedOf l v)) }
  emit (.flit port f) (setLink port { l with
    unreported := 0, lastSentAt := s.now,
    nakPending := l.nakPending || nak,
    nakDue := if nak then s.now + rLnkReplayTimeout s else l.nakDue,
    stats := if nak then bump l.stats 4 1 else l.stats } s)

/-- Ask for replay unless a NAK is pending (R381). -/
def sendNak (port : Nat) (s : State) : State := if (linkOf s port).nakPending then s else sendControl port true s

/-- Apply an acknowledgement (R380), before anything new is sent: U advances, and flits leave the replay buffer whose packets are acknowledged whole
(R377). -/
def applyAck (port a : Nat) (s : State) : State :=
  let l := linkOf s port
  let k := (a + 4096 - l.u) % 4096
  if unacked l < k then setLink port { l with stats := bump l.stats 10 1 } s
  else
    let l := { l with u := a % 4096, replays := if k = 0 then l.replays else 0 }
    let open_ := (l.replay.filter fun x => !isAcked l x).map (·.pid) ++ l.outq.map (·.pid)
    setLink port { l with replay := l.replay.filter fun x => !isAcked l x || decide (x.pid ∈ open_) } s

/-- Apply a credit total (R375), before anything new is sent. -/
def applyCredit (port vc total : Nat) (s : State) : State :=
  let l := linkOf s port
  setLink port { l with totals := l.totals.set vc (total % 4096) } s

/-- Send every unacknowledged flit again from U in order (R381); ACK and the credit total are the present ones (R376, R379). -/
def replayFlits (port : Nat) (s : State) : State :=
  let l := linkOf s port
  let again := l.replay.filter fun x => !isAcked l x
  let s := each again (fun x s => emit (.flit port (sealFlit { x.flit with ack := l.e, credit := freedOf l x.flit.cvc })) s) s
  setLink port { l with
    unreported := 0, lastSentAt := s.now,
    replay := l.replay.map fun x => if isAcked l x then x else { x with sentAt := s.now },
    replays := l.replays + 1,
    stats := bump l.stats 7 again.length } s

/-! ### Receiving (R372, R373, R378) -/

/-- Take the whole packets out of a VC's byte stream, with the buffers each holds; a flit shared with the next packet
stays with that one (R375). -/
def takePackets : Nat → Nat → RxVc → List (Nat × Nat × Bool) → List (Packet × Nat × Nat) → RxVc × List (Packet × Nat × Nat)
  | 0, _, r, _, acc => (r, acc)
  | fuel + 1, vc, r, side, acc =>
    let n := 40 + headerLength r.bytes
    if r.bytes.length < 40 || r.bytes.length < n then (r, acc)
    else
      let p := parsePacket (r.bytes.take n) (side.headD (0, 0, false))
      let rest := r.bytes.drop n
      let units := if vc = 4 then 1 else if rest.isEmpty then r.units else r.units - 1
      takePackets fuel vc { r with bytes := rest, units := if vc = 4 then 0 else r.units - units } (side.drop 1)
        (acc ++ [(p, vc, units)])

/-- Accept the next data flit (R378): E advances, its bytes join their VC's stream, and packets now whole have arrived
(R373). -/
def acceptFlit (port : Nat) (f : Flit) (s : State) : State :=
  let l := linkOf s port
  let r := (tfind l.rx f.vc).getD {}
  let t := takePackets 8 f.vc { r with bytes := r.bytes ++ f.payload, units := r.units + 1 } f.side []
  setLink port { l with
    e := (l.e + 1) % 4096, nakPending := false,
    rx := tput l.rx f.vc t.1, arrived := l.arrived ++ t.2,
    unreported := l.unreported + 1,
    unreportedAt := if l.unreported = 0 then s.now else l.unreportedAt,
    stats := bump l.stats 1 1 } s

/-- Free the buffers of a packet that has left the receiving port (R375). -/
def freeBuffers (port vc units : Nat) (s : State) : State :=
  let l := linkOf s port
  let r := (tfind l.rx vc).getD {}
  setLink port { l with rx := tput l.rx vc { r with freed := (r.freed + units) % 4096 } } s

/-! ### Offers (R387, R388) -/

def resyncFlit (s : State) (port step nonce : Nat) : Flit :=
  let b := packLE [(2, hereAt s), (2, rMarRingSize s), (1, port), (1, step), (2, nonce)]
  sealFlit { ftype := 2, payload := b ++ packLE ((rxBuffers port).map fun b => (2, b)) }

/-- Send an offer with a new NONCE; the next is due after 1 µs (R388). -/
def sendOffer (port : Nat) (s : State) : State :=
  let l := linkOf s port
  let nonce := (l.nonce + 1) % 65536
  emit (.flit port (resyncFlit s port 1 nonce)) (setLink port { l with nonce := nonce, offerDue := s.now + 1000 } s)

/-- Enter resync: both directions start again, and an offer is sent (R385, R389). -/
def startResync (port : Nat) (s : State) : State :=
  sendOffer port (setLink port { linkOf s port with
    state := 2, phyLocked := true, sendUp := false, recvUp := false,
    u := 0, n := 0, e := 0, replay := [], outq := [], rx := [], nakPending := false, replays := 0,
    sentUnits := [0, 0, 0, 0, 0], totals := [0, 0, 0, 0, 0] } s)

/-- R338 on a received offer: the far end is the neighbour that R337 names, on the port that faces this one, with the same
ring sizes; the pair port's far end is the partner. -/
def offerFits (s : State) (port : Nat) (f : Flit) : Bool :=
  let b := f.payload
  leAt b 0 2 == neighbour s port && leAt b 2 2 == rMarRingSize s &&
  leAt b 4 1 == (if port = 6 then 6 else (port + 3) % 6)

/-- Accept an offer (R388): the receive state starts again, and the NONCE is echoed. Packets of the former stream hold no buffer of the new
one. -/
def acceptOffer (port : Nat) (f : Flit) (s : State) : State :=
  let l := linkOf s port
  emit (.flit port (resyncFlit s port 2 (leAt f.payload 6 2))) (setLink port { l with
    recvUp := true, e := 0, rx := [], arrived := l.arrived.map fun a => (a.1, a.2.1, 0), nakPending := false, unreported := 0,
    farBuffers := (List.range 5).map fun i => leAt f.payload (8 + 2 * i) 2 } s)

end Sys2Proof.Machine
end

