-- ==== Sys2Proof/Machine/Recover.lean ====
section
/-! DEFINITION. Node recovery (R583 to R586, R634) with what each chapter says of it. -/
namespace Sys2Proof.Machine

/-! ### What a recovery does to each part -/

/-- Lines whose open transaction carries write data that has not been applied, with their partition (R147): a request that waits for its
first line in the conflict queue has opened none (R127). -/
def unapplied (s : State) : List (Nat × Nat) :=
  s.ldg.txns.flatMap fun p =>
    if (p.2.req.kind == .write || p.2.req.kind == .engineWrite) && p.2.phase != .acking && (p.2.phase != .blocking || 0 < p.2.got) then
      p.2.lines.map fun l => (l, p.2.req.part)
    else []

/-- The Ledger (R147): lines whose open transaction carried write data not yet applied are poisoned, every line is unblocked, and
fences end. -/
def recoverLedger (s : State) : State :=
  let s := each (unapplied s) (fun p s => poisonDpa p.1 p.2 s) s
  let slices := s.ldg.slices.map fun p =>
    (p.1, { p.2 with fenced := [], fences := [0, 0, 0], readmits := 0, autoDue := none, stopped := false, scanning := [] })
  { s with
    ldg := { s.ldg with
      txns := [], queue := [], blocked := [], recalls := [], birsps := [], rsps := [], cache := [], proxies := [], slices := slices }
    ring := {}
    taken := [] }

/-- Frames, commits and streams (R181). -/
def recoverCarter (s : State) : State :=
  let frames := (s.car.frames.filter fun p => p.2.state != 1).map fun p =>
    let f := { p.2 with victim := false, evicting := false }
    (p.1, if f.state = 4 then { f with state := 3, dirty := ascending (f.dirty ++ f.snapshot), snapshot := [] } else f)
  let gone := s.car.frames.filter fun p => p.2.state == 1
  let s := each gone (fun p s => wipeFrame p.1 p.2 s) s
  let streams := s.car.streams.map fun p =>
    (p.1, if p.2.state = 2 then { p.2 with stagedTo := p.2.position, fetching := 0, retry := [], stepped := p.2.source }
      else { p.2 with fetching := 0, retry := [] })
  { s with car := { s.car with
    frames := frames, commits := [], streams := streams, stageOut := 0, stageQueue := [], stageFills := [], histWait := [] } }

/-- Operations in progress are abandoned (R244), and open groups are closed. A group being relocated or erased stays so, and background work
resumes with it (R241). -/
def recoverFlash (s : State) : State :=
  let groups := s.stk.groups.map fun p => (p.1, if p.2.state = 1 then { p.2 with state := 2, programTime := wallTime s } else p.2)
  { s with stk := { s.stk with
    abandoned := s.stk.programs.filter fun p => p.2.started && p.2.done == 0 && !p.2.dropped
    programs := [], lunOps := [], lunWait := [], fills := [], landed := [], wbWait := [], relocs := [], opened := [], groups := groups } }

/-- The Tally book (R265). -/
def recoverTally (s : State) : State :=
  { s with tlb := { s.tlb with entries := [], near := [], reqs := [], faults := [], faultWait := [], invals := [], invalWait := [] } }

/-- Contexts (R275, R306): running descriptors are lost, and running contexts halt with RECOVERED. A bind that waited for its rank list is
lost; an unbind or a reset goes on. -/
def recoverContexts (s : State) : State :=
  let s := each s.cle.ctxs (fun p s =>
    match p.2.ranks with
    | some (_, first) => leaveSlice first (rankCount p.2) s
    | none => s) s
  let halts := s.cle.ctxs.foldl (fun t p => if p.2.state = 1 then tbump t p.2.part 1 else t) s.cle.halts
  let hit := (s.cle.ctxs.filter fun p => p.2.state == 1).map (·.1)
  let ctxs := s.cle.ctxs.map fun p =>
    let c : Ctx := { p.2 with
      fetching := false, fetched := none, ranks := none, rankBuf := [], records := [], recordBusy := false, recordStuck := false
      chainOpen := none, chainOk := none, inval := 0 }
    (p.1, if c.state = 1 then { c with state := 2, haltCode := 0x0063 } else c)
  { s with cle := { s.cle with
    ctxs := ctxs, jobs := [], chunks := [], access := [], gated := [], inReset := [], recovered := hit, halts := halts } }

/-- Windows (R333): those of this home are spoiled and what they held is lost; this source's outstanding contributions are
released. -/
def recoverWindows (s : State) : State :=
  let n := (s.win.out.filter fun c => !c.released).length
  { winCount 5 n s with win := { (winCount 5 n s).win with
    recs := s.win.recs.map fun p => (p.1, { p.2 with state := 4, held := [], awaited := [] })
    out := s.win.out.map fun c => { c with released := true, due := s.now }
    waiting := []
    owed := [] } }

/-- Twins (R423): every record is stale with ROLE follower. -/
def recoverTwins (s : State) : State :=
  let s := each (s.twn.recs.map (·.1)) (fun n s => setRole n 2 4 s) s
  { s with twn := { s.twn with
    seen := false, partnerStale := false, heldReq := [], heldRsp := [], pending := [], units := [], resilver := none, swap := none
    swapped := false, verify := false, verifying := [] } }

/-- The Weigh-house (R446): credits and deficits at 0, wheels and queues empty, the throttle at 100. -/
def recoverWeigh (s : State) : State :=
  let sched := s.wgh.sched.map fun p =>
    (p.1, { p.2 with
      tcredit := 0, throttle := 100, lastSlot := s.now / 64
      cls := p.2.cls.map fun c => (c.1, { c.2 with queue := [], deficit := 0, visited := false, credit := 0, wheel := none }) })
  { s with wgh := { s.wgh with
    sched := sched
    loopRuns := 0 } }

/-- Fabric state (R385, R389, R583, R586): in-flight packets and tags are gone, links that were up are held, and a multi-packet request still
being received is discarded, so that its acceptance entry is no longer OPEN (R361, R392). -/
def recoverFabric (s : State) : State :=
  let ports := s.lnk.ports.map fun p =>
    (p.1, if p.2.state = 3 || p.2.state = 2 then
        { p.2 with state := 5, replay := [], outq := [], rx := [], arrived := [], sendUp := false, recvUp := false, nakPending := false }
      else p.2)
  { s with
    lnk := { s.lnk with
      ports := ports
      accept := s.lnk.accept.map fun p => (p.1, if bitOf p.2 15 then acceptTime s + 2 ^ 14 else p.2) }
    mar := { s.mar with
      repeats := [], transit := [], transitWait := [], spill := [], spillFull := false, tags := [], waiting := [], chunks := [], firstLeg := [],
      legWait := [], portWait := [] } }

/-- Stacks (R192, R199, R583): retrained with their data kept, each at its active level; shadow sets and device marks are kept. -/
def recoverStacks (s : State) : State :=
  { s with mem := { s.mem with hbmStacks := s.mem.hbmStacks.map fun p =>
    (p.1, { p.2 with
      level := levelNow s p.2
      changing := none, pendingLevel := none, drainAsks := [], openRow := [], pauseDue := [], retraining := false }) } }

/-- The lending book (R583, R634): in-flight counts are 0, and what waited on other nodes' answers starts again. -/
def recoverBook (s : State) : State :=
  let book := s.pga.book.map fun p => (p.1, if p.2.kind = 2 then { p.2 with count := 0 } else p.2)
  let migrates := s.pga.migrates.map fun p =>
    (p.1, { p.2 with todo := p.2.todo ++ p.2.copying, copying := [], sent := false, recalls := [], held := [] })
  { s with pga := { s.pga with
    book := book
    migrates := migrates
    clears := s.pga.clears.map fun p => (p.1, { p.2 with recalls := [] })
    revokeHome := [] } }

/-- Sahtin's cores stop (R583, R585): its SRAM is lost, and with it every Nasidom session. -/
def stopSahtin (s : State) : State :=
  let sic := s.evt.sic.map fun p => (p.1, { p.2 with stack := [], halted := false })
  { s with
    sah := { s.sah with
      cmdStatus := if s.sah.drains.isEmpty then s.sah.cmdStatus else tput s.sah.cmdStatus 0x880402 stRemote
      up := false, coresUp := 0, sessions := [], qps := [], regions := [], drains := [], rdmaOps := [], stored := [], bankB := false
      held := false, full := false, overrun := false, heldFrames := 0, fillFrames := 0, fillBytes := 0, frames := [], heldBank := [] }
    fw := { s.fw with
      update := 0, waiting := none, handoffDue := none, wdSuspended := true, kickDue := [], stopCore := [], stopped := false
      handoff := { s.fw.handoff with reason := 2 } }
    evt := { s.evt with sic := sic } }

/-- Every CXL port takes the actions of R110 and is held (R109). -/
def recoverPorts (s : State) : State :=
  let s := each (s.cxl.ports.map (·.1)) (fun k s => setPort k { portOf s k with state := 0, rate := 0, width := 0 } (portActions k s)) s
  { s with cxl := { s.cxl with reqs := [], purges := [], purgeDue := [], purgeWait := [], conflicts := [], probes := [], afterReq := [] } }

/-- A node recovery begins (R583, t0 to t4): a further trigger during a recovery is ignored. `trigger` is the detector's row of R582,
8 a command, 9 the pin, 10 an error of R594 (log 71, DESIGN CHOICE). -/
def beginRecovery (trigger : Nat) (s : State) : State :=
  if s.rst.nodeState != 1 && s.rst.nodeState != 3 then s
  else
    let s := { s with rst := { s.rst with
      nodeState := 2, ready := false, recovering := true, lastRecovery := s.now, trigger := trigger } }
    let s := recoverLedger s
    let s := recoverPorts s
    let s := recoverFabric (recoverWeigh (recoverStacks (recoverFlash (recoverCarter s))))
    let s := recoverTwins (recoverWindows (recoverContexts (recoverTally s)))
    let s := stopSahtin (recoverBook s)
    { s with
      fw := { s.fw with handoff := { s.fw.handoff with reason := 2 } }
      lck := { s.lck with parts := s.lck.parts.map fun p => (p.1, { p.2 with recalls := [], walked := 0 }) } }

/-! ### Detectors -/

/-- A hang detector fires (R582): counted by its row. -/
def countDetector (row : Nat) (s : State) : State :=
  { s with rst := { s.rst with detectors := bump s.rst.detectors row 1 } }

/-- A class 3 error (R593, R606): counted, its event kept until the recovery has ended. -/
def nodeError (structure_ unit addr : Nat) (s : State) : State :=
  let s := countError structure_ 3 s
  { s with ras := { s.ras with nodeEvents := s.ras.nodeEvents ++ [errorDetail s structure_ 3 unit addr 0 0 0] } }

/-- SLICE_STOP (R145, R582): the two remaining channels of a slice disagree; the slice stops, and the node enters recovery. -/
def execSliceStop (slice : Nat) (s : State) : Host.Outcome State Fault Refusal :=
  .next <|
    if nStacks s ≤ slice || s.rst.nodeState = 2 then s
    else
      let s := setSlice slice { sliceRec s slice with stopped := true } s
      beginRecovery 3 (countDetector 3 (nodeError 4 slice 0 s))

/-- STACK_CONTROLLER_HANG (R582): the request at the head of a pseudo-channel queue has not been issued for 100 µs, while the channel is
neither paused, changing level nor in self-refresh. -/
def execStackControllerHang (stack pc : Nat) (s : State) : Host.Outcome State Fault Refusal :=
  .next <|
    let x := stackOf s stack
    if nStacks s ≤ stack || 64 ≤ pc || s.rst.nodeState = 2 then s
    else if changingNow s x || inSelfRefresh s x || pc ∈ pausedNow s x then s
    else beginRecovery 1 (countDetector 1 s)

/-- RING_STOP_HANG (R582): a packet has waited 1 ms to be ejected into its block. -/
def execRingStopHang (stop : Nat) (s : State) : Host.Outcome State Fault Refusal :=
  .next <|
    if s.rst.nodeState = 2 || 2 ^ 16 ≤ stop then s else beginRecovery 2 (countDetector 2 s)

/-- The structures of R594 whose uncorrectable errors end in a node recovery: in-flight counts, open transactions and conflict queues,
Porter tag state and multi-packet maps, and a ring packet's header. -/
def recoveryUpset (structure_ : Nat) (s : State) : State :=
  if structure_ = 10 || structure_ = 17 || structure_ = 18 || structure_ = 22 then
    beginRecovery 10 (nodeError structure_ 0 0 s)
  else s

/-- A program that a recovery cut off was complete (R244): its header is applied by the rules of R228, that of a relocation as R234 says. -/
def applyProgrammed (p : Program) (s : State) : State :=
  let s := unitWritten p s
  let m := mapEntry s p.unit.logical
  if (if p.unit.kind = 0 then m.gen == p.unit.gen else m.valid && m.phys == p.src) then mapUnit p s else s

/-- Flash reinitialisation (R244, R214): channels are trained again, complete programs applied in the order of their SEQ, and journal
records that are not durable written again; LUNs open groups and go on with their erases. -/
def reinitFlash (untrained programmed : List Nat) (s : State) : State :=
  if !s.car.tiered then s
  else
    let s := useTargets untrained s
    let done := s.stk.abandoned.filter fun p => decide (p.1 ∈ programmed)
    let s := each done (fun p s => applyProgrammed p.2 s) (setStk (fun k => { k with abandoned := [] }) s)
    let s := each s.stk.journal (fun j s => programRecord j.1 (journalPair s)) s
    each (allLuns s) serveLun (keepAll (checkFree s))

/-- NODE_RECOVERY_END (R583, R584, t5 to t7): the node is in service again, or in fault when a stack's retraining failed or a critical
word is lost. Ports train, held links send offers, purges, releases and revokes go again, and grants that were in progress are undone
(R634); a context that halted with RECOVERED fires its vector (R487). `untrained` names the targets that failed training at the flash
reinitialisation, `programmed` the programs that were complete. -/
def execNodeRecoveryEnd (trained : Bool) (untrained programmed : List Nat) (s : State) : Host.Outcome State Fault Refusal :=
  .next <|
    if !s.rst.recovering then s
    else
    let c := reloadCritical s
    let s := c.2
    if c.1.isSome then enterFault (raise 0x1405 3 none (packLE [(8, c.1.getD 0)]) (countError 3 4 s))
    else if !trained then enterFault s
    else
      let s := { s with
        rst := { s.rst with nodeState := 1, ready := true, recovering := false }
        sah := { s.sah with up := true, coresUp := 0x1F, recoveries := s.sah.recoveries + 1 }
        fw := { s.fw with
          wdSuspended := false
          kickDue := [0, 1, 2, 3].map fun c => (c, s.now + msec 100) } }
      let s := each (List.range (nStacks s)) (fun k s => trainLevel k (stackOf s k).level s) s
      let s := reinitFlash untrained programmed s
      let s := each s.ras.nodeEvents (fun b s => raise 0x3808 3 none b s) s
      let s := { s with ras := { s.ras with nodeEvents := [] } }
      let s := each (s.lnk.ports.filter fun p => p.2.state == 5) (fun p s => startResync p.1 s) s
      let s := replayJournal (fun a => match a with | .reserve .. | .windowBind .. => false | _ => true) s
      let s := each (s.pga.grants.map (·.1)) (fun n s => failGrant n stRecovered s) s
      let s := each (s.pga.revokes.filter fun p => !p.2.homes.isEmpty) (fun p s =>
        let e := bookOf s p.1
        each ((piecesOf s e).filter fun x => x.1 ∈ p.2.homes) (sendRevokeRecall p.1 e) s) s
      let s := each (s.pga.migrates.map (·.1)) (fun n s =>
        match tfind s.pga.migrates n with
        | some m => if m.phase = 0 then migrateFails n stRecovered s else migrateAdvance n s
        | none => s) s
      let s := each s.win.out (fun c s => sendRelease c.home c.seq s) s
      let s := each (s.cxl.ports.map (·.1)) (fun k s => owePurge k (ldsOf s k) s) s
      let s := pumpPurges { s with cxl := { s.cxl with purgeDue := s.cxl.ports.map (·.1) } }
      let s := each (s.cxl.ports.filter fun p => p.2.state == 0 && !p.2.perst && !p.2.held) (fun p s => trainPort p.1 s) s
      let s := each s.cle.recovered fireContext { s with cle := { s.cle with recovered := [] } }
      afterFrames s

end Sys2Proof.Machine
end

