-- ==== Sys2Proof/Machine/Cxl.lean ====
section
/-! DEFINITION. CXL ports (03): training and reset (R108, R109), M2S requests (R86), decoders (R92, R93), the privileged view (R107),
region lengths and bifurcation (R84, R95), and errors of the structures of R594 met by a host read. -/
namespace Sys2Proof.Machine

/-! ### Errors of structures (R594) -/

/-- A lending-book entry cannot be corrected (R598): rebuilt in tiered mode, lost in flat mode. -/
def bookUpset (n : Nat) (s : State) : State :=
  if s.car.tiered || (bookOf s n).kind = 0 then corrected 11 0 s
  else
    let s := countError 11 2 { s with ras := { s.ras with lostBook := ascending (n :: s.ras.lostBook) } }
    raise 0x3805 2 none (errorDetail s 11 2 0 n 0 0 0) s

/-- A key slot whose copies do not agree (R597): bits 5:0 of `a` name the partition, bit 6 the previous epoch, bit 7 that its seed has no
two agreeing copies, bit 8 that no copy of the key-record table decodes. -/
def keyUpset (a : Nat) (s : State) : State :=
  let p := a % 64
  let x := partOf s p
  if bitOf a 7 && (!s.car.tiered || bitOf a 8) then
    let e := if bitOf a 6 then x.previous else x.current
    let s := countError 21 2 { s with ras := { s.ras with lostKeys := (p, e) :: s.ras.lostKeys.filter (· != (p, e)) } }
    raise 0x3806 2 (some p) (errorDetail s 21 2 p e 0 0 0) s
  else corrected 21 p s

/-- A map entry cannot be corrected (R594, R220): its unit is lost. -/
def mapUpset (b : Nat) (s : State) : State :=
  let m := mapEntry s b
  if !m.valid || m.phys = lostUnit then corrected 25 0 s
  else
    let part := match tfind s.stk.units m.phys with | some u => u.part | none => 0
    let s := setMap b { m with phys := lostUnit } s
    contained 25 2 0 b 0 0 (some part)
      { s with stk := { s.stk with lost := tbump s.stk.lost part 1, live := tdel s.stk.live m.phys } }

/-- An event-log record cannot be corrected (R594): it reads as zeros and is counted. -/
def logUpset (q : Nat) (s : State) : State :=
  if (tfind s.evt.log q).isNone then s
  else countError 26 2 { s with evt := { s.evt with log := tput s.evt.log q { part := some 0 } } }

/-- An uncorrectable error of a structure of R594 that a host's read meets: bits 4:0 of `up` are the structure number and the rest names
the word (log 74, DESIGN CHOICE). 0 means none. `line` is the stored line the read wants at this node. -/
def structureUpset (up : Nat) (line : Option Nat) (s : State) : State :=
  let a := up / 32
  let part := match line with
    | some l => (match homeAt s (l * 64) with | some (_, h) => h.part | none => 0)
    | none => 0
  match up % 32 with
  | 3 => readCritical (a / 64) (a % 64) s
  | 5 => corrected 5 (a % 16) s
  | 6 => match line with | some l => loseLedger l a s | none => s
  | 7 => corrected 7 (a % 16) s
  | 8 => corrected 8 (a % 16) s
  | 9 => corrected 9 (a % 8) s
  | 10 => recoveryUpset 10 s
  | 11 => bookUpset a s
  | 17 => recoveryUpset 17 s
  | 18 => recoveryUpset 18 s
  | 19 =>
    corrected 19 0 (if a = 0 then s
      else { s with mar := { s.mar with failed := s.mar.failed.eraseIdx (a - 1) } })
  | 21 => keyUpset a s
  | 22 => match line with
    | some l => if a = 0 then recoveryUpset 22 s else contained 22 1 0 (l * 64) 0 0 (some part) (poisonDpa l part s)
    | none => recoveryUpset 22 s
  | 25 => if a = 0 then corrected 25 0 s else mapUpset (a - 1) s
  | 26 => logUpset a s
  | _ => s

/-! ### The port machine (R109) -/

/-- The links of a port: one, or its two halves (R85). -/
def portKeys (s : State) (p : Nat) : List Nat := if isSplit s p then [p, p + 32] else [p]

/-- PERST_DEASSERT (R108, R109): a held port trains once the node is ready, a reset port once its actions are complete. -/
def execPerstDeassert (port : Nat) (s : State) : Host.Outcome State Fault Refusal :=
  .next <|
    if 24 ≤ port || !portExists s port then s
    else each (portKeys s port) (fun k s =>
      let s := setPort k { portOf s k with perst := false } s
      let x := portOf s k
      if (x.state = 0 && portsReady s && !x.held) || (x.state = 3 && x.done) then trainPort k s else s) s

/-- PERST_ASSERT (R109): a training, up or down port takes the port reset actions; a held or reset port does not. -/
def execPerstAssert (port : Nat) (s : State) : Host.Outcome State Fault Refusal :=
  .next <|
    if 24 ≤ port || !portExists s port then s
    else settle (each (portKeys s port) (fun k s =>
      let x := portOf s k
      let s := setPort k { x with perst := true } s
      if x.state = 0 || x.state = 3 then s else resetPort k s) s)

/-- What CXL_PORT_RESET does to one link of a port (R109). -/
def portResetCommand (k : Nat) (s : State) : State :=
  let x := portOf s k
  if x.state = 1 || x.state = 2 then resetPort k s
  else if x.state = 4 || x.state = 5 || x.state = 6 then (if x.perst then s else trainPort k s)
  else s

/-- CXL_PORT_RESET (R109): resets an up or training port and retries training on a down port; a port that is not there does nothing. -/
def execCxlPortReset (q : Ask) (port value : Nat) (s : State) : Host.Outcome State Fault Refusal :=
  .next <| ask q 1 (0x110300 + port) true (fun _ s =>
    if 24 ≤ port then refuse q stAbsent s
    else if value != 1 then finish q (0x110300 + port) stBadValue [] s
    else
      let s := if portExists s port then settle (each (portKeys s port) portResetCommand s) else s
      finish q (0x110300 + port) stOk [] s) s

/-- PORT_TRAINED (R79, R108, R263): the port reaches L0, in the flit format that both ends settled on (log 132, DESIGN CHOICE), and answers configuration; page requests of its logical devices no longer end with the
port. -/
def execPortTrained (port rate width : Nat) (s : State) : Host.Outcome State Fault Refusal :=
  .next <|
    let x := portOf s port
    if !portExists s port || x.state != 1 then s
    else if !(rate == 16 || rate == 32 || rate == 64) then s
    else if !(width == 8 || (width == 16 && !isSplit s (port % 32))) then s
    else
      let s := setPort port { x with state := 2, rate := rate, width := width, latencyOpt := bitOf (draw s) 0, done := false } (drawn s)
      let lds := ldsOf s port
      { s with tlb := { s.tlb with
        faults := s.tlb.faults.map fun p =>
          if p.2.port == port % 32 && decide (p.2.ld ∈ lds) then (p.1, { p.2 with downDue := none }) else p } }

/-- CXL_TRAINING_FAILS (R80, R83, R109): the port is down and reports the cause: NO_FLIT, NARROW, or none of the two. -/
def execCxlTrainingFails (port cause : Nat) (s : State) : Host.Outcome State Fault Refusal :=
  .next <|
    let x := portOf s port
    if !portExists s port || x.state != 1 then s
    else setPort port { x with state := if cause = 5 || cause = 6 then cause else 4 } s

/-- CXL_LINK_DOWN (R109, R110): an up port's link goes down or takes a hot reset. -/
def execCxlLinkDown (port : Nat) (s : State) : Host.Outcome State Fault Refusal :=
  .next <| if portExists s port && (portOf s port).state == 2 then settle (resetPort port s) else s

/-- PORT_RESET_DONE (R108, R109): the port reset actions are complete, and the port trains if its reset input is deasserted. -/
def execPortResetDone (port : Nat) (s : State) : Host.Outcome State Fault Refusal :=
  .next <|
    let x := portOf s port
    if !portExists s port || x.state != 3 then s
    else if x.perst then setPort port { x with done := true } s
    else trainPort port s

/-- PURGE_RESEND (R111): every `LDG_TIMEOUT` the purge goes again to each home still in the set. -/
def execPurgeResend (port : Nat) (s : State) : Host.Outcome State Fault Refusal :=
  .next <| match tfind s.cxl.purges port with
  | some (homes, due, lds) =>
    if s.now < due then s
    else
      sendPurges port { s with cxl := { s.cxl with
        purges := tput s.cxl.purges port (homes, s.now + msec (rLdgTimeout s), lds)
        purgeDue := s.cxl.purgeDue.filter (· != port) } }
  | none => s

/-- PURGE_WAIT_TIMEOUT (R111, R353): a host request held for a home still in purge has waited `LDG_TIMEOUT`. -/
def execPurgeWaitTimeout (id : Nat) (s : State) : Host.Outcome State Fault Refusal :=
  .next <|
    if s.cxl.purgeWait.any fun w => w.id == id && decide (w.due ≤ s.now) then
      let s := { s with cxl := { s.cxl with purgeWait := s.cxl.purgeWait.filter (·.id != id) } }
      settle (hostAnswer id { status := 6 } s)
    else s

/-! ### M2S requests (R86) -/

/-- The PGA an M2S request names, without the checks of its permissions (R49, R94), under an active binding or one past its revoke point
(R63). -/
def m2sPga (s : State) (m : M2S) : Option Nat :=
  ((hdmDecode (ldOf s (ldKey m.port m.ld)) (m.hpa / 64 * 64)).bind fun lda => heldLda s m.port m.ld lda).map (·.2.2)

/-- The stored line of this node that an M2S request names, if its home is here. -/
def m2sLine (s : State) (m : M2S) : Option Nat :=
  (m2sPga s m).bind fun a => if pgaCoord a = hereAt s then some (pgaDpa a / 64) else none

/-- MEM_RD (R116, R119): read current, read shared or read own by its SnpType. `upset` is an error met on the way (R594, R600). -/
def execMemRd (m : M2S) (upset : Nat) (s : State) : Host.Outcome State Fault Refusal :=
  .next <|
    let s := structureUpset upset (m2sLine s m) s
    if m.snp = 1 then settle (hostRequest m .readShared 3 false [] 0 false s)
    else if m.snp = 3 then settle (hostRequest m .readOwn 3 false [] 0 false s)
    else settle (hostRequest m .readCurrent 2 false [] 0 false s)

/-- MEM_RD_DATA (R116, R119): read shared. -/
def execMemRdData (m : M2S) (s : State) : Host.Outcome State Fault Refusal :=
  .next <| settle (hostRequest m .readShared 3 false [] 0 false s)

/-- MEM_INV (R116, R119): read own, without data. -/
def execMemInv (m : M2S) (s : State) : Host.Outcome State Fault Refusal :=
  .next <| settle (hostRequest m .readOwn 1 false [] 0 false s)

/-- MEM_INV_NT (R116, R119): every holder of the line is removed. -/
def execMemInvNt (m : M2S) (s : State) : Host.Outcome State Fault Refusal :=
  .next <| settle (hostRequest m .invalidate 0 false [] 0 false s)

/-- MEM_SPEC_RD (R87): served as read current, or dropped with no response. -/
def execMemSpecRd (m : M2S) (s : State) : Host.Outcome State Fault Refusal :=
  .next <|
    if Config.dropSpec s.fresh then drawn s
    else settle (hostRequest m .readCurrent 2 false [] 0 false (drawn s))

/-- MEM_CLN_EVCT (R116, R119): the requester is removed as holder. -/
def execMemClnEvct (m : M2S) (s : State) : Host.Outcome State Fault Refusal :=
  .next <| settle (hostRequest m .cleanEvict 0 false [] 0 false s)

/-- The recall of another home's line that a host's write belongs to as write-back data (R132). -/
def writeBackFor (s : State) (m : M2S) : Option (Nat × Proxy) :=
  match m2sPga s m with
  | some a => s.ldg.proxies.find? fun p => p.2.port == m.port && p.2.ld == m.ld && p.2.pga / 64 == a / 64 && p.2.due.isSome
  | none => none

/-- A host's write (R116, R119, R132, R603): write-back data of a recall of another home travels with its response; any other write goes to
its home. Poison received shows in the CXL RAS capability (log 126, PRESUMED). -/
def hostWrite (m : M2S) (data : Bytes) (be : Nat) (poison : Bool) (s : State) : State :=
  let k := ldKey m.port m.ld
  let s := if poison && ldUp s m.port m.ld then setLd k { ldOf s k with rasCor := setBit (ldOf s k).rasCor 5 } s else s
  match (if ldUp s m.port m.ld then writeBackFor s m else none) with
  | some (pid, x) =>
    let wb := match x.wb with
      | some (d, b, p) => (mergeBytes d data be, b ||| be, p || poison)
      | none => (data, be, poison)
    let s := { s with ldg := { s.ldg with proxies := tput s.ldg.proxies pid { x with wb := some wb } } }
    emit (.ndr m.port m.ld m.tag 0 (devLoad s m.port m.ld)) (noteLinkErrors m s)
  | none => settle (hostRequest m .write 0 true data be poison s)

/-- Data of a message as 64 B. -/
def lineBytes (b : Bytes) : Bytes := (b ++ zeros 64).take 64

/-- MEM_WR (R119, R603): a full-line write. -/
def execMemWr (m : M2S) (data : Bytes) (poison : Bool) (s : State) : Host.Outcome State Fault Refusal :=
  .next <| hostWrite m (lineBytes data) fullBE poison s

/-- MEM_WR_PTL (R205, R603): a write of the bytes that `be` enables. -/
def execMemWrPtl (m : M2S) (data : Bytes) (be : Nat) (poison : Bool) (s : State) : Host.Outcome State Fault Refusal :=
  .next <| hostWrite m (lineBytes data) (be % 2 ^ 64) poison s

/-- UNSUPPORTED_M2S (R86, R44, R62): a completion and an error record (log 53, PRESUMED). -/
def execUnsupportedM2s (m : M2S) (s : State) : Host.Outcome State Fault Refusal :=
  .next <|
    if ldUp s m.port m.ld then
      let lda := hdmDecode (ldOf s (ldKey m.port m.ld)) (m.hpa / 64 * 64)
      hostRefused { port := m.port, ld := m.ld, tag := m.tag, opcode := 0, op := 6, lda := lda.getD m.hpa, part := (tdiOf s (ldKey m.port m.ld)).part
                    bind := (lda.bind (bindingAt s m.port m.ld)).map (·.1) } 1 (noteLinkErrors m s)
    else s

/-! ### Decoders (R92, R93) -/

/-- Whether a TDI has its registers locked (R475). -/
def tdiLocked (s : State) (k : Nat) : Bool := (tdiOf s k).state == 1 || (tdiOf s k).state == 2

/-- BI_DECODER_PROGRAM (R92, R475): the logical device has the BI-ID; on a locked TDI the write is an error. -/
def execBiDecoderProgram (port ld : Nat) (biId : Option Nat) (s : State) : Host.Outcome State Fault Refusal :=
  .next <|
    let k := ldKey port ld
    if !ldUp s port ld then s
    else if tdiLocked s k then tdiError k s
    else setLd k { ldOf s k with bi := biId.map (· % 4096) } s

/-- Whether a decoder may commit (R79, R93): its interleave is supported, its DPA range lies wholly inside one region's configured length,
and every decoder committed before ends below it. -/
def decoderFits (x : Ld) (index : Nat) (d : DecoderArg) : Bool :=
  let len := d.size / max 1 d.ways
  decide (d.ways ∈ [1, 2, 4, 8, 16]) && decide (d.gran ∈ [256, 512, 1024, 2048, 4096, 8192, 16384]) && decide (d.pos < d.ways) &&
    decide (0 < d.size) && d.size % (d.ways * d.gran) == 0 &&
    decide (d.dpa % 2 ^ 44 + len ≤ x.regions.getD (d.dpa / 2 ^ 44) 0) &&
    x.decoders.all fun p => p.1 == index || !p.2.committed || decide (p.2.dpa + p.2.size / max 1 p.2.ways ≤ d.dpa)

/-- HDM_DECODER_COMMIT (R93, R475): the decoder commits, or fails with Commit Error and stays uncommitted. A decoder locked on commit, and
every decoder of a locked TDI, is not written. -/
def execHdmDecoderCommit (port ld index : Nat) (d : DecoderArg) (s : State) : Host.Outcome State Fault Refusal :=
  .next <|
    let k := ldKey port ld
    let x := ldOf s k
    let old := (tfind x.decoders index).getD {}
    if !ldUp s port ld || 8 ≤ index then s
    else if tdiLocked s k then tdiError k s
    else if old.committed && old.locked then s
    else
      let ok := d.commit && decoderFits x index d
      let y : Decoder := { base := d.base, size := d.size, dpa := d.dpa, ways := d.ways, gran := d.gran, pos := d.pos,
                           committed := ok, error := d.commit && !ok, locked := ok && d.lock }
      setLd k { x with decoders := tput x.decoders index y } s

/-- GPF (R81): a Global Persistent Flush request is complete without any action. -/
def execGpf (_port : Nat) (s : State) : Host.Outcome State Fault Refusal := .next s

/-- VIRAL (R82): a viral indication is logged, in the Informational log of each enabled logical device of the port, and otherwise ignored
(log 75, PRESUMED). -/
def execViral (port : Nat) (s : State) : Host.Outcome State Fault Refusal :=
  .next <|
    each ((ldsOf s port).filter fun ld => keyOf s (port % 32) ld == port && ldUp s (port % 32) ld)
      (fun ld s => logAdd (ldKey (port % 32) ld) 0 (packLE [(8, 2), (8, port)]) s) s

/-! ### The privileged view (R107) -/

/-- Whether the privileged view is present: the logical device named in `CXL_PRIV_LD` is up. -/
def privUp (s : State) : Bool :=
  rCxlPrivLd s != 0xFFFF && ldUp s (bits (rCxlPrivLd s) 0 5) (bits (rCxlPrivLd s) 5 4)

/-- ALERT_LATCH_CLEAR (R107): alert latches written as 1 are cleared. -/
def execAlertLatchClear (value : Nat) (s : State) : Host.Outcome State Fault Refusal :=
  .next <|
    if privUp s then
      { s with cxl := { s.cxl with alerts := [0, 1, 2, 3].foldl (fun a i => if bitOf value i then clearBit a i else a) s.cxl.alerts } }
    else s

/-- SAFE_THROTTLE (R107, R444): writing 1 sets the privileged-view cause of the safe level, at the next refill. -/
def execSafeThrottle (value : Nat) (s : State) : Host.Outcome State Fault Refusal :=
  .next <| if privUp s && bitOf value 0 then { s with wgh := { s.wgh with privEvent := true } } else s

/-! ### Region lengths and bifurcation (R84, R95) -/

/-- The active bindings of a logical device. -/
def activeOf (s : State) (port ld : Nat) : List (Nat × BookEntry) :=
  s.pga.book.filter fun p => p.2.kind == 2 && p.2.state == 2 && p.2.port == port && p.2.ld == ld

/-- CXL_REGION_LENGTH (R95, R474): the lengths of the logical device that `CXL_LD_SELECT` names, refused with BUSY where a region that
changes has an active binding or the TDI is locked. -/
def execCxlRegionLength (q : Ask) (port ld : Nat) (lengths : List Nat) (s : State) : Host.Outcome State Fault Refusal :=
  .next <| ask q 1 0x111001 true (fun _ s =>
    let k := ldKey port ld
    let x := ldOf s k
    let changed := (List.range 8).filter fun r => lengths.getD r 0 != x.regions.getD r 0
    if 8 * s.asm.dies ≤ port || 16 ≤ ld || lengths.length != 8 then finish q 0x111001 stBadValue [] s
    else if lengths.any fun l => l % 2 ^ 26 != 0 || decide (2 ^ 44 < l) then finish q 0x111001 stBadValue [] s
    else if tdiLocked s k || (activeOf s port ld).any fun p => decide (p.2.region ∈ changed) then finish q 0x111001 stBusy [] s
    else
      let s := setLd k { x with regions := lengths } s
      let s := each changed (fun r s => dcEvent port ld 3 r (r * 2 ^ 44) (lengths.getD r 0) s) s
      if s.car.tiered then storeLater q 0x111001 k 0 (packLE (lengths.map fun l => (8, l))) s else finish q 0x111001 stOk [] s) s

/-- CXL_PORT_BIFURCATE (R84, R474): the split that takes effect at the next port reset; BUSY while a logical device of the port has an
active binding or a locked TDI. -/
def execCxlPortBifurcate (q : Ask) (port value : Nat) (s : State) : Host.Outcome State Fault Refusal :=
  .next <| ask q 1 (0x110200 + port) true (fun _ s =>
    let key := 0x110200 + port
    if 24 ≤ port then refuse q stAbsent s
    else if 1 < value then finish q key stBadValue [] s
    else if (List.range 16).any fun ld => tdiLocked s (ldKey port ld) || !(activeOf s port ld).isEmpty then finish q key stBusy [] s
    else storeLater q key 0 value [] (setPort port { portOf s port with bifurcate := value } s)) s

end Sys2Proof.Machine
end

