-- ==== Sys2Proof/Machine/Mailbox.lean ====
section
/-! DEFINITION. The mailbox of a logical device (R99 to R101). Return codes and payload layouts are those of CXL 3.1 (log 72, PRESUMED): 0 Success,
2 Invalid Input, 3 Unsupported, 0x0E Invalid Handle, 0x0F Invalid Physical Address, 0x16 Invalid Payload Length, 0x17 Invalid Log,
0x1E Invalid Extent List. -/
namespace Sys2Proof.Machine

/-- The FM-owned logical device of a port is numbered 0xFFFF. -/
def isFm (ld : Nat) : Bool := ld == 0xFFFF

/-- The record of a mailbox's logical device: `cxl.lds` keeps the FM-owned ones after the others. -/
def mboxKey (port ld : Nat) : Nat := if isFm ld then 384 + port else ldKey port ld

/-- Whether a mailbox can be reached. -/
def mboxUp (s : State) (port ld : Nat) : Bool :=
  if isFm ld then portExists s port && (portOf s port).state == 2 else ldUp s port ld

/-- A command that every mailbox answers. -/
def mailbox (port ld : Nat) (act : State → Nat × Bytes × State) (s : State) : State :=
  if mboxUp s port ld then
    let a := act s
    mailboxDone port ld a.1 a.2.1 a.2.2
  else s

/-- A command that the FM-owned logical device does not answer (R99). -/
def ldMailbox (port ld : Nat) (act : State → Nat × Bytes × State) (s : State) : State :=
  mailbox port ld (fun s => if isFm ld then (3, [], s) else act s) s

/-- IDENTIFY (R99): part number (R107), serial number, payload of 2 ^ 12 B and type. -/
def execIdentify (port ld : Nat) (s : State) : Host.Outcome State Fault Refusal :=
  .next <| mailbox port ld (fun s =>
    (0, packLE [(2, 0), (2, 0x4800), (2, 0), (2, 0), (8, Config.serial 0), (1, 12), (1, if isFm ld then 0 else 3)], s)) s

/-- BACKGROUND_OPERATION_STATUS (R99): no background operation is ever reported. -/
def execBackgroundOperationStatus (port ld : Nat) (s : State) : Host.Outcome State Fault Refusal :=
  .next <| mailbox port ld (fun s => (0, zeros 8, s)) s

/-- An event record as the mailbox returns it: handle and record, 128 B. -/
def mboxRecord (r : Nat × Bytes) : Bytes := (toLE 2 r.1 ++ r.2 ++ zeros 128).take 128

/-- GET_EVENT_RECORDS (R101): the oldest records of a log, as many as the payload holds, with the overflow count and its times. -/
def execGetEventRecords (port ld log : Nat) (s : State) : Host.Outcome State Fault Refusal :=
  .next <| mailbox port ld (fun s =>
    if 5 ≤ log then (2, [], s)
    else
      let l := (tfind (ldOf s (mboxKey port ld)).logs log).getD {}
      let rs := l.records.take 31
      let flags := b2n (decide (0 < l.overflow)) + 2 * b2n (decide (31 < l.records.length))
      (0, packLE [(1, flags), (1, 0), (2, l.overflow), (8, l.first), (8, l.last), (2, rs.length), (10, 0)] ++ rs.flatMap mboxRecord, s)) s

/-- CLEAR_EVENT_RECORDS (R101): all records, or those of the handles; an empty log has no overflow. -/
def execClearEventRecords (port ld log : Nat) (all : Bool) (handles : List Nat) (s : State) : Host.Outcome State Fault Refusal :=
  .next <| mailbox port ld (fun s =>
    let k := mboxKey port ld
    let x := ldOf s k
    let l := (tfind x.logs log).getD {}
    if 5 ≤ log then (2, [], s)
    else if !all && handles.any fun h => !(l.records.any fun r => r.1 == h) then (0x0E, [], s)
    else
      let rest := if all then [] else l.records.filter fun r => !decide (r.1 ∈ handles)
      let l := { l with records := rest }
      let l := if rest.isEmpty then { l with overflow := 0, first := 0, last := 0 } else l
      (0, [], setLd k { x with logs := tput x.logs log l } s)) s

/-- GET_EVENT_INTERRUPT_POLICY (R99, R482): the policy of each log. -/
def execGetEventInterruptPolicy (port ld : Nat) (s : State) : Host.Outcome State Fault Refusal :=
  .next <| mailbox port ld (fun s => (0, toLE 5 (ldOf s (mboxKey port ld)).policy, s)) s

/-- SET_EVENT_INTERRUPT_POLICY (R99, R482): bits 1:0 of each log's byte: 0 none, 1 MSI-X message 0. -/
def execSetEventInterruptPolicy (port ld : Nat) (policy : Bytes) (s : State) : Host.Outcome State Fault Refusal :=
  .next <| mailbox port ld (fun s =>
    let k := mboxKey port ld
    if policy.length != 4 && policy.length != 5 then (0x16, [], s)
    else
      let keep := bits (ldOf s k).policy 32 8
      let v := (List.range 5).map fun i =>
        (8, if i < policy.length then bits (leAt policy i 1) 0 2 else keep)
      (0, [], setLd k { ldOf s k with policy := packBits v } s)) s

/-- GET_TIMESTAMP (R99). -/
def execGetTimestamp (port ld : Nat) (s : State) : Host.Outcome State Fault Refusal :=
  .next <| mailbox port ld (fun s => (0, toLE 8 (ldTime s (ldOf s (mboxKey port ld))), s)) s

/-- SET_TIMESTAMP (R99): used only to stamp event records. -/
def execSetTimestamp (port ld stamp : Nat) (s : State) : Host.Outcome State Fault Refusal :=
  .next <| mailbox port ld (fun s =>
    let k := mboxKey port ld
    (0, [], setLd k { ldOf s k with stampBase := stamp % 2 ^ 64, stampAt := s.now } s)) s

/-! ### Logs -/

/-- The UUID of the Command Effects Log (CXL 3.1, log 72, PRESUMED). -/
def celUuid : Bytes :=
  [0x0d, 0xa9, 0xc0, 0xb5, 0xbf, 0x41, 0x4b, 0x78, 0x8f, 0x79, 0x96, 0xb1, 0x62, 0x3b, 0x3f, 0x17]

/-- The Command Effects Log: opcode and effects of each supported command (R99; effects: log 72, PRESUMED). -/
def celBytes (fm : Bool) : Bytes :=
  let generic := [(0x0001, 0), (0x0002, 0), (0x0100, 0), (0x0101, 0x10), (0x0102, 0), (0x0103, 8), (0x0300, 0), (0x0301, 8), (0x0400, 0),
                  (0x0401, 0)]
  let device := [(0x4000, 0), (0x4100, 0), (0x4200, 0), (0x4300, 0), (0x4301, 4), (0x4302, 4), (0x4800, 0), (0x4801, 0), (0x4802, 2),
                 (0x4803, 2)]
  (if fm then generic else generic ++ device).flatMap fun c => packLE [(2, c.1), (2, c.2)]

/-- GET_SUPPORTED_LOGS (R99): the Command Effects Log only. -/
def execGetSupportedLogs (port ld : Nat) (s : State) : Host.Outcome State Fault Refusal :=
  .next <| mailbox port ld (fun s =>
    (0, packLE [(2, 1), (6, 0)] ++ celUuid ++ toLE 4 (celBytes (isFm ld)).length, s)) s

/-- GET_LOG (R99): a part of the Command Effects Log. -/
def execGetLog (port ld : Nat) (uuid : Bytes) (offset length : Nat) (s : State) : Host.Outcome State Fault Refusal :=
  .next <| mailbox port ld (fun s =>
    let b := celBytes (isFm ld)
    if uuid != celUuid then (0x17, [], s)
    else if b.length < offset + length then (2, [], s)
    else (0, (b.drop offset).take length, s)) s

/-! ### The memory device -/

/-- IDENTIFY_MEMORY_DEVICE (R99, R46): volatile only, persistent and static capacity 0, 256 records in each log, 4,096 records of a poison
list. -/
def execIdentifyMemoryDevice (port ld : Nat) (s : State) : Host.Outcome State Fault Refusal :=
  .next <| ldMailbox port ld (fun s =>
    (0, packLE [(16, fwVersion s), (8, 0), (8, 0), (8, 0), (8, 0), (2, 256), (2, 256), (2, 256), (2, 256), (4, 0), (3, 4096), (2, 0),
      (1, 0), (1, 0), (2, 256)], s)) s

/-- GET_PARTITION_INFO (R99): all zero. -/
def execGetPartitionInfo (port ld : Nat) (s : State) : Host.Outcome State Fault Refusal :=
  .next <| ldMailbox port ld (fun s => (0, zeros 32, s)) s

/-- GET_HEALTH_INFO (R99): from the RAS state: maintenance needed while a Ledger channel is fenced or flash is worn, the hottest stack, and
the corrected errors of DRAM and flash (log 72, PRESUMED). -/
def execGetHealthInfo (port ld : Nat) (s : State) : Host.Outcome State Fault Refusal :=
  .next <| ldMailbox port ld (fun s =>
    let care := s.stk.worn || s.ldg.slices.any fun p => !p.2.fenced.isEmpty
    let hot := (List.range (nStacks s)).foldl (fun t k => max t (stackOf s k).temp) (-273)
    let temp := if 0 ≤ hot then hot.toNat else 2 ^ 16 - (-hot).toNat
    (0, packLE [(1, b2n care), (1, 0), (1, 0), (1, 0xFF), (2, temp), (4, 0), (4, tget 0 s.ras.corrected 1), (4, tget 0 s.ras.corrected 2)], s)) s

/-! ### Poison (R99, R100) -/

/-- The poisoned DPA lines of this node: lines in DRAM, lines of flash units that no frame holds, and lines whose poison waits for their
block. -/
def poisonedLines (s : State) : List Nat :=
  let dram := (s.mem.info.filter fun p => p.2.poison && dramLine s p.2.line == some p.1).map (·.2.line)
  let flash := s.stk.map.flatMap fun m =>
    if m.2.valid && m.2.phys != lostUnit && (frameOf s m.1).isNone then
      match tfind s.stk.units m.2.phys with
      | some u => u.poison.map (· + m.1 * 1024)
      | none => []
    else []
  ascending (dram ++ flash ++ s.ldg.owed.map (·.1))

/-- The LDAs at which a binding shows a stored line of this node (R48, R68, R100). -/
def ldasOf (s : State) (e : BookEntry) (line : Nat) : List Nat :=
  match homeAt s (line * 64) with
  | none => []
  | some (_, h) =>
    let x := (tfind s.pga.isets (e.target % 4096)).getD {}
    let g := max 1 x.granule
    let w := max 1 x.ways
    (piecesOf s e).zipIdx.flatMap fun p =>
      let base := p.1.2.1
      if p.1.1 = hereAt s && base ≤ line * 64 && line * 64 < base + p.1.2.2 then
        (shownLines h e.view line).map fun d =>
          let q := if e.view = 0 then d - base else (d - base) / viewBytes e.view * 64
          e.base + (if e.ilv then q / g * (g * w) + p.2 * g + q % g else q)
      else []

/-- Whether the home of an LDA inside an active binding of a logical device is another node. -/
def remoteLda (s : State) (port ld lda : Nat) : Bool :=
  match decodeLda s port ld lda false true with
  | some (_, _, pga) => pgaCoord pga != hereAt s
  | none => false

/-- The poisoned lines inside a logical device's active bindings (R100), as LDAs: those of this home, and of the LDAs `remote` that other homes
hold poisoned those inside active bindings to another home (log 76, DEDUCED). -/
def poisonLdas (s : State) (port ld : Nat) (remote : List Nat) : List Nat :=
  let ls := poisonedLines s
  ascending (((activeOf s port ld).flatMap fun p => ls.flatMap (ldasOf s p.2)) ++
    (remote.map (· / 64 * 64)).filter (remoteLda s port ld))

/-- GET_POISON_LIST (R100): at most 4,096 records of the range asked for, `length` in units of 64 B, with the More Media Error Records
flag. `remote` names the poisoned lines of the device's bindings at other homes. -/
def execGetPoisonList (port ld dpa length : Nat) (remote : List Nat) (s : State) : Host.Outcome State Fault Refusal :=
  .next <| ldMailbox port ld (fun s =>
    let all := (poisonLdas s port ld remote).filter fun a => decide (dpa ≤ a) && decide (a < dpa + length * 64)
    let rs := all.take 4096
    (0, packLE [(1, b2n (decide (4096 < all.length))), (1, 0), (8, 0), (2, rs.length), (20, 0)] ++
      rs.flatMap fun a => packLE [(8, a), (4, 1), (4, 0)], s)) s

/-- A poison command's write to the line of an LDA (R99). Clear Poison clears the stored lines that the line touches, also where it writes
only part of them (R137). The mailbox answers when it has been applied. -/
def poisonWrite (port ld dpa : Nat) (isClear : Bool) (data : Bytes) (s : State) : State :=
  match decodeLda s port ld (dpa / 64 * 64) false true with
  | none => mailboxDone port ld 0x0F [] s
  | some (n, e, pga) =>
    if e.isWin then mailboxDone port ld 0x0F [] s
    else
      let r : MReq := { kind := if isClear then .engineWrite else .write, who := .engine { kind := .poisonOp, a := port * 65536 + ld, b := n },
                        part := e.part, view := e.view, data := data, be := if isClear then fullBE else 0, poison := !isClear
                        op := if isClear then 7 else 0 }
      settle (sendMem r pga e.partner false (countUp n s))

/-- INJECT_POISON (R99): only while `CXL_POISON_INJECT` is 1. The line is poisoned as by a host write with no byte enabled (R603, log 76, DEDUCED). -/
def execInjectPoison (port ld dpa : Nat) (s : State) : Host.Outcome State Fault Refusal :=
  .next <|
    if !mboxUp s port ld then s
    else if isFm ld || rCxlPoisonInject s != 1 then mailboxDone port ld 3 [] s
    else poisonWrite port ld dpa false (zeros 64) s

/-- CLEAR_POISON (R99, R119, R137): after every holder is recalled with BISnpInv, the supplied 64 B are written and poison is cleared. -/
def execClearPoison (port ld dpa : Nat) (data : Bytes) (s : State) : Host.Outcome State Fault Refusal :=
  .next <|
    if !mboxUp s port ld then s
    else if isFm ld then mailboxDone port ld 3 [] s
    else poisonWrite port ld dpa true (lineBytes data) s

/-! ### Dynamic capacity (R95 to R98) -/

/-- GET_DYNAMIC_CAPACITY_CONFIGURATION (R95): `count` regions from `start`: base, size, length and block size. -/
def execGetDynamicCapacityConfiguration (port ld count start : Nat) (s : State) : Host.Outcome State Fault Refusal :=
  .next <| ldMailbox port ld (fun s =>
    let x := ldOf s (ldKey port ld)
    let have_ := (List.range 8).filter fun r => x.regions.getD r 0 != 0
    let rs := (have_.filter fun r => decide (start ≤ r)).take count
    (0, packLE [(1, have_.length), (1, rs.length), (6, 0)] ++
      rs.flatMap fun r => packLE [(8, r * 2 ^ 44), (8, 2 ^ 44), (8, x.regions.getD r 0), (8, 2 ^ 26), (4, r), (4, 0)], s)) s

/-- GET_DYNAMIC_CAPACITY_EXTENT_LIST (R99): `count` of the active bindings from index `start`, in order of their entries. -/
def execGetDynamicCapacityExtentList (port ld count start : Nat) (s : State) : Host.Outcome State Fault Refusal :=
  .next <| ldMailbox port ld (fun s =>
    let all := activeOf s port ld
    let es := (all.drop start).take count
    (0, packLE [(4, es.length), (4, all.length), (4, s.pga.generation), (4, 0)] ++
      es.flatMap fun p => packLE [(8, p.2.base), (8, p.2.length), (16, p.1), (2, 0), (6, 0)], s)) s

/-- The grants offered to a logical device (R96), by entry number: an empty response rejects the first (log 124, DESIGN CHOICE). -/
def offersOf (s : State) (port ld : Nat) : List (Nat × BookEntry) :=
  s.pga.book.filter fun p => p.2.kind == 2 && p.2.port == port && p.2.ld == ld &&
    (match tfind s.pga.grants p.1 with | some g => g.offered | none => false)

/-- ADD_DYNAMIC_CAPACITY_RESPONSE (R96): the whole of an offered extent is accepted, or with an empty list rejected. -/
def execAddDynamicCapacityResponse (port ld : Nat) (extents : List (Nat × Nat)) (s : State) : Host.Outcome State Fault Refusal :=
  .next <| ldMailbox port ld (fun s =>
    match extents with
    | [] => match offersOf s port ld with
      | (n, _) :: _ => (0, [], failGrant n stRejected s)
      | [] => (0x1E, [], s)
    | _ =>
      let hits := extents.map fun x => (offersOf s port ld).find? fun p => p.2.base == x.1 && p.2.length == x.2
      if hits.any (·.isNone) then (0x1E, [], s)
      else (0, [], each (hits.filterMap fun h => h.map (·.1)) acceptGrant s)) s

/-- RELEASE_DYNAMIC_CAPACITY (R65, R97, R98): a host release is the revoke point of each extent, or Invalid Extent List and nothing. An
unforced revoke that waits for the host completes with the binding. -/
def execReleaseDynamicCapacity (port ld : Nat) (extents : List (Nat × Nat)) (s : State) : Host.Outcome State Fault Refusal :=
  .next <| ldMailbox port ld (fun s =>
    let hits := extents.map fun x => (activeOf s port ld).find? fun p => p.2.base == x.1 && p.2.length == x.2
    if hits.any (·.isNone) then (0x1E, [], s)
    else (0, [], each (ascending (hits.filterMap fun h => h.map (·.1))) (fun n s =>
      revokePoint n (match tfind s.pga.releases n with | some (q, _) => [q] | none => []) s) s)) s

/-- UNSUPPORTED_MAILBOX (R99): every other opcode completes with Unsupported; the FM-owned logical device answers Get LD Info. -/
def execUnsupportedMailbox (port ld opcode : Nat) (s : State) : Host.Outcome State Fault Refusal :=
  .next <| mailbox port ld (fun s =>
    if isFm ld && opcode = 0x5400 then (0, packLE [(8, 0), (2, (portOf s port).ldCount), (1, 0)], s) else (3, [], s)) s

end Sys2Proof.Machine
end

