-- ==== Sys2Proof/Machine/Link.lean ====
section
/-! DEFINITION. The link layer's commands (12): received flits, acknowledgement and replay (R378 to R383), link states (R385 to R389), the
failed-link table and its notices (R346), re-injection (R390) and the acceptance record (R392). -/
namespace Sys2Proof.Machine

/-! ### Failed links and notices (R346) -/

/-- Record a failed link; a full table records nothing (R346). -/
def addFailed (l : Nat) (s : State) : State :=
  if l ∈ s.mar.failed then s
  else if 64 ≤ s.mar.failed.length then raise 0x0402 1 none (packLE [(2, l)]) s
  else { s with mar := { s.mar with failed := s.mar.failed ++ [l] } }

/-- Remove a link from the failed-link table. -/
def dropFailed (l : Nat) (s : State) : State := { s with mar := { s.mar with failed := s.mar.failed.filter (· != l) } }

/-- One FAULT or UP notice to every other node of the populated torus (R346). -/
def sendNotices (l : Nat) (up : Bool) (s : State) : State :=
  each (otherNodes s) (fun c s => sendBypass 0x85 c 0 0 0 (packLE [(2, l), (1, b2n up), (5, 0)]) s) s

/-- Send the notices of a ring link and repeat them every 1 ms for 10 ms; none are sent for the pair link (R346). -/
def announce (port : Nat) (up : Bool) (s : State) : State :=
  if port = 6 then s
  else
    let l := linkName s port
    sendNotices l up { s with mar := { s.mar with
      repeats := s.mar.repeats.filter (·.link != l) ++ [{ link := l, up := up, left := 10, due := s.now + msec 1 }] } }

/-- FAULT_NOTICE_REPEAT (R346): the notices that are due go again. -/
def execFaultNoticeRepeat (s : State) : Host.Outcome State Fault Refusal :=
  .next <|
    let due := s.mar.repeats.filter fun r => decide (r.due ≤ s.now)
    let next := s.mar.repeats.filterMap fun r =>
      if r.due ≤ s.now then (if r.left ≤ 1 then none else some { r with left := r.left - 1, due := r.due + msec 1 }) else some r
    each due (fun r s => sendNotices r.link r.up s) { s with mar := { s.mar with repeats := next } }

/-- FAULT (R346): a notice adds a link to the failed-link table or removes it. The notices of a twin pair have a kind in byte 7: kind 4
carries the VERIFY of a swap (log 63, DESIGN CHOICE). -/
def execFault (p : Packet) (s : State) : Host.Outcome State Fault Refusal :=
  .next <|
    if malformedPacket p then countMalformed s
    else if !isOp p 0x85 then s
    else
      let kind := leAt p.payload 7 1
      let l := leAt p.payload 0 2
      if kind = 4 then { s with twn := { s.twn with verify := true } }
      else if kind != 0 then s
      else if leAt p.payload 2 1 = 1 then dropFailed l s
      else addFailed l s

/-! ### Link down and up (R385, R386) -/

/-- A packet that a failed port still held moves to the transit area; a bypass message is discarded (R345, R349, R386). -/
def displace (p : Packet) (cls : Nat) (expires : Option Nat) (s : State) : State :=
  if opClass p = 2 then setMarStats (fun m => { m with bypassDiscards := m.bypassDiscards + 1 }) s
  else toTransit p cls false expires s

/-- The packets of some flits, each once, in order. -/
def packetsIn : List Sent → List Nat → List (Packet × Nat)
  | [], _ => []
  | x :: xs, seen => if x.pid ∈ seen then packetsIn xs seen else (x.pkt, x.cls) :: packetsIn xs (x.pid :: seen)

/-- Empty a port's queues into the transit area (R349). -/
def clearQueues (port : Nat) (s : State) : State :=
  let x := schedOf s (16 + port)
  let items := x.cls.flatMap fun c => c.2.queue.filterMap fun i => i.pkt.map fun p => (p, c.1)
  let s := setSched (16 + port) { x with cls := x.cls.map fun c => (c.1, { c.2 with queue := [] }) } s
  let held := (s.mar.portWait.filter fun w => w.1 == port).filterMap fun w => w.2.1.pkt.map fun p => (p, w.2.2)
  let s := { s with mar := { s.mar with portWait := s.mar.portWait.filter fun w => w.1 != port } }
  each (items ++ held) (fun p s => displace p.1 p.2 none s) s

/-- The down actions (R386, R390): packets with an unacknowledged byte go to the transit area for half the quarantine, packets not yet sent
follow them, partly received packets are discarded, and the failure is announced. -/
def downActions (port : Nat) (s : State) : State :=
  let l := linkOf s port
  let open_ := packetsIn (l.replay.filter fun x => !isAcked l x) []
  let ids := (l.replay.filter fun x => !isAcked l x).map (·.pid)
  let unsent := packetsIn (l.outq.filter fun x => !decide (x.pid ∈ ids)) []
  let moved := (open_.filter fun p => opClass p.1 != 2).length
  let s := setLink port { l with
    replay := [], outq := [], rx := [], nakPending := false, sendUp := false, recvUp := false, replays := 0
    arrived := l.arrived.map fun a => (a.1, a.2.1, 0)
    stats := bump l.stats 11 1 } s
  let s := { s with lnk := { s.lnk with reinjected := s.lnk.reinjected + moved } }
  let until_ := s.now + msec (rMarTagQuarantine s) / 2
  let s := each open_ (fun p s => displace p.1 p.2 (some until_) s) s
  let s := each unsent (fun p s => displace p.1 p.2 none s) s
  announce port false (addFailed (linkName s port) (clearQueues port s))

/-- A link goes down (R383, R385). -/
def linkDown (port : Nat) (s : State) : State :=
  let s := setLink port { linkOf s port with state := 4, retryDue := s.now + msec (rLnkRetryInterval s) } s
  downActions port s

/-- A link is up once both directions have started (R385, R388): its entry leaves the failed-link table, UP notices leave, and a lead that
was solo may copy to its partner (R422), and purges that wait for the links go out (R111). -/
def linkStarts (port : Nat) (s : State) : State :=
  let l := linkOf s port
  if l.state != 2 || !l.sendUp || !l.recvUp then s
  else
    let s := setLink port { l with state := 3, lastGoodAt := s.now, lastSentAt := s.now, stats := bump l.stats 12 1 } s
    pumpPurges (startDelta (pumpLink 1536 port (announce port true (dropFailed (linkName s port) s))))

/-! ### Received flits (R371, R378, R380, R381) -/

/-- Whether a port takes data and control flits: it is up, or has sent its accept (R388). -/
def takesFlits (l : Link) : Bool := l.state == 3 || (l.state == 2 && l.recvUp)

/-- A flit that is bad (R371, R381): discarded whole and counted, with its uncorrectable codewords (R396), and a NAK is sent where the port
takes flits. -/
def badArrives (port : Nat) (f : Flit) (s : State) : State :=
  let l := linkOf s port
  let s := setLink port { l with stats := bump (bump l.stats 2 1) 3 f.fecBad } s
  if takesFlits l then sendNak port s else s

/-- Whether a port receives flits at all: its link is up or in resync. -/
def hearsFlits (l : Link) : Bool := l.state == 3 || l.state == 2

/-- Replay from U after a NAK or the replay timer (R381 to R383): at the limit without progress the link goes down. -/
def replayFrom (port : Nat) (s : State) : State :=
  let l := linkOf s port
  if unacked l = 0 then s
  else if rLnkReplayLimit s ≤ l.replays then linkDown port s
  else replayFlits port s

/-- What every good flit brings: the link is alive, and its ACK and NAK are applied; a replay goes before anything new (R380, R381). -/
def goodArrives (port : Nat) (f : Flit) (s : State) : State :=
  let s := setLink port { linkOf s port with lastGoodAt := s.now } s
  let s := applyAck port f.ack s
  pumpLink 1536 port (if f.nak then
    let l := linkOf s port
    replayFrom port (setLink port { l with stats := bump l.stats 5 1 } s)
  else s)

/-- DATA_FLIT (R371, R375, R378): a data flit is next, ahead or behind. -/
def execDataFlit (port : Nat) (f : Flit) (s : State) : Host.Outcome State Fault Refusal :=
  .next <|
    if 7 ≤ port || !hearsFlits (linkOf s port) then s
    else if badFlit f then badArrives port f s
    else if f.ftype != 0 || !takesFlits (linkOf s port) then s
    else
      let l := linkOf s port
      let d := (f.seq + 4096 - l.e) % 4096
      let s := if d = 0 then acceptFlit port f s
        else if d < 2048 then sendNak port (setLink port { l with stats := bump l.stats 9 1 } s)
        else sendControl port false (setLink port { l with stats := bump l.stats 8 1 } s)
      goodArrives port f (applyCredit port f.cvc f.credit s)

/-- CONTROL_FLIT (R376, R380, R381): ACK, NAK and all five credit totals. -/
def execControlFlit (port : Nat) (f : Flit) (s : State) : Host.Outcome State Fault Refusal :=
  .next <|
    if 7 ≤ port || !hearsFlits (linkOf s port) then s
    else if badFlit f then badArrives port f s
    else if f.ftype != 1 || !takesFlits (linkOf s port) then s
    else
      let s := each [0, 1, 2, 3, 4] (fun v s => applyCredit port v (leAt f.payload (2 * v) 2) s) s
      goodArrives port f s

/-- ACK_REPORT (R379): a control flit with E, when 16 accepted flits or 200 ns are unreported, or 200 ns have passed without a flit. -/
def execAckReport (port : Nat) (s : State) : Host.Outcome State Fault Refusal :=
  .next <|
    let l := linkOf s port
    if 7 ≤ port || !takesFlits l then s
    else if 16 ≤ l.unreported || (0 < l.unreported && l.unreportedAt + 200 ≤ s.now) || l.lastSentAt + 200 ≤ s.now then
      sendControl port false s
    else s

/-- NAK_RESEND (R381): no next flit has come within `LNK_REPLAY_TIMEOUT`. -/
def execNakResend (port : Nat) (s : State) : Host.Outcome State Fault Refusal :=
  .next <|
    let l := linkOf s port
    if 7 ≤ port || !takesFlits l || !l.nakPending || s.now < l.nakDue then s else sendControl port true s

/-- REPLAY_TIMEOUT (R382, R383): U has not advanced within `LNK_REPLAY_TIMEOUT` after its flit was last sent. -/
def execReplayTimeout (port : Nat) (s : State) : Host.Outcome State Fault Refusal :=
  .next <|
    let l := linkOf s port
    if 7 ≤ port || l.state != 3 then s
    else match l.replay.find? fun x => !isAcked l x with
      | none => s
      | some x =>
        if s.now < x.sentAt + rLnkReplayTimeout s then s
        else replayFrom port (setLink port { l with stats := bump l.stats 6 1 } s)

/-- DEAD_TIME (R383, R385): no good flit for `LNK_DEAD_TIME`, or, with `lockLost`, no lock or signal for so long. -/
def execDeadTime (port : Nat) (lockLost : Bool) (s : State) : Host.Outcome State Fault Refusal :=
  .next <|
    let l := linkOf s port
    if 7 ≤ port then s
    else
      let s := if lockLost then setLink port { l with phyLocked := false } s else s
      if l.state = 3 && (lockLost || l.lastGoodAt + rLnkDeadTime s ≤ s.now) then linkDown port s else s

/-! ### Training and resynchronisation (R385, R387, R388) -/

/-- PHY_TRAINED (R385, R624): what training found of the lanes is kept in the lane map, and offers are sent; a node in recovery holds the
link (R389). -/
def execPhyTrained (port : Nat) (reversed : Bool) (polarity : Nat) (s : State) : Host.Outcome State Fault Refusal :=
  .next <|
    let l := linkOf s port
    if port < 7 && l.state == 1 then
      let l := { l with reversed := reversed, polarity := polarity % 2 ^ 32 }
      if s.rst.recovering then setLink port { l with state := 5, phyLocked := true } s else startResync port (setLink port l s)
    else s

/-- TRAINING_FAILS (R385). -/
def execTrainingFails (port : Nat) (s : State) : Host.Outcome State Fault Refusal :=
  .next <|
    let l := linkOf s port
    if port < 7 && l.state == 1 then
      setLink port { l with state := 4, phyLocked := false, retryDue := s.now + msec (rLnkRetryInterval s) } s
    else s

/-- R338 is not satisfied: the link is miscabled (R385). -/
def miscabled (port : Nat) (s : State) : State :=
  setLink port { linkOf s port with state := 6, retryDue := s.now + msec (rLnkRetryInterval s) } s

/-- An offer is taken in resync: accepted, or the link is miscabled (R385, R388). -/
def takeOffer (port : Nat) (f : Flit) (s : State) : State :=
  if offerFits s port f then linkStarts port (acceptOffer port f s) else miscabled port s

/-- OFFER (R385, R388): what an offer does depends on the link's state. -/
def execOffer (port : Nat) (f : Flit) (s : State) : Host.Outcome State Fault Refusal :=
  .next <|
    let l := linkOf s port
    if 7 ≤ port || s.rst.recovering then s
    else if badFlit f then (if hearsFlits l then badArrives port f s else s)
    else if f.ftype != 2 || leAt f.payload 5 1 != 1 then s
    else if l.state = 2 then takeOffer port f s
    else if l.state = 3 then takeOffer port f (startResync port (linkDown port s))
    else if l.state = 4 && l.phyLocked then
      (if offerFits s port f then takeOffer port f (startResync port s) else miscabled port s)
    else if l.state = 6 && offerFits s port f then takeOffer port f (startResync port s)
    else s

/-- ACCEPT (R388): an accept of the current offer starts the sending stream; on a link that is up it shows that the link lives (R383). -/
def execAccept (port : Nat) (f : Flit) (s : State) : Host.Outcome State Fault Refusal :=
  .next <|
    let l := linkOf s port
    if 7 ≤ port || !hearsFlits l then s
    else if badFlit f then badArrives port f s
    else if f.ftype != 2 || leAt f.payload 5 1 != 2 then s
    else if l.state = 3 then setLink port { l with lastGoodAt := s.now } s
    else if leAt f.payload 6 2 != l.nonce then s
    else linkStarts port (setLink port { l with sendUp := true, u := 0, n := 0 } s)

/-- OFFER_RESEND (R388): every 1 µs until the offer is accepted. -/
def execOfferResend (port : Nat) (s : State) : Host.Outcome State Fault Refusal :=
  .next <|
    let l := linkOf s port
    if 7 ≤ port || l.state != 2 || l.sendUp || s.now < l.offerDue then s else sendOffer port s

/-- LNK_RETRY_INTERVAL (R385): a down or miscabled link sends offers if its PHY is locked, and otherwise trains it again. -/
def execLnkRetryInterval (port : Nat) (s : State) : Host.Outcome State Fault Refusal :=
  .next <|
    let l := linkOf s port
    if 7 ≤ port || s.rst.recovering || !(l.state == 4 || l.state == 6) || s.now < l.retryDue then s
    else if l.phyLocked then startResync port s
    else setLink port { l with state := 1 } s

/-! ### Re-injection and the acceptance record (R390, R392) -/

/-- LNK_REINJECT_EXPIRED (R390): packets not re-injected within half the quarantine are discarded. -/
def execLnkReinjectExpired (s : State) : Host.Outcome State Fault Refusal :=
  .next <|
    let late := fun (t : Transit) => match t.expires with | some e => decide (e ≤ s.now) | none => false
    let gone := (s.mar.transit.filter late).length
    { s with
      mar := { s.mar with transit := s.mar.transit.filter fun t => !late t }
      lnk := { s.lnk with reinjectExpired := s.lnk.reinjectExpired + gone } }

/-- ACCEPTANCE_PASS (R392): VALID is cleared on entries that are not OPEN and more than 512 ms old. -/
def execAcceptancePass (s : State) : Host.Outcome State Fault Refusal :=
  .next <|
    let t := acceptTime s
    let next := s.lnk.accept.filterMap fun p =>
      if bitOf p.2 14 && !bitOf p.2 15 && decide (8000 < (t + 16384 - bits p.2 0 14) % 16384) then
        (if p.2 = 2 ^ 14 then none else some (p.1, p.2 - 2 ^ 14))
      else some p
    { s with lnk := { s.lnk with accept := next } }

/-! ### Ports and coordinates (R336, R385) -/

/-- Whether both ports of a port's dimension stay disabled (R337). -/
def loneRing (s : State) (port : Nat) : Bool := decide (port < 6) && ringSize s (port % 3) == 1

/-- Disable a port: down actions if it is up (R385). -/
def disablePort (port : Nat) (s : State) : State :=
  let up := (linkOf s port).state == 3
  let s := setLink port { linkOf s port with state := 0 } s
  let s := if up then downActions port s else s
  setLink port { linkOf s port with
    phyLocked := false, sendUp := false, recvUp := false, replay := [], outq := [], rx := [] } s

/-- Enable or disable a port (R385). -/
def enablePort (port : Nat) (on : Bool) (s : State) : State :=
  let l := linkOf s port
  if on then (if l.state = 0 && !loneRing s port then setLink port { l with state := 1 } s else s)
  else if l.state = 0 then s else disablePort port s

/-- MAR_PORT_ENABLE (R385): enabling a port trains its PHY, and disabling it takes the link down. -/
def execMarPortEnable (q : Ask) (port value : Nat) (s : State) : Host.Outcome State Fault Refusal :=
  .next <| ask q 1 0x100002 true (fun _ s =>
    if 7 ≤ port || 1 < value then finish q 0x100002 stBadValue [] s
    else
      let old := rMarPortEnable s
      let new := if value = 1 then setBit old port else clearBit old port
      storeLater q 0x100002 0 new [] (enablePort port (value == 1) (setReg 0x100002 0 new s))) s

/-- Whether every ring port is disabled (R336). -/
def ringsOff (s : State) : Bool := rMarPortEnable s % 64 == 0

/-- MAR_NODE_COORD (R336): refused with BUSY unless every ring port is disabled. -/
def execMarNodeCoord (q : Ask) (value : Nat) (s : State) : Host.Outcome State Fault Refusal :=
  .next <| ask q 1 0x100000 true (fun _ s =>
    if 4095 < value then finish q 0x100000 stBadValue [] s
    else if !ringsOff s then finish q 0x100000 stBusy [] s
    else storeLater q 0x100000 0 value [] (noteCritical 0x100000 value (setReg 0x100000 0 value s))) s

/-- MAR_RING_SIZE (R336): refused with BUSY unless every ring port is disabled. -/
def execMarRingSize (q : Ask) (value : Nat) (s : State) : Host.Outcome State Fault Refusal :=
  .next <| ask q 1 0x100001 true (fun _ s =>
    if 4095 < value then finish q 0x100001 stBadValue [] s
    else if !ringsOff s then finish q 0x100001 stBusy [] s
    else storeLater q 0x100001 0 value [] (noteCritical 0x100001 value (setReg 0x100001 0 value s))) s

/-- MAR_ROUTE (R350, R351): the entry that `MAR_ROUTE_SELECT` names; KIND 2 for a destination that is not the partner is refused, and
reserved bits are ignored (R8). -/
def execMarRoute (q : Ask) (value : Nat) (s : State) : Host.Outcome State Fault Refusal :=
  .next <| ask q 1 0x101001 true (fun x s =>
    let c := selectOf x 0x101000 0 % 4096
    let v := value % 2 ^ 18
    if bits v 1 2 = 2 && c != rMarPairPartner s then finish q 0x101001 stBadValue [] s
    else storeLater q 0x101001 c v [] { s with mar := { s.mar with route := tput s.mar.route c v } }) s

/-- MAR_ROUTE_RESET (R351): every routing entry returns to its default, and so do the stored ones. -/
def execMarRouteReset (q : Ask) (value : Nat) (s : State) : Host.Outcome State Fault Refusal :=
  .next <| ask q 1 0x101002 true (fun _ s =>
    if value != 1 then finish q 0x101002 stBadValue [] s
    else finish q 0x101002 stOk [] { s with
      mar := { s.mar with route := [], routeSize := rMarRingSize s }
      store := s.store.filter fun p => p.1 % 2 ^ 24 != 0x101001 }) s

end Sys2Proof.Machine
end

