-- ==== Sys2Proof/Machine/Fabric.lean ====
section
/-! DEFINITION. The fabric's packets (11): routing and transit (R341, R348, R352), tags (R360, R588), requests at their home (R355, R356,
R361), and responses with the compare of twins (R393, R413 to R415). -/
namespace Sys2Proof.Machine

/-! ### Routing (R341 to R352) -/

/-- Whether a request is for a home of this node: not a recall of a holder here, nor the notice of a rebind (R344). -/
def forHome (p : Packet) : Bool := opClass p == 0 && p.opcode != 0x0A && !(p.opcode == 0x0B && bits p.aux 0 8 == 3)

/-- Whether an arrived packet has to wait on its link (R344, R348, R411): the transit area is full and it would go there, or it is a
request for a home of this node and their ejection has stopped. -/
def waitsOnLink (s : State) (p : Packet) (h : Hop) : Bool :=
  match h with
  | .down _ => opClass p != 2 && (transitFull s || !s.mar.transitWait.isEmpty)
  | .waypoint => transitFull s || !s.mar.transitWait.isEmpty
  | .eject => forHome p && (s.mar.spillFull || (storeFull s && (twinRange s (pgaDpa p.pga)).isSome))
  | _ => false

/-- Route the first arrived packet of its VC on a port, if it is `p`, and free its buffers (R341, R356, R375). -/
def routeArrived (port : Nat) (p : Packet) (s : State) : State :=
  let l := linkOf s port
  match l.arrived.find? fun a => a.1 == p with
  | none => s
  | some a =>
    let first := (l.arrived.find? fun b => b.2.1 == a.2.1).map (·.1)
    let arr := if port = 6 then none else some (port % 3)
    if first != some p then s
    else if malformedPacket p then
      countMalformed (freeBuffers port a.2.1 a.2.2 (setLink port { l with arrived := l.arrived.erase a } s))
    else if waitsOnLink s p (routeHop s p arr false false) then s
    else
      let s := freeBuffers port a.2.1 a.2.2 (setLink port { l with arrived := l.arrived.erase a } s)
      routeFrom p (packetClass p) arr false false false s

/-- PACKET_ROUTE (R341): a packet that has arrived on a port, or one that is injected here, is ejected, placed in transit, discarded or sent
on. `upset` is an error met on the way (R594, log 74, DESIGN CHOICE). -/
def execPacketRoute (port : Option Nat) (p : Packet) (upset : Nat) (s : State) : Host.Outcome State Fault Refusal :=
  .next <|
    let s := structureUpset upset none s
    match port with
    | some k => if 7 ≤ k then s else routeArrived k p s
    | none => if malformedPacket p then countMalformed s else inject p (packetClass p) s

/-- TRANSIT_REINJECT (R348, R352): the oldest packet in transit that has not expired starts a new route; at its waypoint its source is told. -/
def execTransitReinject (s : State) : Host.Outcome State Fault Refusal :=
  .next <|
    match s.mar.transit.find? (transitLive s) with
    | none => s
    | some t => leaveTransit t s

/-- TRANSIT_ACK (R352): a waypoint's acknowledgement frees a place, and a packet that waits for that waypoint leaves. -/
def execTransitAck (p : Packet) (s : State) : Host.Outcome State Fault Refusal :=
  .next <|
    if malformedPacket p then countMalformed s
    else if !isOp p 0x8B then s
    else
      let s := { s with mar := { s.mar with firstLeg := s.mar.firstLeg.erase (p.src, p.tag) } }
      match s.mar.legWait.find? fun w => bits (routeEntry s w.1.dest) 6 12 == p.src with
      | some w =>
        routeFrom w.1 w.2 none true false false
          (transitFirst (leavesOn s w.1 false) (opClass w.1) { s with mar := { s.mar with legWait := s.mar.legWait.erase w } })
      | none => s

/-- Whether a spilled packet can leave: its VC has a credit and its port's queue a place, or it has nowhere to go (R344). -/
def spillReady (s : State) (w : Packet × Nat) : Bool :=
  match routeHop s w.1 none true false with
  | .send port q _ => decide (0 < creditsOf (linkOf s port) (vcOf q)) && !queueFull s (16 + port) w.2
  | _ => true

/-- SPILL_SEND (R344): the oldest request in the spill queue whose VC has a credit leaves; ejection resumes below half. -/
def execSpillSend (s : State) : Host.Outcome State Fault Refusal :=
  .next <|
    match s.mar.spill.find? (spillReady s) with
    | none => s
    | some w =>
      let s := routeFrom w.1 w.2 none true false false
        (transitFirst (leavesOn s w.1 false) 0 { s with mar := { s.mar with spill := s.mar.spill.erase w } })
      if spillBytes s * 2 < spillSize then { s with mar := { s.mar with spillFull := false } } else s

/-! ### Tags (R360, R361) -/

/-- TAG_ALLOCATE (R360): the oldest waiting request for which a tag is free takes it; a generated one takes a reserved tag (R344). -/
def execTagAllocate (s : State) : Host.Outcome State Fault Refusal :=
  .next <|
    match s.mar.waiting.find? fun w => (freeTag s w.gen).isSome with
    | none => s
    | some w => match freeTag s w.gen with
      | some t => launch t w.pkt w.use w.npk w.cls w.gen { s with mar := { s.mar with waiting := s.mar.waiting.erase w } }
      | none => s

/-- TAG_QUARANTINE_END (R360): the quarantine of a freed tag has passed. -/
def execTagQuarantineEnd (tag : Nat) (s : State) : Host.Outcome State Fault Refusal :=
  .next <| match tfind s.mar.tags tag with
  | some r => if r.isOpen || r.held || s.now < r.due then s else { s with mar := { s.mar with tags := tdel s.mar.tags tag } }
  | none => s

/-- CHUNK_WRITE_DISCARD (R361, R392): an incomplete operation is discarded after `CLE_LOST_TIMEOUT`. -/
def execChunkWriteDiscard (src tag : Nat) (s : State) : Host.Outcome State Fault Refusal :=
  .next <| match tfind s.mar.chunks (src * 65536 + tag) with
  | some x =>
    if s.now < x.due then s
    else acceptClosed src tag { s with mar := { s.mar with chunks := tdel s.mar.chunks (src * 65536 + tag) } }
  | none => s

/-! ### Requests at their home (R44, R356, R404) -/

/-- A memory request packet at its home: new ones only (R392), held by a follower (R409), else served. -/
def servePacket (op : Nat) (p : Packet) (s : State) : State :=
  if isOp p op then
    settle (accepting p (twinned p (arriveRequest (requestOf p))) s)
  else s

/-- READ (R116, R355, R356): by its kind. -/
def execRead (p : Packet) (s : State) : Host.Outcome State Fault Refusal := .next <| servePacket 0x01 p s

/-- WRITE (R116, R355, R356): applied with its byte enables. -/
def execWrite (p : Packet) (s : State) : Host.Outcome State Fault Refusal := .next <| servePacket 0x02 p s

/-- CLEAN_EVICT (R116, R119): the holder is removed. -/
def execCleanEvict (p : Packet) (s : State) : Host.Outcome State Fault Refusal := .next <| servePacket 0x04 p s

/-- ATOMIC (R291, R292): one element is changed at its home. -/
def execAtomic (p : Packet) (s : State) : Host.Outcome State Fault Refusal := .next <| servePacket 0x05 p s

/-- APPEND (R178, R293): an append on a log header at its home. -/
def execAppend (p : Packet) (s : State) : Host.Outcome State Fault Refusal := .next <| servePacket 0x06 p s

/-- COMMIT (R167, R294): a home's part of a commit. -/
def execCommit (p : Packet) (s : State) : Host.Outcome State Fault Refusal :=
  .next <|
    if isOp p 0x07 then
      settle (accepting p (twinned p fun s =>
        commitHere (.nodeEngine p.src p.tag) (pgaDpa p.pga) (leAt p.payload 0 8) p.partition (bitOf (leAt p.payload 8 8) 0) p.twin
          (stampOther p s)) s)
    else s

/-- STAGE (R174): a stage request is answered STAGED, DROPPED or REFUSED, at once or when its fill has ended. -/
def execStage (p : Packet) (s : State) : Host.Outcome State Fault Refusal :=
  .next <| if isOp p 0x09 then accepting p (twinned p fun s => stageFrom p true (stampOther p s)) s else s

/-- UNREFERENCE (R65, R66): REFS falls by one, and at zero the range is free. -/
def execUnreference (p : Packet) (s : State) : Host.Outcome State Fault Refusal :=
  .next <| if isManage p 2 then settle (accepting p (twinned p fun s => manageHere p true (stampOther p s)) s) else s

/-- WINDOW_BIND (R311): a window's home takes one more binder and answers the range's length. -/
def execWindowBind (p : Packet) (s : State) : Host.Outcome State Fault Refusal :=
  .next <| if isManage p 4 then accepting p (twinned p fun s => manageHere p true (stampOther p s)) s else s

/-- The stretches that the packets of a chunk write spell together: packets of one PGA continue one another (R361). -/
def stretchesOf : List Packet → List (Nat × Nat × Bytes)
  | [] => []
  | p :: ps =>
    match stretchesOf ps with
    | (a, m, b) :: l => if a = p.pga && m = p.mval then (a, m, p.payload ++ b) :: l else (p.pga, p.mval, p.payload) :: (a, m, b) :: l
    | [] => [(p.pga, p.mval, p.payload)]

/-- A chunk write put together from its packets (R297, R361). -/
def joinedChunk (ps : List Packet) : Packet :=
  let l := stretchesOf ps
  { (ps.headD {}) with payload := (l.headD (0, 0, [])).2.2, more := l.drop 1 }

/-- The request that all packets of a chunk write spell together (R361); of a block that a migration copies, with the poison map of its
lines (R74, log 59, DESIGN CHOICE). -/
def wholeChunk (s : State) (ps : List Packet) : MReq :=
  let p := joinedChunk ps
  let data := p.payload
  let granting := match homeAt s (pgaDpa p.pga) with | some (_, h) => h.state == 1 | none => false
  if granting && data.length == 65536 then
    { kind := .engineWrite, who := .nodeEngine p.src p.tag, dpa := pgaDpa p.pga, lines := 1024, part := p.partition, data := data
      be := 0, op := 6, aux := packBits (ps.map fun q => (16, q.host)) }
  else requestOf p

/-- CHUNK_WRITE (R297, R361): packets join their operation, and the whole is applied when every index has come; a resilver unit's 33 packets,
of which one is a RESILVER_META, wait for their event (R425). -/
def execChunkWrite (p : Packet) (s : State) : Host.Outcome State Fault Refusal :=
  .next <|
    if !isOp p 0x03 then s
    else settle (accepting p (fun s => joinOp p (bits p.aux 0 6) (bits p.aux 6 6 + 1) (fun ps s =>
      let r := wholeChunk s ps
      if ps.any fun q => q.opcode == 0x0B then unitArrived p.tag ps s
      else if r.op = 6 then homeRequest r s
      else twinned (joinedChunk ps) (arriveRequest r) s) s) s)

/-- COUNT (R356): a completion-count update: the U64 it carries is added to the U64 at its PGA, as an engine's atomic add that is not
answered (log 77, DEDUCED). -/
def execCount (p : Packet) (s : State) : Host.Outcome State Fault Refusal :=
  .next <|
    if malformedPacket p then countMalformed s
    else if !isOp p 0x83 then s
    else
      settle (arriveRequest { kind := .engineWrite, who := .nodeEngine p.src p.tag, dpa := pgaDpa p.pga, part := p.partition, noRsp := true
                              data := atomicBody 0x08 15 (leAt p.payload 0 8) 0, op := 1 } s)

/-- KEEPALIVE (R299): the operation that the tag names is renewed. -/
def execKeepalive (p : Packet) (s : State) : Host.Outcome State Fault Refusal :=
  .next <|
    if malformedPacket p then countMalformed s
    else if !isOp p 0x88 then s
    else match openTagOf s p.tag with
    | some r =>
      match r.use with
      | .mem m => match m.who with
        | .engine ref => if clerkKind ref.kind then renewAccess ref.a s else s
        | _ => s
      | .commit ref => renewAccess ref.a s
      | _ => s
    | none => s

/-! ### Responses (R360, R393) -/

/-- The binding of the request a tag was taken for. -/
def useBinding (s : State) (u : TagUse) : Option Nat :=
  match u with
  | .mem m => match m.who with
    | .host id => (tfind s.cxl.reqs id).bind (·.bind)
    | .engine ref => if clerkKind ref.kind then (tfind s.cle.access ref.a).map (·.bind) else none
    | _ => none
  | .commit ref => (tfind s.cle.access ref.a).map (·.bind)
  | .contrib home seq _ => (s.win.out.find? (contribKey home seq)).map (·.bind)
  | _ => none

/-- The ingress node learns that a binding's range is twinned from the response of the lead (R404, R413). -/
def learnPartner (u : TagUse) (p : Packet) (s : State) : State :=
  if bits p.aux 14 2 = 0 then s
  else match useBinding s u with
    | some n => match tfind s.pga.book n with
      | some e => setBook n { e with partner := some (bits p.aux 16 12) } s
      | none => s
    | none => s

/-- The status, in the codes of R553, of a MANAGE operation that was answered without its payload. -/
def manageStatus (p : Packet) : Nat :=
  if p.status = 0 then leAt p.payload 0 2 else if p.status = 6 then stUnreachable else stAccess

/-- Use a response for what its tag was taken for (R40, R57, R63, R65, R74, R111, R174, R294, R311, R323, R425). -/
def useResponse (r : TagRec) (p : Packet) (s : State) : State :=
  let rsp : MRsp := { status := p.status, granted := bits p.aux 12 2, data := p.payload, wgen := p.wgen, role := bits p.aux 14 2 }
  match r.use with
  | .mem m => match m.who with
    | .host id => hostAnswer id rsp s
    | .engine ref => deliver ref rsp s
    | _ => s
  | .reserve n i => reserveAnswered n i r.dest (manageStatus p) (leAt p.payload 8 8) s
  | .windowBind n => bindAnswered n r.dest (pgaDpa r.pga) (manageStatus p) (leAt p.payload 8 8) s
  | .revokeRecall n home => if p.status = 0 then revokeAnswered n home s else s
  | .migrateReserve n => migrateReserved n (manageStatus p) (leAt p.payload 8 8) s
  | .migrateData n b => if p.status = 0 then migrateCopied n b s else migrationLost n (manageStatus p) s
  | .handover n => if p.status = 0 then migrateHandedOver n s else migrationLost n (manageStatus p) s
  | .purge port home => if p.status = 0 then purgeAnswered port home s else s
  | .stage stream b line => stageAnswered stream b line p.status s
  | .contrib home seq _ => contribDone home seq rsp s
  | .resilver n u => unitDone n u s
  | .commit ref | .atomic ref | .chunk ref => deliver ref rsp s
  | _ => s

/-- The acknowledgement of R124, to the responder of a memory request; to each twin whose response is consumed (R412). -/
def acknowledge (t : Nat) (r : TagRec) (p : Packet) (s : State) : State :=
  match r.use with
  | .mem _ => sendBypass 0x81 p.src t p.pga 0 [] s
  | _ => s

/-! ### Twinned responses (R414, R415) -/

/-- One byte of CRC-64 with the polynomial of R414, most significant bit first, starting from 0 (log 78, PRESUMED). -/
def crc64Byte (c : Nat) (b : Byte) : Nat :=
  (List.range 8).foldl (fun c _ =>
    let d := c * 2 % 2 ^ 64
    if c / 2 ^ 63 = 1 then Nat.xor d 0x42F0E1EBA9EA3693 else d) (Nat.xor c (b.toNat * 2 ^ 56))

/-- The digest of a response (R414): STATUS, bits 13:12 of AUX and the payload. -/
def digestOf (p : Packet) : Nat :=
  (packLE [(1, p.status), (1, bits p.aux 12 2)] ++ p.payload).foldl crc64Byte 0

/-- A divergence record (R415): kind 0 mismatch, 1 two leads, 2 second missing; a twin counts it in the range's record (R401). -/
def divergence (t : Nat) (r : TagRec) (kind : Nat) (a : Packet) (da : Nat) (b : Option (Packet × Nat)) (s : State) : State :=
  let x : Packet × Nat := b.getD ({}, 0)
  let rec_ := packLE [(8, s.now), (8, r.pga), (8, packBits [(12, a.src), (12, x.1.src), (16, t), (2, kind)]), (8, da), (8, x.2), (1, a.status),
    (1, x.1.status), (2, bits a.aux 28 16), (2, bits x.1.aux 28 16), (2, 0)]
  let s := match homeAt s (pgaDpa r.pga) with
    | some (n, _) => if pgaCoord r.pga = hereAt s || pgaCoord r.pga = rMarPairPartner s then
        match twinOf s n with | some t => setTwin n { t with divergences := t.divergences + 1 } s | none => s else s
    | none => s
  raise 0x2C01 2 none rec_ (twnCount 5 1 { s with twn := { s.twn with lastDiv := rec_ } })

/-- The tag's operation is over: its last response is used and the tag freed (R360). -/
def closeTag (t : Nat) (s : State) : State := freeTagNow t s

/-- Keep a first response of a twinned request. -/
def keepFirst (t : Nat) (x : TwinRsp) (s : State) : State :=
  { s with mar := { s.mar with tags := tmod s.mar.tags t fun r => { r with twin := some x } } }

/-- A whole response of one twin has arrived (R414). A ROLE 0 response is no first and no second: one that came first is held until
`TWN_SECOND_TIMEOUT`, and gives way to a response of a twin; one that comes later is discarded. -/
def twinResponse (t : Nat) (r : TagRec) (p : Packet) (s : State) : State :=
  let role := bits p.aux 14 2
  let dg := digestOf p
  let strict := rTwnCompare s == 1
  let first := match r.twin with | some x => if bits x.pkt.aux 14 2 = 0 then none else some x | none => none
  match first with
  | none =>
    let x : TwinRsp := { pkt := p, digest := dg, due := s.now + usec (rTwnSecondTimeout s), windowDue := s.now + rTwnCompareWindow s }
    if role = 0 && r.twin.isSome then s
    else if role = 0 || strict then keepFirst t x s
    else keepFirst t { x with passed := true } (useResponse r p s)
  | some x =>
    let role1 := bits x.pkt.aux 14 2
    if role = 0 then s
    else
      let twoLeads := (role == 3 && role1 == 3) || bits p.aux 28 16 != bits x.pkt.aux 28 16
      let s := if twoLeads then divergence t r 1 x.pkt x.digest (some (p, dg)) s
        else if dg != x.digest then divergence t r 0 x.pkt x.digest (some (p, dg)) s else s
      let lead := if role1 = 1 || (role1 = 3 && role != 1) then x.pkt else p
      let out := if dg != x.digest && lead.opcode == 0x41 then { lead with status := 2 } else lead
      closeTag t (if x.passed then s else useResponse r out s)

/-- The payloads that one responder has sent, by index, if all have come. -/
def wholeFrom (r : TagRec) (src : Nat) : Option Bytes :=
  let mine := r.data.filter fun d => d.1 / 64 == src
  if mine.length < r.npk then none else some (mine.flatMap (·.2))

/-- Whether a DONE of a MANAGE operation carries a payload that R358 does not give it, or a reserved byte of it that is not 0 (R9). -/
def doneBad (r : TagRec) (p : Packet) : Bool :=
  match r.use with
  | .reserve _ _ | .windowBind _ | .migrateReserve _ =>
    !p.payload.isEmpty && (p.payload.length != 16 || leAt p.payload 2 6 != 0)
  | .unref | .revokeRecall _ _ | .rebind | .handover _ | .migrateRelease | .purge _ _ => !p.payload.isEmpty
  | _ => false

/-- A response to a request that has timed out ends the hold of its tag and is discarded (R588), but for the late answer to a RESERVE,
which is used: the range it reserved is unreferenced where its grant has failed (R58). -/
def lateResponse (r : TagRec) (p : Packet) (s : State) : State :=
  let s := freeTagNow p.tag s
  match r.use with
  | .reserve _ _ => if p.src = r.dest then useResponse r p s else countStray s
  | _ => countStray s

/-- DATA or DONE at the node that took its tag (R360, R361, R393): a stray is discarded and counted; a whole response is acknowledged and
used. -/
def responseArrives (p : Packet) (s : State) : State :=
  if malformedPacket p then countMalformed s
  else match tfind s.mar.tags p.tag with
  | none => countStray s
  | some r =>
    let idx := bits p.aux 0 6
    if doneBad r p then countMalformed s
    else if r.held then lateResponse r p s
    else if !r.isOpen || (p.src, idx) ∈ r.got then countStray s
    else match r.use with
    | .recallOp _ => countStray s
    | _ =>
      let r := { r with got := (p.src, idx) :: r.got, data := if p.opcode = 0x41 then tput r.data (p.src * 64 + idx) p.payload else r.data }
      let s := { s with mar := { s.mar with tags := tput s.mar.tags p.tag r } }
      let whole := if p.opcode = 0x41 then wholeFrom r p.src else some p.payload
      match whole with
      | none => s
      | some b =>
        let q := { p with payload := b }
        let s := acknowledge p.tag r p s
        if r.twinned then twinResponse p.tag r q s
        else closeTag p.tag (useResponse r q (learnPartner r.use p s))

/-- DATA (R360, R393). -/
def execData (p : Packet) (s : State) : Host.Outcome State Fault Refusal :=
  .next <| if isOp p 0x41 then settle (responseArrives p s) else s

/-- DONE (R360, R393). -/
def execDone (p : Packet) (s : State) : Host.Outcome State Fault Refusal :=
  .next <| if isOp p 0x42 then settle (responseArrives p s) else s

/-- SECOND_TIMEOUT (R403, R414): no second response has come: a response still held is passed on, second missing is counted and, at most
once a second, recorded, and the tag is freed; under late compare a response of ROLE 3 awaits no second (log 113, DEDUCED). -/
def execSecondTimeout (tag : Nat) (s : State) : Host.Outcome State Fault Refusal :=
  .next <| match openTagOf s tag with
  | none => s
  | some r =>
    match r.twin with
    | none => s
    | some x =>
      if s.now < x.due then s
      else
        let s := if x.passed then s else useResponse r x.pkt s
        let role := bits x.pkt.aux 14 2
        let missing := role != 0 && !(role == 3 && rTwnCompare s == 0)
        let s := if missing then twnCount 6 1 s else s
        let s := if missing && (s.twn.lastMissing = 0 || s.twn.lastMissing + 1000000000 ≤ s.now) then
            divergence tag r 2 x.pkt x.digest none { s with twn := { s.twn with lastMissing := s.now } }
          else s
        settle (closeTag tag s)

/-- COMPARE_WINDOW_EXPIRY (R414): under strict compare a held response is passed on when `TWN_COMPARE_WINDOW` expires. -/
def execCompareWindowExpiry (tag : Nat) (s : State) : Host.Outcome State Fault Refusal :=
  .next <| match openTagOf s tag with
  | none => s
  | some r =>
    match r.twin with
    | none => s
    | some x =>
      if x.passed || bits x.pkt.aux 14 2 = 0 || s.now < x.windowDue || rTwnCompare s != 1 then s
      else settle (useResponse r x.pkt (keepFirst tag { x with passed := true } s))

/-! ### Timeouts of requests (R588) -/

/-- Whether a tag's operation ends by R588: a chunk write or home operation ends by R299 instead, a contribution by R325, a recall by R133. -/
def endsByTimeout (s : State) (u : TagUse) : Bool :=
  match u with
  | .mem m => match m.who with
    | .engine ref => !(m.kind == .engineWrite && clerkKind ref.kind) || (tfind s.cle.access ref.a).isNone
    | _ => true
  | .commit ref | .atomic ref | .chunk ref => (tfind s.cle.access ref.a).isNone
  | .recallOp _ | .contrib _ _ _ => false
  | _ => true

/-- What a request that is never answered comes to (R588): poison, an error record or ACCESS; a migration fails. -/
def timeoutUse (r : TagRec) (s : State) : State :=
  match r.use with
  | .mem _ => useResponse r { status := 1 } s
  | .stage stream b line => stageAnswered stream b line 6 s
  | .migrateReserve n => migrationLost n stTimeout s
  | .migrateData n _ => migrationLost n stTimeout s
  | .handover n => migrationLost n stTimeout s
  | .resilver n u => unitLost n u s
  | _ => s

/-- REQUEST_TIMEOUT (R588): a remote request has had no response for 8 × `LDG_TIMEOUT`; its tag stays allocated as long again. -/
def execRequestTimeout (tag : Nat) (s : State) : Host.Outcome State Fault Refusal :=
  .next <| match openTagOf s tag with
  | none => s
  | some r =>
    if s.now < r.due || r.twin.isSome || !endsByTimeout s r.use then s
    else
      let s := { s with mar := { s.mar with tags := tput s.mar.tags tag { r with isOpen := false, held := true, due := s.now + pathTimeout s } } }
      settle (timeoutUse r s)

/-- TAG_HOLD_EXPIRY (R588): a further 8 × `LDG_TIMEOUT` has passed, and the tag enters the quarantine. -/
def execTagHoldExpiry (tag : Nat) (s : State) : Host.Outcome State Fault Refusal :=
  .next <| match tfind s.mar.tags tag with
  | some r => if r.held && decide (r.due ≤ s.now) then freeTagNow tag s else s
  | none => s

end Sys2Proof.Machine
end

