-- ==== Sys2Proof/Machine/Admission.lean ====
section
/-! DEFINITION. Admission to a confidential host (15): SPDM, IDE key management and TDISP of a logical device (R472 to R477). Error codes are
those of SPDM, and of TDISP from 0x10000 on; payloads follow log 79, PRESUMED. -/
namespace Sys2Proof.Machine

/-! ### SPDM (R472, R473) -/

/-- The bytes that one DOE response carries (log 79, PRESUMED); a longer one is read with CHUNK_GET. -/
def doeMost : Nat := 1024

def setSpdm (k : Nat) (x : Spdm) (s : State) : State := setTdi k { tdiOf s k with spdm := x } s

/-- Answer a request: a large response is announced and kept for CHUNK_GET (R472). -/
def spdmReply (port ld code : Nat) (payload : Bytes) (s : State) : State :=
  let k := ldKey port ld
  if payload.length ≤ doeMost then emit (.spdm port ld code payload) s
  else
    let s := setSpdm k { (tdiOf s k).spdm with large := payload, largeSeq := 0 } s
    emit (.spdm port ld 0x0F (toLE 4 payload.length)) s

/-- Receive an SPDM request on a logical device that is up: Busy while the root-of-trust core restarts (R560), UnexpectedRequest when it comes
out of order (R473). -/
def spdm (port ld : Nat) (ready : Spdm → Bool) (act : Spdm → State → State) (s : State) : State :=
  if !ldUp s port ld then s
  else if s.fw.rotBusy.isSome then emit (.spdm port ld 0x03 []) s
  else
    let x := (tdiOf s (ldKey port ld)).spdm
    if ready x then act x s else emit (.spdm port ld 0x04 []) s

/-- GET_VERSION (R472): versions 1.2 and 1.3; the negotiation starts again. -/
def execGetVersion (port ld : Nat) (s : State) : Host.Outcome State Fault Refusal :=
  .next <| spdm port ld (fun _ => true) (fun x s =>
    spdmReply port ld 0 (packLE [(1, 2), (2, 0x1200), (2, 0x1300)]) (setSpdm (ldKey port ld) { x with stage := 1 } s)) s

/-- GET_CAPABILITIES (R472): certificates, challenge, signed measurements, secured sessions with key update and heartbeat, and chunks. -/
def execGetCapabilities (port ld : Nat) (s : State) : Host.Outcome State Fault Refusal :=
  .next <| spdm port ld (fun x => x.stage == 1) (fun x s =>
    spdmReply port ld 0 (toLE 4 ([1, 2, 4, 6, 7, 9, 13, 14, 17].foldl setBit 0)) (setSpdm (ldKey port ld) { x with stage := 2 } s)) s

/-- NEGOTIATE_ALGORITHMS (R472): RSASSA_4096, SHA_512, secp384r1 and AES-256-GCM. -/
def execNegotiateAlgorithms (port ld : Nat) (s : State) : Host.Outcome State Fault Refusal :=
  .next <| spdm port ld (fun x => x.stage == 2) (fun x s =>
    spdmReply port ld 0 (packLE [(4, 0x20), (4, 4), (4, 8), (2, 0x10), (2, 2)]) (setSpdm (ldKey port ld) { x with stage := 3 } s)) s

/-- The certificate chain (R477): its bytes and length are the part's own (log 5, DESIGN CHOICE). -/
def certChain : Bytes := toLE (Config.digest 5 0 % 65536) (Config.digest 4 0)

/-- GET_DIGESTS (R472): slot 0 only. -/
def execGetDigests (port ld : Nat) (s : State) : Host.Outcome State Fault Refusal :=
  .next <| spdm port ld (fun x => decide (3 ≤ x.stage)) (fun _ s =>
    spdmReply port ld 0 ([1] ++ toLE 64 (Config.digest 6 0)) s) s

/-- GET_CERTIFICATE (R477): a part of the slot 0 chain and how much remains. -/
def execGetCertificate (port ld offset length : Nat) (s : State) : Host.Outcome State Fault Refusal :=
  .next <| spdm port ld (fun x => decide (3 ≤ x.stage)) (fun _ s =>
    if certChain.length < offset then emit (.spdm port ld 0x01 []) s
    else
      let b := (certChain.drop offset).take length
      spdmReply port ld 0 (packLE [(2, b.length), (2, certChain.length - offset - b.length)] ++ b) s) s

/-- CHALLENGE (R473, t1): the device signs with its identity key. -/
def execChallenge (port ld slot : Nat) (nonce : Bytes) (s : State) : Host.Outcome State Fault Refusal :=
  .next <| spdm port ld (fun x => decide (3 ≤ x.stage)) (fun x s =>
    if slot != 0 then emit (.spdm port ld 0x01 []) s
    else spdmReply port ld 0 (toLE 32 (draw s) ++ signature nonce) (setSpdm (ldKey port ld) { x with stage := 4 } (drawn s))) s

/-- The Tarnason block (R473, t2): node coordinates and the logical device's partition. -/
def tarnasonBlock (s : State) (port ld : Nat) : Bytes := packLE [(2, hereAt s), (1, (tdiOf s (ldKey port ld)).part)]

/-- GET_MEASUREMENTS (R473 t2, R559): index 0 the number of blocks, 1 to 5 one measurement, 6 the Tarnason block, 255 all; signed. -/
def execGetMeasurements (port ld index : Nat) (nonce : Bytes) (s : State) : Host.Outcome State Fault Refusal :=
  .next <| spdm port ld (fun x => x.stage == 4) (fun _ s =>
    let body := if index = 0 then [6]
      else if index ≤ 5 then measurement s index
      else if index = 6 then tarnasonBlock s port ld
      else [1, 2, 3, 4, 5].flatMap (measurement s) ++ tarnasonBlock s port ld
    if 6 < index && index != 255 then emit (.spdm port ld 0x01 []) s
    else spdmReply port ld 0 (body ++ signature (nonce ++ body)) s) s

/-- KEY_EXCHANGE (R473 t3, R480): a session is opened, or refused at the limit of two. -/
def execKeyExchange (port ld : Nat) (random : Bytes) (s : State) : Host.Outcome State Fault Refusal :=
  .next <| spdm port ld (fun x => x.stage == 4) (fun x s =>
    if 2 ≤ x.sessions.length then emit (.spdm port ld 0x0A []) s
    else
      let y := { x with sessions := tput x.sessions x.nextSession 1, nextSession := x.nextSession + 1 }
      spdmReply port ld 0 (toLE 4 x.nextSession ++ toLE 32 (draw s) ++ signature random) (setSpdm (ldKey port ld) y (drawn s))) s

/-- FINISH (R473, t3): the handshake of a session ends. -/
def execFinish (port ld session : Nat) (s : State) : Host.Outcome State Fault Refusal :=
  .next <| spdm port ld (fun _ => true) (fun x s =>
    match tfind x.sessions session with
    | some 1 => spdmReply port ld 0 [] (setSpdm (ldKey port ld) { x with sessions := tput x.sessions session 2 } s)
    | some _ => emit (.spdm port ld 0x04 []) s
    | none => emit (.spdm port ld 0x02 []) s) s

/-- A request inside a secured session: InvalidSession where it does not exist, UnexpectedRequest before its handshake has ended. -/
def inSession (port ld session : Nat) (act : Spdm → State → State) (s : State) : State :=
  spdm port ld (fun _ => true) (fun x s =>
    match tfind x.sessions session with
    | some 2 => act x s
    | some _ => emit (.spdm port ld 0x04 []) s
    | none => emit (.spdm port ld 0x02 []) s) s

/-- KEY_UPDATE (R472): operation 1 updates one direction, 2 both, 3 verifies. -/
def execKeyUpdate (port ld session op : Nat) (s : State) : Host.Outcome State Fault Refusal :=
  .next <| inSession port ld session (fun x s =>
    if op = 0 || 3 < op then emit (.spdm port ld 0x01 []) s
    else spdmReply port ld 0 [] (if op = 3 then s else setSpdm (ldKey port ld) { x with updates := x.updates + 1 } s)) s

/-- SPDM_HEARTBEAT (R472). -/
def execSpdmHeartbeat (port ld session : Nat) (s : State) : Host.Outcome State Fault Refusal :=
  .next <| inSession port ld session (fun _ s => spdmReply port ld 0 [] s) s

/-- END_SESSION (R472). -/
def execEndSession (port ld session : Nat) (s : State) : Host.Outcome State Fault Refusal :=
  .next <| inSession port ld session (fun x s =>
    spdmReply port ld 0 [] (setSpdm (ldKey port ld) { x with sessions := tdel x.sessions session } s)) s

/-- CHUNK_SEND (R472): a part of a large request; parts come in order, and the last ends it. -/
def execChunkSend (port ld seq : Nat) (last : Bool) (part : Bytes) (s : State) : Host.Outcome State Fault Refusal :=
  .next <| spdm port ld (fun _ => true) (fun x s =>
    let k := ldKey port ld
    if seq != 0 && seq != x.chunkSeq then emit (.spdm port ld 0x01 []) (setSpdm k { x with chunk := [], chunkSeq := 0 } s)
    else
      let b := (if seq = 0 then [] else x.chunk) ++ part
      spdmReply port ld 0 (toLE 2 seq) (setSpdm k (if last then { x with chunk := [], chunkSeq := 0 }
        else { x with chunk := b, chunkSeq := seq + 1 }) s)) s

/-- CHUNK_GET (R472): the next part of a large response. -/
def execChunkGet (port ld seq : Nat) (s : State) : Host.Outcome State Fault Refusal :=
  .next <| spdm port ld (fun x => !x.large.isEmpty) (fun x s =>
    if seq != x.largeSeq then emit (.spdm port ld 0x01 []) s
    else
      emit (.spdm port ld 0 (x.large.take doeMost))
        (setSpdm (ldKey port ld) { x with large := x.large.drop doeMost, largeSeq := x.largeSeq + 1 } s)) s

/-! ### IDE key management (R472, R473 t4) -/

/-- The logical devices that an IDE stream serves: 0 the CXL.mem stream and 2 the link stream of the link, 1 its own selective stream. -/
def streamLds (s : State) (port ld stream : Nat) : List Nat := if stream = 1 then [ld] else ldsOf s (keyOf s port ld)

/-- QUERY (R472): the streams and whether each is in use. -/
def execQuery (port ld session : Nat) (s : State) : Host.Outcome State Fault Refusal :=
  .next <| inSession port ld session (fun _ s =>
    let x := tdiOf s (ldKey port ld)
    spdmReply port ld 0 ([0, 1, 2].map fun i => BitVec.ofNat 8 (b2n (decide (i ∈ x.keyed)) + 2 * b2n (decide (i ∈ x.active)))) s) s

/-- A number joined to a list once. -/
def joined (i : Nat) (l : List Nat) : List Nat := if i ∈ l then l else l ++ [i]

/-- KEY_PROG (R472): keys of a stream are programmed, or refreshed. -/
def execKeyProg (port ld session stream : Nat) (s : State) : Host.Outcome State Fault Refusal :=
  .next <| inSession port ld session (fun _ s =>
    if 2 < stream then emit (.spdm port ld 0x01 []) s
    else
      let s := each (streamLds s port ld stream) (fun d s =>
        let x := tdiOf s (ldKey port d)
        setTdi (ldKey port d) { x with keyed := joined stream x.keyed } s) s
      spdmReply port ld 0 [] s) s

/-- K_SET_GO (R79, R473, t4): IDE is enabled on a stream whose keys are programmed; that of CXL.mem in the mode its host has set (log 132,
DESIGN CHOICE). -/
def execKSetGo (port ld session stream : Nat) (s : State) : Host.Outcome State Fault Refusal :=
  .next <| inSession port ld session (fun _ s =>
    let v := bitOf (draw s) 0
    if stream ∈ (tdiOf s (ldKey port ld)).keyed then
      let s := each (streamLds s port ld stream) (fun d s =>
        let x := tdiOf s (ldKey port d)
        setTdi (ldKey port d) { x with active := joined stream x.active, skid := if stream = 0 then v else x.skid } s)
        (if stream = 0 then drawn s else s)
      spdmReply port ld 0 [] s
    else emit (.spdm port ld 0x01 []) s) s

/-- A stream is no longer in use (R475): a locked or running TDI that it protects goes to ERROR. The link stream protects none (R474). -/
def stopStream (port ld stream : Nat) (keys : Bool) (s : State) : State :=
  each (streamLds s port ld stream) (fun d s =>
    let k := ldKey port d
    let x := tdiOf s k
    let used := decide (stream ∈ x.active)
    let s := setTdi k { x with
      active := x.active.filter (· != stream)
      keyed := if keys then x.keyed.filter (· != stream) else x.keyed } s
    if used && stream != 2 && tdiLocked s k then tdiError k s else s) s

/-- K_SET_STOP (R472, R475): a key set is stopped. -/
def execKSetStop (port ld session stream : Nat) (s : State) : Host.Outcome State Fault Refusal :=
  .next <| inSession port ld session (fun _ s =>
    if 2 < stream then emit (.spdm port ld 0x01 []) s else spdmReply port ld 0 [] (stopStream port ld stream true s)) s

/-- IDE_INTEGRITY_FAILURE (R475): a stream in use fails its integrity check, which the CXL RAS capability shows (log 126, PRESUMED). -/
def execIdeIntegrityFailure (port ld stream : Nat) (s : State) : Host.Outcome State Fault Refusal :=
  .next <| if ldUp s port ld then
      let k := ldKey port ld
      stopStream port ld stream false (setLd k { ldOf s k with rasUnc := setBit (ldOf s k).rasUnc 16 } s)
    else s

/-! ### TDISP (R472 to R475) -/

/-- GET_TDISP_VERSION (R472): version 1.0. -/
def execGetTdispVersion (port ld session : Nat) (s : State) : Host.Outcome State Fault Refusal :=
  .next <| inSession port ld session (fun _ s => spdmReply port ld 0 [1, 0x10] s) s

/-- GET_TDISP_CAPABILITIES (R472): the requests of the table. -/
def execGetTdispCapabilities (port ld session : Nat) (s : State) : Host.Outcome State Fault Refusal :=
  .next <| inSession port ld session (fun _ s => spdmReply port ld 0 (toLE 4 0x7F) s) s

/-- R474: the logical device has a partition, both its IDE streams are active, and it is not the privileged one. -/
def mayLock (s : State) (port ld : Nat) : Bool :=
  let x := tdiOf s (ldKey port ld)
  decide (x.part < 64) && decide (0 ∈ x.active) && decide (1 ∈ x.active) && rCxlPrivLd s != port + 32 * ld

/-- LOCK_INTERFACE_REQUEST (R474, R475): the TDI is locked and a nonce returned, or an error response. -/
def execLockInterfaceRequest (port ld session : Nat) (s : State) : Host.Outcome State Fault Refusal :=
  .next <| inSession port ld session (fun _ s =>
    let k := ldKey port ld
    if (tdiOf s k).state != 0 then emit (.spdm port ld 0x10004 []) s
    else if !mayLock s port ld then emit (.spdm port ld 0x10104 []) s
    else
      let n := draw s
      spdmReply port ld 0 (toLE 32 n) (setTdi k { tdiOf s k with state := 1, nonce := n } (drawn s))) s

/-- The device interface report (R473, t6). -/
def interfaceReport (s : State) (port ld : Nat) : Bytes :=
  let x := tdiOf s (ldKey port ld)
  packLE ([(4, 131072), (4, 16777216), (1, x.part), (2, hereAt s), (2, 0x4800), (8, fwVersion s)] ++
    (ldOf s (ldKey port ld)).regions.map fun l => (8, l))

/-- GET_DEVICE_INTERFACE_REPORT (R473, t6): a part of the report of a locked or running TDI, and how much remains. -/
def execGetDeviceInterfaceReport (port ld session offset length : Nat) (s : State) : Host.Outcome State Fault Refusal :=
  .next <| inSession port ld session (fun _ s =>
    let r := interfaceReport s port ld
    if !tdiLocked s (ldKey port ld) then emit (.spdm port ld 0x10004 []) s
    else if r.length < offset then emit (.spdm port ld 0x10001 []) s
    else
      let b := (r.drop offset).take length
      spdmReply port ld 0 (packLE [(2, b.length), (2, r.length - offset - b.length)] ++ b) s) s

/-- GET_DEVICE_INTERFACE_STATE (R475). -/
def execGetDeviceInterfaceState (port ld session : Nat) (s : State) : Host.Outcome State Fault Refusal :=
  .next <| inSession port ld session (fun _ s => spdmReply port ld 0 (toLE 1 (tdiOf s (ldKey port ld)).state) s) s

/-- START_INTERFACE_REQUEST (R475): a locked TDI with the nonce runs. -/
def execStartInterfaceRequest (port ld session nonce : Nat) (s : State) : Host.Outcome State Fault Refusal :=
  .next <| inSession port ld session (fun _ s =>
    let k := ldKey port ld
    let x := tdiOf s k
    if x.state != 1 then emit (.spdm port ld 0x10004 []) s
    else if x.nonce != nonce then emit (.spdm port ld 0x10102 []) s
    else spdmReply port ld 0 [] (setTdi k { x with state := 2 } s)) s

/-- STOP_INTERFACE_REQUEST (R475): a TDI is unlocked. -/
def execStopInterfaceRequest (port ld session : Nat) (s : State) : Host.Outcome State Fault Refusal :=
  .next <| inSession port ld session (fun _ s =>
    let k := ldKey port ld
    spdmReply port ld 0 [] (setTdi k { tdiOf s k with state := 0, nonce := 0 } s)) s

/-- LOCKED_REGISTER_WRITE (R475): a host write to a locked register. -/
def execLockedRegisterWrite (port ld : Nat) (s : State) : Host.Outcome State Fault Refusal :=
  .next <| if ldUp s port ld && tdiLocked s (ldKey port ld) then tdiError (ldKey port ld) s else s

/-- MASK_CLEAR (R490, R475): the host clears a vector's mask bit, with the address and data where it writes them too (R103); a pending vector
is sent unless its group is held off. The table of a locked TDI is a locked register. -/
def execMaskClear (port ld vector : Nat) (entry : Option (Nat × Nat)) (s : State) : Host.Outcome State Fault Refusal :=
  .next <|
    let k := ldKey port ld
    let m := msixOf s k
    if 2048 ≤ vector then s
    else if tdiLocked s k then tdiError k s
    else
      let m := { m with
        unmasked := if vector ∈ m.unmasked then m.unmasked else vector :: m.unmasked
        table := match entry with | some e => tput m.table vector (e.1 % 2 ^ 64, e.2 % 2 ^ 32) | none => m.table }
      let s := { s with msix := tput s.msix k m }
      if vector ∈ m.pending && deliverable s m vector && !heldOff s m vector then sendVector k vector s else s

end Sys2Proof.Machine
end

