-- ==== Sys2Proof/Machine/Boot.lean ====
section
/-! DEFINITION. Cold reset and cold boot (R27, R572 to R581, R622): what a cold reset keeps, the image the root of trust chooses
(R557, R558), the stored entries (R543), the boot steps and the restored lending book (R578). -/
namespace Sys2Proof.Machine

/-! ### Images (R556 to R558) -/

def slotOf (s : State) (i : Nat) : Image := (tfind s.fw.slots i).getD {}

/-- Whether a range of an image's bytes is zero. -/
def imageZero (i : Image) (off w : Nat) : Bool := i.bytes.all fun b => !(decide (off ≤ b.1) && decide (b.1 < off + w)) || b.2 == 0

/-- Whether an image is valid (R557). -/
def imageValid (s : State) (i : Image) : Bool :=
  imageField i 0 4 == 0x465A504F && imageField i 4 2 == 1 && decide (imageField i 24 1 < 4) && imageZero i 25 39 &&
  imageZero i 1152 896 && i.signed && decide (s.fuses ≤ imageField i 6 2)

/-- The root of trust writes the boot control record (R555). -/
def writeControl (active : Nat) (trial : Bool) (tries : Nat) (s : State) : State :=
  { s with fw := { s.fw with active := active, trial := trial, tries := tries, bcrSeq := s.fw.bcrSeq + 1 } }

/-- TRIES and TRIAL at a cold boot (R558). -/
def trialBoot (s : State) : State :=
  if !s.fw.trial then s
  else if s.fw.tries = 0 then writeControl (1 - s.fw.active) false 0 s
  else writeControl s.fw.active true (s.fw.tries - 1) s

/-- The slot that boots, with the control record after (R558); none when no image is valid. -/
def chooseImage (s : State) : Option State :=
  let s := trialBoot s
  let run := fun (s : State) => { s with fw := { s.fw with running := slotOf s s.fw.active } }
  if imageValid s (slotOf s s.fw.active) then some (run s)
  else if imageValid s (slotOf s (1 - s.fw.active)) then some (run (writeControl (1 - s.fw.active) false 0 s))
  else none

/-! ### Stored entries (R543) -/

/-- The key under which the configuration store holds an entry's value for a selected object. -/
def storeKey (key sel : Nat) : Nat := key + sel * 2 ^ 24

/-- The default of a dictionary entry. -/
def dfltOf (s : State) (key : Nat) : Nat :=
  if key = 0x881000 then designPower s.asm
  else match dictFind (key / 256) (key % 256) with | some e => e.dflt | none => 0

/-- The digests of an LCK_OBSERVER_CRED record: U8 count, then 16 digests of 64 B (R481). -/
def observersFrom (b : Bytes) : List Bytes := (List.range (leAt b 0 1)).map fun i => (b.drop (1 + 64 * i)).take 64

/-- An entry whose value is a number takes effect where the machine holds it. -/
def applyNat (key sel v : Nat) (s : State) : State :=
  let index := key / 256
  let sub := key % 256
  if index = 0x1102 then setPort sub { portOf s sub with bifurcate := v } s
  else if index = 0x1104 then setPort sub { portOf s sub with ldCount := v } s
  else if index = 0x4002 then setStack sub { stackOf s sub with limit := v } s
  else if key = 0x101001 then { s with mar := { s.mar with route := tput s.mar.route sel v } }
  else if key = 0x700300 then setTdi sel { tdiOf s sel with part := v } s
  else noteCritical key v (setReg key (dfltOf s key) v s)

/-- An entry whose value is a string of bytes takes effect. -/
def applyBytes (key sel : Nat) (b : Bytes) (s : State) : State :=
  if key = 0x111001 then setLd sel { ldOf s sel with regions := (List.range 8).map fun i => leAt b (8 * i) 8 } s
  else if key / 256 = 0x7004 then
    { s with lck := { s.lck with tenants := if b.isEmpty then tdel s.lck.tenants (key % 256) else tput s.lck.tenants (key % 256) b } }
  else if key = 0x700500 then { s with lck := { s.lck with observers := observersFrom b } }
  else if key = 0x880101 then { s with sah := { s.sah with ethAddr := b } }
  else if key = 0x880300 then { s with sah := { s.sah with anchor := b } }
  else if key = 0x480100 then { s with sah := { s.sah with retryTable := b } }
  else s

/-- Entries that are applied at cold boot in tiered mode only (R543). -/
def tieredOnly (key : Nat) : Bool := key == 0x111001 || key == 0x700300 || key / 256 == 0x7004

/-- The stored entries are applied at t5 of a cold boot (R576). -/
def applyStored (s : State) : State :=
  let s := each s.store (fun p s =>
    if tieredOnly (p.1 % 2 ^ 24) && !s.car.tiered then s else applyNat (p.1 % 2 ^ 24) (p.1 / 2 ^ 24) p.2 s) s
  let s := each s.storeBlobs (fun p s =>
    if tieredOnly (p.1 % 2 ^ 24) && !s.car.tiered then s else applyBytes (p.1 % 2 ^ 24) (p.1 / 2 ^ 24) p.2 s) s
  let s := { s with sah := { s.sah with portInUse := rSahNasidomPort s }, mar := { s.mar with routeSize := rMarRingSize s } }
  { s with cxl := { s.cxl with ports := s.cxl.ports.map fun p => (p.1, { p.2 with bifurcated := p.2.bifurcate == 1 }) } }

/-! ### Cold reset (R572, R573) -/

/-- What the flash holds at a cold reset (R170, R228, R572): units, the last complete round, the durable journal records since with every group
that holds them, the groups that a round under way had taken, the anchor,
the system groups and the book log. The group table in DRAM is lost, and what is known of the groups is what that round holds (R243). -/
def keptFlash (s : State) : Stk :=
  let k := s.stk
  let moving := fun (n : Nat) (e : BookEntry) => match tfind s.pga.migrates n with
    | some m => { e with forward := m.dest * 2 ^ 50 + m.destBase }
    | none => e
  { pages := k.pages, luns := k.luns, spare := k.spare, groupsPerTarget := k.groupsPerTarget, capacity := k.capacity
    formatted := k.formatted, groups := match k.last with | some r => r.groups | none => k.groups
    units := k.units, seq := k.seq, durable := k.durable, last := k.last, anchors := k.anchors, rounds := k.rounds
    keyPairs := k.keyPairs, bookPairs := k.bookPairs, jnext := k.jnext, round := k.round
    jpairs := k.jpairs ++ (match k.round with | some r => r.journals.filter fun p => !decide (p ∈ k.jpairs) | none => []), failedTargets := k.failedTargets
    bookLog := if s.rst.step = 8 && s.car.tiered then s.pga.book.map fun p => (p.1, moving p.1 p.2) else k.bookLog }

/-- A cold reset (R573): everything returns to its reset value but the flash, the SPI boot flash, the fuses and the pins. Node time
restarts at 0. The waiting commands, what has been sent and the draws of free values are the model's own. -/
def coldReset (s : State) : State :=
  let r : State := {}
  let ports := s.cxl.ports.filter fun p => p.1 < 32
  { r with
    pending := s.pending
    out := s.out
    fresh := s.fresh
    asm := s.asm
    store := s.store
    storeBlobs := s.storeBlobs
    fuses := s.fuses
    stk := keptFlash s
    pga := { r.pga with
      gens := if s.car.tiered then s.pga.gens else []
      isets := if s.car.tiered then s.pga.isets else []
      binders := if s.car.tiered then s.pga.binders else []
      lastPart := if s.car.tiered then s.pga.lastPart else []
      clean := if s.car.tiered then s.pga.clean else [] }
    lck := { r.lck with table := s.lck.table, standbyB := s.lck.standbyB }
    cxl := { r.cxl with ports := ports.map fun p => (p.1, { perst := p.2.perst }) }
    sah := { r.sah with
      coldBoots := s.sah.coldBoots, recoveries := s.sah.recoveries, restarts := s.sah.restarts, fwChanges := s.sah.fwChanges
      tripped := s.sah.tripped }
    fw := { r.fw with active := s.fw.active, trial := s.fw.trial, tries := s.fw.tries, bcrSeq := s.fw.bcrSeq, slots := s.fw.slots }
    rst := { r.rst with
      resetN := s.rst.resetN, recoverN := s.rst.recoverN, faultN := s.rst.faultN, thermtripN := s.rst.thermtripN
      pllLocked := s.rst.pllLocked, vddAux := s.rst.vddAux }
    jtag := s.jtag }

/-- A cold boot starts (R575, R576, t0 to t2) when nothing holds the node in reset; without a valid image the node stays in reset with
NODE_FAULT_N low (R558). -/
def startBoot (s : State) : State :=
  if !s.rst.resetN || s.sah.tripped || !s.rst.vddAux || !s.rst.pllLocked || !s.rst.inReset then s
  else match chooseImage s with
  | none => { s with rst := { s.rst with faultN := false } }
  | some t =>
    let changed := b2n (t.fw.active != s.fw.active)
    { t with
      rst := { t.rst with inReset := false, step := 2, faultN := true, ready := false, bootMark := s.now }
      sah := { t.sah with coldBoots := s.sah.coldBoots + 1, fwChanges := s.sah.fwChanges + changed }
      car := { t.car with tiered := tget 1 s.store 0x380001 != 0 } }

/-- A step of R576 has taken the time since the last mark, in ms. -/
def stepTook (i : Nat) (s : State) : State :=
  { s with rst := { s.rst with
      durations := s.rst.durations.set (i - 1) ((s.now - s.rst.bootMark) / 1000000)
      bootMark := s.now } }

/-! ### Entering service -/

/-- The management cores run: every one has 100 ms for its next kick (R567). -/
def startCores (s : State) : State :=
  { s with
    sah := { s.sah with coresUp := 0x1F }
    fw := { s.fw with wdSuspended := false, kickDue := [0, 1, 2, 3].map fun c => (c, s.now + msec 100) } }

/-- Step t8 (R576): the node is in service, Nasidom answers, the start-up hold begins, and the CXL ports train (R108, R109). -/
def enterService (s : State) : State :=
  let s := stepTook 7 { s with
    rst := { s.rst with nodeState := 1, ready := true, step := 8, holdEnd := s.now + msec 10000 }
    sah := { s.sah with up := true } }
  let s := each (List.range (8 * s.asm.dies)) (fun p s =>
    let x := portOf s p
    let s := if x.bifurcated then setPort (p + 32) { state := 0, perst := x.perst, ldCount := x.ldCount } s else s
    if x.perst || x.held then s else (fun s => if x.bifurcated then trainPort (p + 32) s else s) (trainPort p s)) s
  s

/-- The handoff record of a starting image (R563, R570). -/
def writeHandoff (reason : Nat) (s : State) : State :=
  { s with fw := { s.fw with handoff :=
      { ver := imageField s.fw.running 22 2, reason := reason, fromVersion := fwVersion s, time := s.now } } }

/-- Steps t4 and t5 (R576): the management cores start, stored entries are applied, and enabled ring and pair ports train. -/
def bootCores (s : State) : State :=
  let s := writeHandoff 0 (applyStored (startCores { s with rst := { s.rst with step := 5 } }))
  each (List.range 7) (fun p s => if bitOf (rMarPortEnable s) p then enablePort p true s else s) s

/-- Whether a target's parameter page and its answers to commands meet R212. -/
def fits (t : TargetPage) : Bool :=
  t.data == 16384 && decide (1152 ≤ t.spare) && t.planes == 4 && (List.range 5).any (fun i => t.pages == 256 * 2 ^ i) &&
  decide (1 ≤ t.luns) && decide (t.luns ≤ 8) && decide (t.groups * t.pages * 65536 ≤ 10 ^ 12) && t.commands

/-- The geometry of a target (R213): pages per block, LUNs, spare area and groups. -/
def geometry (t : TargetPage) : Nat × Nat × Nat × Nat := (t.pages, t.luns, t.spare, t.groups)

/-- The NAND targets that a cold boot finds (R212 to R214, R243): populated, not failed, meeting R212, and of the geometry of the lowest
one that trained; each of another geometry raises FLASH_MISMATCH. `found` is what targets showed; one not given shows the reference
geometry (log 86, DESIGN CHOICE). -/
def findTargets (found : List (Nat × TargetPage)) (s : State) : State :=
  let page := fun (t : Nat) => (tfind found t).getD {}
  let ts := (List.range s.asm.nand).filter fun t => !decide (t ∈ s.stk.failedTargets) && fits (page t)
  match ts.find? fun t => (page t).trained with
  | none => useTargets ts (setStk (fun k => { k with fit := ts }) s)
  | some first =>
    let x := page first
    let same := ts.filter fun t => geometry (page t) == geometry x
    let other := ts.filter fun t => (page t).trained && geometry (page t) != geometry x
    let s := setStk (fun k => { k with
      pages := x.pages, luns := x.luns, spare := x.spare, groupsPerTarget := x.groups, fit := same
      badMarks := same.flatMap fun t => ((page t).bad.filter fun b => decide (b.1 < x.groups)).map fun b => (t * 65536 + b.1, b.2) }) s
    each other (fun t s => raise 0x1801 1 none (packLE [(1, t / 8), (1, t % 8)]) s)
      (useTargets (same.filter fun t => !(page t).trained) s)

/-- COLD_TRAINING_DONE (R194, R199): a stack's cold training has ended: levels 2, 1 and 0 are trained and level 1 is active; `repaired` gives
the rows repaired into repair rows and `marks` the marked devices, both by pseudo-channel. After the last stack, memory BIST starts. A
stack that cannot be trained keeps the node in fault (R577; log 87, DEDUCED). -/
def execColdTrainingDone (stack : Nat) (ok : Bool) (repaired marks : List (Nat × Nat)) (s : State) : Host.Outcome State Fault Refusal :=
  .next <|
    if s.rst.step != 2 || nStacks s ≤ stack then s
    else if !ok then enterFault s
    else
      let s := each [2, 1, 0] (trainLevel stack) s
      let here := fun (l : List (Nat × Nat)) => l.filter fun p => decide (p.1 < 64)
      let s := setStack stack { stackOf s stack with
        trained := true, level := 1, marks := []
        repairs := (here repaired).foldl (fun t p => tput t p.1 p.2) [] } s
      let s := each ((here marks).filter fun p => decide (p.2 < 11)) (fun p s => markDevice stack p.1 p.2 s) s
      if (List.range (nStacks s)).all fun k => (stackOf s k).trained then
        stepTook 2 { s with rst := { s.rst with step := 3 } }
      else s

/-- MEMORY_BIST_DONE (R576, R577): memory BIST and the checker self-test have ended. `repaired` counts each stack's repaired rows, `marks`
gives the devices marked for failures (stack × 64 + pseudo-channel, device), `failed` names the stacks whose failures neither repair
rows nor device marks cover; `checker` is the checker's result, 0 for a pass. In flat mode the node enters service; what the flash of an
earlier tiered boot held is unreadable (R152). -/
def execMemoryBistDone (repaired : List Nat) (marks : List (Nat × Nat)) (failed : List Nat) (checker : Nat) (s : State) : Host.Outcome State Fault Refusal :=
  .next <|
    if s.rst.step != 3 || s.rst.nodeState != 0 then s
    else
      let s := each (marks.filter fun p => decide (p.1 < 64 * nStacks s) && decide (p.2 < 11)) (fun p s =>
        markDevice (p.1 / 64) (p.1 % 64) p.2 s) s
      let mem := s.mem.hbmStacks.map fun p => (p.1, { p.2 with bisted := true })
      let s := stepTook 3 { s with
        mem := { s.mem with hbmStacks := mem }
        rst := { s.rst with checker := checker, repaired := (List.range (nStacks s)).map fun k => (k, repaired.getD k 0) } }
      if checker != 0 || failed.any (fun k => decide (k < nStacks s)) then enterFault s
      else
        let s := bootCores (initCritical s)
        if s.car.tiered then s
        else enterService (setStk (fun k => { k with
            formatted := false, last := none, anchors := [], map := [], units := [], durable := [], bookLog := [], jpairs := [], jnext := 0 })
            { s with lck := { s.lck with table := [] } })

/-! ### The lending book at t7 (R578) -/

/-- What becomes of a logged entry (R578): the entry as restored, or none where it is free. -/
def restoreEntry (e : BookEntry) : Option BookEntry :=
  let window := e.isWin || e.window
  if window then none
  else if e.kind = 1 then
    if e.state = 2 || e.state = 6 then some e else if e.state = 4 then some { e with state := 2, forward := 0 } else none
  else if e.kind = 2 && e.state = 2 then some { e with count := 0 }
  else none

/-- The book is rebuilt from its log; revoking bindings send their unreferences, and interrupted migrations a release to the new home
(R578). -/
def restoreBook (s : State) : State :=
  let log := s.stk.bookLog
  let book := log.filterMap fun p => (restoreEntry p.2).map fun e => (p.1, e)
  let used := (book.filter fun p => p.2.kind == 2 && p.2.ilv).map fun p => p.2.target % 4096
  let revoking := log.filter fun p => p.2.kind == 2 && p.2.state == 3 && !p.2.window
  let s := { s with pga := { s.pga with book := log } }
  let pieces := revoking.map fun p => (p.2, piecesOf s p.2)
  let s := { s with pga := { s.pga with book := book, isets := s.pga.isets.filter fun p => decide (p.1 ∈ used) } }
  let s := each pieces (fun q s => each q.2 (fun x s => unreference x.1 x.2.1 q.1.partner s) s) s
  each (log.filter fun p => p.2.kind == 1 && p.2.state == 4 && p.2.forward != 0) (fun p s =>
    originate (manage s (pgaCoord p.2.forward) 7 p.2.forward []) .migrateRelease 1 2 false s) s

/-- The key slots of the partitions are reloaded from the key-record table (R456); a partition with two live epochs is rotating (R578). -/
def restoreKeys (s : State) : State :=
  each s.lck.table (fun p s => setPart p.1 {
    state := if p.2.2.1 = 0 then 1 else 2
    current := p.2.1, previous := p.2.2.1, seedCur := p.2.2.2.1, seedPrev := p.2.2.2.2 } s) s

/-- Partitions with a sweeping range go on with their Sweep at t1 (R578). -/
def restoreSweeps (s : State) : State :=
  each (List.range 64) (fun p s =>
    if s.pga.book.any fun e => e.2.kind == 1 && e.2.state == 6 && e.2.part == p then
      sweepRecalls p (setPart p { partOf s p with state := 3, sweepStep := 1, sweepPos := 0 } s)
    else s) s

/-- Every twin record starts stale, with ROLE follower (R423). -/
def restoreTwins (s : State) : State :=
  each (s.pga.book.filter fun p => p.2.kind == 1 && p.2.twin != 0) (fun p s =>
    setRole p.1 2 4 { s with twn := { s.twn with recs := tput s.twn.recs p.1 { partner := rMarPairPartner s } } }) s

/-- Whether no copy of the key-record table decodes (R456): both groups of the pair that holds the newest are lost. -/
def keysLost (s : State) (lost : List Nat) : Bool :=
  match s.stk.keyPairs.drop (if s.lck.standbyB then 0 else 1) with
  | p :: _ => decide (p.1 ∈ lost) && decide (p.2 ∈ lost)
  | [] => false

/-- The node stays in fault with an event; Sahtin runs (R153). -/
def bootFails (code : Nat) (s : State) : State := raise code 3 none [] (enterFault { s with sah := { s.sah with up := true } })

/-- MAP_LOAD_DONE (R243, t0 to t6; R576, t6 to t8): the targets are found, and the map is loaded and replayed, or the flash formatted at the
first boot in tiered mode (R242). Without a usable target the node is in fault with NO_FLASH (R153), without an anchor or with lost system
groups with NO_MAP (R227, R230), and without the key-record table with NO_KEYS (R456). Keys, lending book and twins are restored, and the
node enters service. `found` is what targets showed, `lost` the groups and `torn` the units whose pages do not decode. -/
def execMapLoadDone (found : List (Nat × TargetPage)) (lost torn : List Nat) (s : State) : Host.Outcome State Fault Refusal :=
  .next <|
    if s.rst.step != 5 || s.rst.nodeState != 0 || !s.car.tiered then s
    else
      let s := findTargets found s
      if s.stk.targets.isEmpty then bootFails 0x1003 s
      else match (if s.stk.formatted then loadMap lost torn s else some (formatFlash s)) with
        | none => bootFails 0x1806 s
        | some s =>
          if keysLost s lost then bootFails 0x2805 s
          else
            let s := stepTook 6 { s with rst := { s.rst with step := 7 } }
            enterService (restoreTwins (restoreSweeps (restoreBook (restoreKeys s))))

/-! ### Pins and clocks -/

/-- NODE_RESET_N_ASSERT (R622): a low level of 1 µs starts a cold reset, which holds while the level lasts; a shorter one is ignored. -/
def execNodeResetNAssert (width : Nat) (s : State) : Host.Outcome State Fault Refusal :=
  .next <| if width < 1000 then s
    else coldReset { s with rst := { s.rst with resetN := false, faultN := !s.sah.tripped } }

/-- An instruction of the test access port that drives pins (R632). -/
def drivesPins (opcode : Nat) : Bool := opcode == 0 || opcode == 4 || opcode == 5 || opcode == 6 || opcode == 7

/-- NODE_RESET_N_RELEASE (R575, R632): a test instruction that drives pins gives way to BYPASS, every pin returns to its reset state, and
a cold boot begins. -/
def execNodeResetNRelease (s : State) : Host.Outcome State Fault Refusal :=
  .next <|
    if s.rst.resetN || !s.rst.vddAux then s
    else
      let j := if drivesPins s.jtag.opcode then { s.jtag with opcode := 0xFF, driven := none, highz := false } else s.jtag
      startBoot { s with jtag := j, rst := { s.rst with resetN := true } }

/-- NODE_RECOVER_N (R622): low for 1 µs starts a node recovery; a further one needs the pin to return high; ignored while NODE_RESET_N is
low. -/
def execNodeRecoverN (low : Bool) (width : Nat) (s : State) : Host.Outcome State Fault Refusal :=
  .next <|
    if !low then { s with rst := { s.rst with recoverN := true } }
    else if !s.rst.resetN || width < 1000 || !s.rst.recoverN then s
    else beginRecovery 9 { s with rst := { s.rst with recoverN := false } }

/-- ROOT_PLL_LOCK_LOSS (R27, R582): the fault status pin is driven and the node is held in cold reset until the PLL locks again. -/
def execRootPllLockLoss (s : State) : Host.Outcome State Fault Refusal :=
  .next <| if !s.rst.pllLocked then s
    else coldReset { s with rst := { s.rst with pllLocked := false, faultN := false } }

/-- ROOT_PLL_RELOCK (R26, R27): the root PLL has locked, and the node boots. -/
def execRootPllRelock (s : State) : Host.Outcome State Fault Refusal :=
  .next <| if s.rst.pllLocked then s else startBoot { s with rst := { s.rst with pllLocked := true, faultN := true } }

/-- START_UP_HOLD_END (R581): 10 s after service began the loop may request level 0. -/
def execStartUpHoldEnd (s : State) : Host.Outcome State Fault Refusal :=
  .next <| if s.rst.holdEnd ≤ s.now then { s with rst := { s.rst with holdEnd := 0 } } else s

/-- VDD_AUX_FALL (R618, R619): power is removed. What only power keeps is lost with everything a cold reset forgets, and the trip latch
clears. -/
def execVddAuxFall (s : State) : Host.Outcome State Fault Refusal :=
  .next <|
    let s := coldReset { s with
      sah := { s.sah with tripped := false }
      rst := { s.rst with resetN := false, vddAux := false, faultN := true, thermtripN := true, recoverN := true, pllLocked := true } }
    { s with jtag := {} }

/-- VDD_AUX_RISE (R616, t0): NODE_READY is low, NODE_FAULT_N and THERMTRIP_N are released, and NODE_RESET_N is held low. -/
def execVddAuxRise (s : State) : Host.Outcome State Fault Refusal :=
  .next <| if s.rst.vddAux then s
    else { s with rst := { s.rst with vddAux := true, ready := false, faultN := true, thermtripN := true, resetN := false } }

end Sys2Proof.Machine
end

