-- ==== Sys2Proof/Machine/Irq.lean ====
section
/-! DEFINITION. Interrupts and events (16): MSI-X timers and masks, the cores' interrupt controllers, the event engine and
subscriptions. -/
namespace Sys2Proof.Machine

/-! ### MSI-X -/

/-- COALESCE_TIMER (R485): the running timer of a context's queue has reached its time threshold. -/
def execCoalesceTimer (ctx : Nat) (s : State) : Host.Outcome State Fault Refusal :=
  .next <| match tfind s.cle.ctxs ctx with
  | some c =>
    match c.timerAt with
    | some t => if t + usec c.timeThr ≤ s.now then fireContext ctx s else s
    | none => s
  | none => s

/-- HOLDOFF_END (R489): a group's hold-off has run out. -/
def execHoldoffEnd (port ld group : Nat) (s : State) : Host.Outcome State Fault Refusal :=
  .next <| match tfind (msixOf s (ldKey port ld)).heldUntil group with
  | some t => if t ≤ s.now then releaseGroup (ldKey port ld) group s else s
  | none => s

/-- IRQ_GLOBAL_DISABLE (R491): setting it holds every message back; clearing it ends every hold-off at this moment. -/
def execIrqGlobalDisable (q : Ask) (value : Nat) (s : State) : Host.Outcome State Fault Refusal :=
  .next <| ask q 1 0x800000 true (fun _ s =>
    if 1 < value then finish q 0x800000 stBadValue [] s
    else
      let was := rIrqGlobalDisable s
      let s := setReg 0x800000 0 value s
      let s := if was = 1 && value == 0 then
          each s.msix (fun p s => each (List.range 64) (releaseGroup p.1) s) s
        else s
      finish q 0x800000 stOk [] s) s

/-- IRQ_CQ_COALESCE (R486) on the context of `CLE_CONTEXT_SELECT`: new thresholds take effect, and may fire, at once. -/
def execIrqCqCoalesce (q : Ask) (count time : Nat) (s : State) : Host.Outcome State Fault Refusal :=
  .next <| ask q 3 0x800100 true (fun x s =>
    let ctx := selectOf x 0x500200 0
    let c := (tfind s.cle.ctxs ctx).getD {}
    if !ownsPart x c.part || (x.role = 2 && !c.assigned) then finish q 0x800100 stDenied [] s
    else if count = 0 || 4095 < count || time = 0 || 65535 < time then finish q 0x800100 stBadValue [] s
    else
      let c := { c with countThr := count, timeThr := time }
      let s := { s with cle := { s.cle with ctxs := tput s.cle.ctxs ctx c } }
      let elapsed := match c.timerAt with | some t => decide (t + usec time ≤ s.now) | none => false
      let s := if (0 < c.n && decide (count ≤ c.n)) || elapsed then fireContext ctx s else s
      finish q 0x800100 stOk [] s) s

/-! ### Interrupt controllers (R494 to R497) -/

def sicOf (s : State) (core : Nat) : Sic := (tfind s.evt.sic core).getD {}

def setSic (core : Nat) (k : Sic) (s : State) : State := { s with evt := { s.evt with sic := tput s.evt.sic core k } }

/-- A source's priority at a controller: source 0 always has priority 0 (R494). -/
def srcPriority (k : Sic) (src : Nat) : Nat := if src = 0 then 0 else bits (tget 15 k.config src) 0 4

/-- Whether a pending source is enabled and targets the core (R494). -/
def srcAimed (k : Sic) (core src : Nat) : Bool :=
  src == 0 || (bitOf (tget 15 k.config src) 6 && bits (tget 15 k.config src) 4 2 == core)

/-- Whether a source may interrupt: the stack is empty or its priority is numerically below the top's (R495). -/
def interrupts (k : Sic) (core src : Nat) : Bool :=
  srcAimed k core src && (match k.stack with | [] => true | (_, p) :: _ => decide (srcPriority k src < p))

/-- The better of two sources: lower priority value, then lower number (R495). -/
def betterSrc (k : Sic) (a b : Nat) : Nat :=
  if srcPriority k b < srcPriority k a || (srcPriority k b == srcPriority k a && decide (b < a)) then b else a

/-- The source a CLAIM read returns, if there is one (R495). -/
def claimed (k : Sic) (core : Nat) : Option Nat :=
  match k.pending.filter (interrupts k core) with
  | [] => none
  | a :: as => some (as.foldl (betterSrc k) a)

/-- CLAIM (R495): the read returns and pushes the highest-priority interrupting source, or returns 0x100. A claimed
source other than the two buffer sources is no longer asserted (log 40, DEDUCED). -/
def execClaim (core : Nat) (s : State) : Host.Outcome State Fault Refusal :=
  .next <| if 4 ≤ core then s else
    let k := sicOf s core
    match claimed k core with
    | none => emit (.claim core 0x100) s
    | some src =>
      let k := { k with stack := (src, srcPriority k src) :: k.stack,
                        pending := if src = 1 || src = 2 then k.pending else k.pending.filter (· != src) }
      emit (.claim core src) (setSic core k s)

/-- EOI (R496): pops the source at the top, or records the mismatch, asserts source 0 and raises EOI_FAULT; a mismatch
with source 0 at the top halts the core. -/
def execEoi (core source : Nat) (s : State) : Host.Outcome State Fault Refusal :=
  .next <| if 4 ≤ core || 256 ≤ source then s else
    let k := sicOf s core
    match k.stack with
    | (top, p) :: rest =>
      if top = source then setSic core { k with stack := rest } s
      else
        let k := { k with stack := (top, p) :: rest, faultEoi := source, faultTop := top,
                          pending := if 0 ∈ k.pending then k.pending else 0 :: k.pending,
                          halted := k.halted || top == 0 }
        raise 0x3001 2 none (packLE [(1, source), (1, top)]) (setSic core k s)
    | [] =>
      let k := { k with faultEoi := source, faultTop := 0,
                        pending := if 0 ∈ k.pending then k.pending else 0 :: k.pending }
      raise 0x3001 2 none (packLE [(1, source), (1, 0)]) (setSic core k s)

/-- SOURCE_CONFIG_WRITE (R494): PRIORITY, TARGET and ENABLE are written; reserved bits and PENDING are ignored (R8);
source 0 keeps its fixed setting, and priority 0 is refused for every other source. -/
def execSourceConfigWrite (core source value : Nat) (s : State) : Host.Outcome State Fault Refusal :=
  .next <| if 4 ≤ core || 256 ≤ source || source = 0 || bits value 0 4 = 0 then s
    else
      let k := sicOf s core
      setSic core { k with config := tset 15 k.config source (bits value 0 7) } s

/-! ### The log and its subscriptions (R500 to R503, R527) -/

/-- The oldest SEQ the log still holds (R500). -/
def oldestSeq (s : State) : Nat := match s.evt.log with | [] => s.evt.nextSeq | (q, _) :: _ => q

/-- Whether a session may receive a record that its subscription names (R502). -/
def matchesSub (x : Session) (u : Sub) (e : Event) : Bool :=
  decide (u.low ≤ e.code) && decide (e.code ≤ u.high) && decide (u.minSev ≤ e.severity) &&
  (x.role != 2 || e.part == some x.part)

/-- The next records of a subscription with their places in the log, at most 16, in SEQ order (R502, R527). -/
def nextRecords (s : State) (x : Session) (u : Sub) : Tbl Event :=
  (s.evt.log.filter fun p => decide (u.next ≤ p.1) && matchesSub x u p.2).take 16

/-- Send notices to one subscription while it has matching records and fewer than 64 unacknowledged notices (R527). -/
def pumpSub : Nat → Nat → Nat → State → State
  | 0, _, _, s => s
  | fuel + 1, sid, slot, s =>
    match sessionOf s sid with
    | none => s
    | some x =>
      match tfind x.subs slot with
      | none => s
      | some u =>
        let recs := nextRecords s x u
        if recs.isEmpty || 64 ≤ u.unacked.length then s
        else
          let top := recs.foldl (fun a e => max a e.1) 0
          let body := packLE [(1, 1), (1, slot), (1, recs.length), (5, 0)] ++ recs.flatMap (fun p => eventBytes p.2)
          let u := { u with
            next := top + 1, unacked := u.unacked ++ [(x.notices, top, body)],
            resendDue := if u.unacked.isEmpty then s.now + msec 200 else u.resendDue }
          let s := setSession sid { x with notices := x.notices + 1, subs := tput x.subs slot u } s
          pumpSub fuel sid slot (sendFrame (.notice sid 1 x.notices 0 0 body) s)

/-- Deliver to every subscription of every session. -/
def pumpSubs (s : State) : State :=
  each s.sah.sessions (fun p s => each p.2.subs (fun u s => pumpSub 65 p.1 u.1 s) s) s

/-- EVENT_WRITE (R500): the oldest queued event is written to the log, its block's internal source is asserted (R493), and subscriptions receive it. -/
def execEventWrite (s : State) : Host.Outcome State Fault Refusal :=
  .next <| match s.evt.queue with
  | [] => s
  | e :: rest =>
    let e := { e with seq := s.evt.nextSeq }
    let log := s.evt.log ++ [(e.seq, e)]
    let s := { s with evt := { s.evt with
      queue := rest,
      nextSeq := e.seq + 1,
      log := if 1048576 < log.length then log.drop 1 else log } }
    pumpSubs (assertSource (64 + bits e.code 10 6) s)

end Sys2Proof.Machine
end

