-- ==== Sys2Proof/Machine/Test.lean ====
section
/-! DEFINITION. Clerk slice reset (R572, R574, R582) and the self-test and calibration requests (R589 to R592). -/
namespace Sys2Proof.Machine

/-! ### Clerk slice reset -/

/-- A clerk slice reset of one quad (R572, R574, R307): for 50 µs it takes no chunk and home operations for its sliver wait; its issued chunks
are issued again elsewhere and its local translations are gone. A home operation that had started is recorded or has written nothing, and
is answered once (log 88, DESIGN CHOICE). -/
def sliceReset (q : Nat) (s : State) : State :=
  let mine := (s.cle.chunks.filter fun p => p.2.state == 1 && p.2.quad == q).map (·.1)
  let s := { s with
    cle := { s.cle with inReset := tput s.cle.inReset q (s.now + usec 50) }
    tlb := { s.tlb with near := tdel s.tlb.near q }
    rst := { s.rst with sliceResets := s.rst.sliceResets + 1 } }
  settle (each mine reissueChunk s)

/-- QUAD_HANG (R582): a quad has a ready instruction and has retired none for 1 ms. -/
def execQuadHang (quad : Nat) (s : State) : Host.Outcome State Fault Refusal :=
  .next <| if nQuads s ≤ quad then s else sliceReset quad (countDetector 0 s)

/-- TST_SLICE_RESET (R572, R592). -/
def execTstSliceReset (q : Ask) (quad : Nat) (s : State) : Host.Outcome State Fault Refusal :=
  .next <| ask q 1 0xA00100 true (fun _ s =>
    if nQuads s ≤ quad then finish q 0xA00100 stBadValue [] s else finish q 0xA00100 stOk [] (sliceReset quad s)) s

/-! ### Recovery and cold reset by command -/

/-- TST_NODE_RECOVER (R583, R592): writing 1 starts a node recovery; the session ends. -/
def execTstNodeRecover (q : Ask) (value : Nat) (s : State) : Host.Outcome State Fault Refusal :=
  .next <| ask q 1 0xA00000 true (fun _ s =>
    if value != 1 then finish q 0xA00000 stBadValue [] s else beginRecovery 8 (finish q 0xA00000 stOk [] s)) s

/-- TST_COLD_RESET (R573, R592): writing 1 starts a cold reset. -/
def execTstColdReset (q : Ask) (value : Nat) (s : State) : Host.Outcome State Fault Refusal :=
  .next <| ask q 1 0xA00001 true (fun _ s =>
    if value != 1 then finish q 0xA00001 stBadValue [] s else startBoot (coldReset (finish q 0xA00001 stOk [] s))) s

/-! ### Self-test (R589) -/

/-- TST_RESULT of the last request: its kind (the low byte of its index), target, outcome (0 pass, 1 fail, 2 refused), time and
failures. -/
def testResult (kind target outcome failures : Nat) (s : State) : State :=
  { s with rst := { s.rst with result := [kind, target, outcome, s.now, failures] } }

/-- Answer a self-test request: refused where its target is absent or not drained, otherwise run with an outcome. -/
def selfTest (q : Ask) (kind target value failures : Nat) (present drained : Bool) (run : State → State) (s : State) : State :=
  let key := (0xA000 + kind) * 256 + (if kind = 3 then 0 else target)
  if !present then (if kind = 3 then finish q key stBadValue [] else refuse q stBadValue) (testResult kind target 2 0 s)
  else if value != 1 then finish q key stBadValue [] (testResult kind target 2 0 s)
  else if !drained then finish q key stNotDrained [] (testResult kind target 2 0 s)
  else finish q key stOk [] (testResult kind target (if failures = 0 then 0 else 1) failures (run s))

/-- Every lendable line and frame of a stack holds the all-zero codeword (R205, R589); critical words and structures are not touched. -/
def zeroStack (k : Nat) (s : State) : State :=
  { s with mem := { s.mem with
      data := s.mem.data.filter fun p => lineStack s (p.1 / 64) != k
      info := s.mem.info.filter fun p => lineStack s p.1 != k
      damage := s.mem.damage.filter fun p => lineStack s p.1 != k } }

/-- TST_STACK_BIST (R589): memory BIST of a drained stack; `failures` is what the test counts. -/
def execTstStackBist (q : Ask) (stack value failures : Nat) (s : State) : Host.Outcome State Fault Refusal :=
  .next <| ask q 1 (0xA00200 + stack) true (fun _ s =>
    selfTest q 2 stack value failures (decide (stack < nStacks s)) (isDrained s (stackOf s stack)) (zeroStack stack) s) s

/-- TST_QUAD_BIST (R589): vector datapath and chunk-buffer test of a quad of a drained stack. -/
def execTstQuadBist (q : Ask) (quad : Nat) (passed : Bool) (s : State) : Host.Outcome State Fault Refusal :=
  .next <| ask q 1 0xA00300 true (fun _ s =>
    selfTest q 3 quad 1 (if passed then 0 else 1) (decide (quad < nQuads s)) (isDrained s (stackOf s (quad / 64))) (fun s => s) s) s

/-- The port keys of a CXL port (R85). -/
def keysOf (s : State) (p : Nat) : List Nat := if isSplit s p then [p, p + 32] else [p]

/-- TST_CXL_HOLD with 1 (R590): the port takes the port reset of R110 and is kept held; BUSY while a logical device of it has an active
binding or a bound context. -/
def execTstCxlHold (q : Ask) (port : Nat) (s : State) : Host.Outcome State Fault Refusal :=
  .next <| ask q 1 (0xA00400 + port) true (fun _ s =>
    if 32 ≤ port || !portExists s port then refuse q stBadValue s
    else if (List.range 16).any fun ld => ldBound s port ld then finish q (0xA00400 + port) stBusy [] s
    else
      let s := each (keysOf s port) resetPort s
      let s := each (keysOf s port) (fun k s => setPort k { portOf s k with state := 0, held := true } s) s
      finish q (0xA00400 + port) stOk [] s) s

/-- TST_CXL_HOLD with 0 (R590): the port is released to train under R108. -/
def execTstCxlHoldRelease (q : Ask) (port : Nat) (s : State) : Host.Outcome State Fault Refusal :=
  .next <| ask q 1 (0xA00400 + port) true (fun _ s =>
    if 32 ≤ port || !portExists s port then refuse q stBadValue s
    else
      let s := each (keysOf s port) (fun k s =>
        let x := { portOf s k with held := false }
        let s := setPort k x s
        if x.state = 0 && !x.perst && portsReady s then trainPort k s else s) s
      finish q (0xA00400 + port) stOk [] s) s

/-- TST_CXL_MARGIN (R589): loopback and eye margin on each lane of a held port. -/
def execTstCxlMargin (q : Ask) (port value failures : Nat) (s : State) : Host.Outcome State Fault Refusal :=
  .next <| ask q 1 (0xA00500 + port) true (fun _ s =>
    selfTest q 5 port value failures (decide (port < 32) && portExists s port) (portOf s port).held (fun s => s) s) s

/-- TST_LINK_MARGIN (R589): loopback and eye margin on each lane of a disabled fabric port. -/
def execTstLinkMargin (q : Ask) (port value failures : Nat) (s : State) : Host.Outcome State Fault Refusal :=
  .next <| ask q 1 (0xA00600 + port) true (fun _ s =>
    selfTest q 6 port value failures (decide (port < 7)) (!bitOf (rMarPortEnable s) port) (fun s => s) s) s

/-- TST_NAND_CHANNEL (R589): retraining and interface test of a channel that is not in use. -/
def execTstNandChannel (q : Ask) (channel value failures : Nat) (s : State) : Host.Outcome State Fault Refusal :=
  .next <| ask q 1 (0xA00700 + channel) true (fun _ s =>
    selfTest q 7 channel value failures (decide (channel < 64)) (!s.car.tiered || tget 0 s.stk.chanState channel != 1) (fun s => s) s) s

end Sys2Proof.Machine
end

