-- ==== Sys2Proof/Machine/Sahtin.lean ====
section
/-! DEFINITION. Sahtin (17): the Ethernet port's steering and receive buffer (R508, R513 to R516), sessions (R517 to R519), RDMA
commands (R509 to R512), the control loop and the thermal comparators (R533 to R535), and stored writes (R543). -/
namespace Sys2Proof.Machine

/-! ### Ethernet frames (R507, R508) -/

def ethCount (i : Nat) (s : State) : State := { s with sah := { s.sah with ethStats := bump s.sah.ethStats i 1 } }
def rxCount (i : Nat) (s : State) : State := { s with sah := { s.sah with rxStats := bump s.sah.rxStats i 1 } }

/-- A field of a frame in network order. -/
def beAt (b : Bytes) (off w : Nat) : Nat := ((b.drop off).take w).foldl (fun a x => a * 256 + x.toNat) 0

/-- Bytes of the 802.1Q tag a frame carries (R507: untagged or one tag). -/
def tagLen (f : Bytes) : Nat := if beAt f 12 2 = 0x8100 then 4 else 0

/-- The VLAN of a frame; an untagged one is on VLAN 0 (log 89, DESIGN CHOICE). -/
def vlanOf (f : Bytes) : Nat := if beAt f 12 2 = 0x8100 then beAt f 14 2 % 4096 else 0

def etherType (f : Bytes) : Nat := beAt f (12 + tagLen f) 2

/-- Where the UDP header of an IPv4 or IPv6 frame begins, if it carries UDP. -/
def udpAt (f : Bytes) : Option Nat :=
  let ip := 14 + tagLen f
  if etherType f = 0x0800 then
    if beAt f (ip + 9) 1 = 17 then some (ip + 4 * (beAt f ip 1 % 16)) else none
  else if etherType f = 0x86DD then (if beAt f (ip + 6) 1 = 17 then some (ip + 40) else none)
  else none

/-- The base transport header of a frame to UDP port 4791 (R508). -/
def rocePort (f : Bytes) : Option Nat :=
  match udpAt f with | some u => if beAt f (u + 2) 2 = 4791 then some (u + 8) else none | none => none

/-- Whether a router marked a frame with congestion experienced in its IP header (R507). -/
def congested (f : Bytes) : Bool :=
  let ip := 14 + tagLen f
  if etherType f = 0x0800 then beAt f (ip + 1) 1 % 4 == 3 else beAt f (ip + 1) 1 / 16 % 4 == 3

/-- The management VLAN of SAH_ETH_ADDR (R538). -/
def managementVlan (s : State) : Nat := leAt s.sah.ethAddr 22 2

/-- Whether a frame's destination address is the node's, broadcast, or an ND multicast address (R508). -/
def addressedHere (f : Bytes) : Bool :=
  beAt f 0 6 == 0xFFFFFFFFFFFF || beAt f 0 3 == 0x3333FF || beAt f 0 6 == 0x333300000001 || beAt f 0 6 == Config.mac % 2 ^ 48

/-! ### The receive buffer (R513 to R516) -/

def bankBytes : Nat := 65536

/-- The slot a frame takes: 16 B of header and the frame, on a 64 B boundary. -/
def slotBytes (f : Bytes) : Nat := roundUp (16 + f.length) 64

/-- FULL (R515). -/
def setFull (s : State) : State :=
  { s with sah := { s.sah with full := s.sah.held && decide (bankBytes < s.sah.fillBytes + 9280) } }

/-- The banks swap when the other one is empty and the filling one holds a complete frame (R514). -/
def swapBanks (s : State) : State :=
  if s.sah.held || s.sah.fillFrames = 0 then setFull s
  else
    let s := rxCount 2 s
    setFull { s with sah := { s.sah with
      held := true, heldFrames := s.sah.fillFrames, heldBank := s.sah.frames, bankB := !s.sah.bankB, frames := [], fillFrames := 0
      fillBytes := 0 } }

/-- A frame is written to the filling bank behind its header of length, status (a free value: log 89, DESIGN CHOICE) and node time, or ignored whole
while FULL is set (R513, R515). -/
def toBuffer (f : Bytes) (s : State) : State :=
  if s.sah.full then
    assertSource 2 (rxCount 1 { s with sah := { s.sah with overrun := true } })
  else
    let slot := packLE [(2, f.length), (2, draw s), (4, 0), (8, s.now)] ++ f
    let s := drawn s
    let s := { s with sah := { s.sah with
      frames := s.sah.frames ++ [slot], fillFrames := s.sah.fillFrames + 1, fillBytes := s.sah.fillBytes + slotBytes f } }
    swapBanks (assertSource 1 (rxCount 0 s))

/-- FRAME_RECEIVED (R508): a frame is discarded and counted, handed to the RDMA engine, or written to the receive buffer. What a request
to the RDMA engine does is the command RDMA_WRITE or RDMA_READ; here a received CNP is counted, and a frame marked with congestion is
answered with a CNP (R507; log 114, PRESUMED). -/
def execFrameReceived (frame : Bytes) (fcsOk : Bool) (s : State) : Host.Outcome State Fault Refusal :=
  .next <|
    if s.rst.inReset then s
    else
      let s := ethCount 0 s
      if !fcsOk then ethCount 1 s
      else if 9216 < frame.length then ethCount 3 s
      else match rocePort frame with
      | some b =>
        if (tfind s.sah.qps (beAt frame (b + 5) 3)).isNone then ethCount 2 s
        else if beAt frame b 1 = 0x81 then ethCount 7 s
        else if congested frame then sendFrame (.rdma (beAt frame (b + 5) 3) 4 0 []) (ethCount 6 s)
        else s
      | none =>
        if etherType frame = 0x8808 && beAt frame (14 + tagLen frame) 2 = 0x0101 then ethCount 5 s
        else if vlanOf frame = managementVlan s && addressedHere frame then toBuffer frame s
        else ethCount 3 s

/-- BANK_RELEASE (R514, R515, R516): the held bank is empty again, FULL clears, and the banks swap at once if the filling one holds a
complete frame. -/
def execBankRelease (s : State) : Host.Outcome State Fault Refusal :=
  .next <|
    if !s.sah.held then s
    else
      let s := swapBanks { s with sah := { s.sah with held := false, heldFrames := 0, heldBank := [] } }
      if s.sah.held then s else deassertSource 1 s

/-- OVERRUN (R516): a write of 1 clears the flag. -/
def execOverrun (s : State) : Host.Outcome State Fault Refusal :=
  .next <| deassertSource 2 { s with sah := { s.sah with overrun := false } }

/-! ### Sessions (R517 to R519) -/

/-- The role, and a tenant's partition, that a client certificate gives (R479, R518). -/
def roleOf (s : State) (c : Cert) : Option (Nat × Nat) :=
  if c.root = s.sah.anchor then some (1, 0)
  else match s.lck.tenants.find? fun p => p.2 == c.digest with
  | some p => some (2, p.1)
  | none => if c.digest ∈ s.lck.observers then some (3, 0) else none

/-- DTLS_HANDSHAKE (R517 to R519): a session opens with the role of the client's certificate, or the handshake is refused. -/
def execDtlsHandshake (cert : Cert) (s : State) : Host.Outcome State Fault Refusal :=
  .next <|
    if !s.sah.up then s
    else if !cert.valid || s.sah.anchor.isEmpty || 32 ≤ s.sah.sessions.length then sendFrame (.dtls 0 false) s
    else match roleOf s cert with
    | none => sendFrame (.dtls 0 false) s
    | some r =>
      let n := s.sah.nextSession
      let x : Session := { role := r.1, part := r.2, digest := cert.digest, lastAt := s.now }
      sendFrame (.dtls n true) (setSession n x { s with sah := { s.sah with nextSession := n + 1 } })

/-- SESSION_IDLE_TIMEOUT (R519): a session silent for `SAH_SESSION_IDLE` is closed. -/
def execSessionIdleTimeout (sid : Nat) (s : State) : Host.Outcome State Fault Refusal :=
  .next <| match sessionOf s sid with
  | some x =>
    if x.lastAt + msec (1000 * rSahSessionIdle s) ≤ s.now then { s with sah := { s.sah with sessions := tdel s.sah.sessions sid } }
    else s
  | none => s

/-! ### RDMA commands (R509, R512, R538) -/

def keyQp : Nat := 0x880400
def keyRegion : Nat := 0x880401

/-- RDMA_QP_OPEN (R509, R537): a queue pair of the caller's partition opens; the local QP number is returned (log 90, DESIGN CHOICE). -/
def execRdmaQpOpen (q : Ask) (remoteAddr remoteQp mtu : Nat) (s : State) : Host.Outcome State Fault Refusal :=
  .next <| ask q 3 keyQp true (fun x s =>
    if mtu < 1024 || 4096 < mtu then finish q keyQp stBadValue [] s
    else match tfresh s.sah.qps 4096 1 with
    | none => finish q keyQp stBusy [] s
    | some n =>
      let p : Qp := { part := if x.role = 2 then x.part else 0, remoteAddr := remoteAddr, remoteQp := remoteQp, mtu := mtu }
      finish q keyQp stOk (toLE 4 n) { s with sah := { s.sah with qps := tput s.sah.qps n p } }) s

/-- RDMA_QP_CLOSE (R509): a queue pair closes; its drains end with REMOTE (R512). -/
def execRdmaQpClose (q : Ask) (qp : Nat) (s : State) : Host.Outcome State Fault Refusal :=
  .next <| ask q 3 keyQp true (fun x s =>
    match tfind s.sah.qps qp with
    | none => finish q keyQp stBadValue [] s
    | some p =>
      if !ownsPart x p.part then finish q keyQp stDenied [] s
      else
        let s := qpFails qp { s with sah := { s.sah with
          qps := tdel s.sah.qps qp, rdmaOps := s.sah.rdmaOps.filter fun o => o.2.qp != qp } }
        finish q keyQp stOk [] s) s

/-- RDMA_REGION_REGISTER (R509, R537): a region of whole 64 KiB; its R_Key is returned (log 90, DESIGN CHOICE). -/
def execRdmaRegionRegister (q : Ask) (base length part perms : Nat) (s : State) : Host.Outcome State Fault Refusal :=
  .next <| ask q 3 keyRegion true (fun x s =>
    if 64 ≤ part || 4 ≤ perms || length = 0 || length % 65536 != 0 || 2 ^ 62 < base + length then finish q keyRegion stBadValue [] s
    else if !ownsPart x part then finish q keyRegion stDenied [] s
    else match tfresh s.sah.regions 4096 1 with
    | none => finish q keyRegion stBusy [] s
    | some n =>
      let r : Region := { base := base, length := length, part := part, read := bitOf perms 0, write := bitOf perms 1 }
      finish q keyRegion stOk (toLE 4 n) { s with sah := { s.sah with regions := tput s.sah.regions n r } }) s

/-- RDMA_REGION_REMOVE (R509). -/
def execRdmaRegionRemove (q : Ask) (rkey : Nat) (s : State) : Host.Outcome State Fault Refusal :=
  .next <| ask q 3 keyRegion true (fun x s =>
    match tfind s.sah.regions rkey with
    | none => finish q keyRegion stBadValue [] s
    | some r =>
      if !ownsPart x r.part then finish q keyRegion stDenied [] s
      else finish q keyRegion stOk [] { s with sah := { s.sah with regions := tdel s.sah.regions rkey } }) s

/-- SAH_DRAIN (R512): a range of the queue pair's partition is copied to a remote target; BUSY at 64 drains. -/
def execSahDrain (q : Ask) (pga length qp addr rkey : Nat) (s : State) : Host.Outcome State Fault Refusal :=
  .next <| ask q 3 keyDrain true (fun x s =>
    match tfind s.sah.qps qp with
    | none => finish q keyDrain stBadValue [] s
    | some p =>
      if !ownsPart x p.part then finish q keyDrain stDenied [] s
      else if length = 0 || 2 ^ 62 < pga + length then finish q keyDrain stBadValue [] s
      else match tfresh s.sah.drains 64 0 with
      | none => finish q keyDrain stBusy [] s
      | some n =>
        let d : Drain := { ask := q, pga := pga, length := length, qp := qp, addr := addr, rkey := rkey, part := p.part }
        let s := rdmaCount 4 1 { s with sah := { s.sah with drains := tput s.sah.drains n d } }
        if p.error then drainEnds n stRemote d s else settle (drainRead n s)) s

/-- RDMA_WRITE (R509 to R511): a remote queue pair writes into a region: engine writes to the homes, acknowledged once every line is
applied, or a Remote Access Error NAK with nothing applied. -/
def execRdmaWrite (qp rkey va : Nat) (data : Bytes) (s : State) : Host.Outcome State Fault Refusal :=
  .next <| match tfind s.sah.qps qp with
  | none => s
  | some q =>
    match tfind s.sah.regions rkey with
    | none => rdmaNak qp va s
    | some r =>
      let pga := r.base + va
      if !rdmaAllowed q r va data.length false || rdmaWindow s pga then rdmaNak qp va s
      else if data.isEmpty then sendFrame (.rdma qp 0 va []) s
      else
        let parts := rdmaPieces data.length q.mtu
        let o := rdmaOpen { qp := qp, va := va, length := data.length, left := parts.length } s
        settle (each parts (fun p s =>
          let at_ := pga + p.1
          let skip := at_ % 64
          let lines := (skip + p.2 + 63) / 64
          let body := zeros skip ++ (data.drop p.1).take p.2
          engineWrite { kind := .rdma, a := o.1, b := p.1 } (at_ - skip) lines r.part 0
            (body ++ zeros (64 * lines - body.length)) ((2 ^ p.2 - 1) * 2 ^ skip) (rdmaPartner s at_) s) o.2)

/-- RDMA_READ (R510): a remote queue pair reads from a region by engine reads, or is answered with a NAK. -/
def execRdmaRead (qp rkey va length : Nat) (s : State) : Host.Outcome State Fault Refusal :=
  .next <| match tfind s.sah.qps qp with
  | none => s
  | some q =>
    match tfind s.sah.regions rkey with
    | none => rdmaNak qp va s
    | some r =>
      let pga := r.base + va
      if !rdmaAllowed q r va length true || rdmaWindow s pga then rdmaNak qp va s
      else if length = 0 then sendFrame (.rdma qp 1 va []) s
      else
        let skip := pga % 64
        let parts := rdmaPieces (skip + length) 4096
        let o := rdmaOpen { qp := qp, va := va, read := true, skip := skip, length := length, left := parts.length } s
        settle (each parts (fun p s =>
          engineRead { kind := .rdma, a := o.1, b := p.1 } (pga - skip + p.1) ((p.2 + 63) / 64) r.part 0
            (rdmaPartner s (pga - skip + p.1)) s) o.2)

/-- DRAIN_ACKNOWLEDGED (R512): the remote side acknowledges bytes of a drain, which completes OK when all are in; `ok` clear says that the
queue pair has entered its error state, which ends its drains with REMOTE. -/
def execDrainAcknowledged (drain bytes : Nat) (ok : Bool) (s : State) : Host.Outcome State Fault Refusal :=
  .next <| match tfind s.sah.drains drain with
  | none => s
  | some d =>
    if !ok then
      let s := match tfind s.sah.qps d.qp with
        | some p => { s with sah := { s.sah with qps := tput s.sah.qps d.qp { p with error := true } } }
        | none => s
      qpFails d.qp s
    else
      let d := { d with acked := min d.sent (d.acked + bytes) }
      let s := { s with sah := { s.sah with drains := tput s.sah.drains drain d } }
      if d.length ≤ d.acked then drainEnds drain stOk d s else settle (drainRead drain s)

/-! ### The control loop and the thermal comparators (R533 to R536) -/

/-- The highest sensor reading. -/
def hottest (temps : List Int) : Int := temps.foldl max (-274)

/-- A target that a dictionary entry of type I32 holds. -/
def tempOf (n : Nat) : Int := if n < 2 ^ 31 then n else (n : Int) - 2 ^ 32

/-- Whether no level change was requested in the last 100 ms: of one stack, or of any. -/
def quietStack (s : State) (k : Nat) : Bool := match tfind s.sah.lastLevel k with | some t => decide (t + msec 100 ≤ s.now) | none => true
def quietAll (s : State) : Bool := match s.sah.lastLevelReq with | some t => decide (t + msec 100 ≤ s.now) | none => true

/-- The loop requests a stack's level (R192, R193, R533); during the start-up hold none faster than level 1 (R581), and none of a drained stack (R198). -/
def loopLevel (k level : Nat) (s : State) : State := if isDrained s (stackOf s k) then s else requestLevel k level s

/-- The 47 schedulers (R429). -/
def allScheds : List Nat := List.range 47

/-- The loop sets one scheduler's throttle, never above its limit (R443, R533). -/
def loopThrottle (k v : Nat) (s : State) : State :=
  let s := setSched k { schedOf s k with throttle := min v (schedOf s k).throttleLimit } s
  { s with sah := { s.sah with lowestThrottle := min s.sah.lowestThrottle v } }

/-- Gate the quads that have been idle for 10 ms (R28, R534; how the loop sees it: log 82, DESIGN CHOICE). -/
def gateIdle (s : State) : State :=
  let idle := (List.range (nQuads s)).filter fun q =>
    quadLoad s q == 0 && decide (tget 0 s.sah.quadBusy q + msec 10 ≤ s.now) && !decide (q ∈ s.cle.gated)
  { s with cle := { s.cle with gated := s.cle.gated ++ idle } }

/-- Ungate quads while chunks wait (R534). -/
def ungateWaiting (s : State) : State :=
  if s.cle.chunks.any fun p => p.2.state == 0 then { s with cle := { s.cle with gated := [] } } else s

/-- The quads seen busy at this tick. -/
def noteBusy (s : State) : State :=
  let busy := ascending (s.cle.chunks.filterMap fun p => if p.2.state != 0 then some p.2.quad else none)
  { s with sah := { s.sah with quadBusy := busy.foldl (fun t q => tput t q s.now) s.sah.quadBusy } }

/-- Stacks cool enough to run faster, and since when (R534). -/
def noteCool (target : Int) (s : State) : State :=
  { s with sah := { s.sah with coolSince := (List.range (nStacks s)).foldl (fun t k =>
      if (stackOf s k).temp < target - 5 then (if (tfind t k).isSome then t else tput t k s.now) else tdel t k) s.sah.coolSince } }

/-- The part of the loop that sheds power (R534). -/
def loopShed (s : State) : State :=
  let quiet := quietAll s
  let s := gateIdle s
  if quiet then
    each (List.range (nStacks s)) (fun k s => if (stackOf s k).level < 2 then loopLevel k ((stackOf s k).level + 1) s else s) s
  else each allScheds (fun k s =>
    let t := (schedOf s k).throttle
    if 10 < t then loopThrottle k (max (t - 5) 10) s else s) s

/-- The part of the loop that restores power (R534). -/
def loopRestore (s : State) : State :=
  let low := allScheds.filter fun k => decide ((schedOf s k).throttle < (schedOf s k).throttleLimit)
  let s := if !low.isEmpty then each low (fun k s => loopThrottle k ((schedOf s k).throttle + 5) s) s
    else each (List.range (nStacks s)) (fun k s =>
      let x := stackOf s k
      let cool := match tfind s.sah.coolSince k with | some t => decide (t + msec 1000 ≤ s.now) | none => false
      let hold := s.rst.holdEnd != 0 && decide (x.level ≤ 1)
      if x.limit < x.level && cool && quietStack s k && !hold then loopLevel k (x.level - 1) s else s) s
  ungateWaiting s

/-- Stack heat (R534): a stack above its target goes one level slower. -/
def loopHeat (target : Int) (s : State) : State :=
  each (List.range (nStacks s)) (fun k s =>
    let x := stackOf s k
    if target < x.temp && x.level < 2 && quietStack s k then loopLevel k (x.level + 1) s else s) s

/-- LOOP_TICK (R533, R534): core 1's control loop runs once, with the latest power and die temperatures; HEARTBEAT advances, and after 10
runs since a restart the watchdog cause of the safe level is cleared (R444). -/
def execLoopTick (power : Nat) (temps : List Int) (s : State) : Host.Outcome State Fault Refusal :=
  .next <|
    if !bitOf s.sah.coresUp 1 then s
    else
      let tj := hottest temps
      let target := tempOf (rSahHbmTarget s)
      let tjTarget := tempOf (rSahTjTarget s)
      let isOver := decide (rSahPowerCap s < power) || decide (tjTarget < tj)
      let s := assertSource 8 <| noteCool target (noteBusy { s with sah := { s.sah with
        power := power, temps := (List.range temps.length).map fun i => (i, temps.getD i 0), isOver := isOver, ticks := s.sah.ticks + 1 } })
      let s := if isOver then loopShed s
        else if power * 100 < rSahPowerCap s * 95 && tj < tjTarget - 3 then loopRestore s
        else s
      let s := loopHeat target s
      { s with
        cxl := { s.cxl with heartbeat := s.cxl.heartbeat + 1 }
        wgh := { s.wgh with
          loopRuns := s.wgh.loopRuns + 1
          watchdogCause := s.wgh.watchdogCause && s.wgh.loopRuns + 1 != 10 } }

/-- THERMAL_COMPARE (R535): the hardware compares every die sensor with the fused thresholds: THERMAL_WARN at 105 °C; at 120 °C
THERMTRIP_N is asserted and the node held in cold reset until power is removed. -/
def execThermalCompare (temps : List Int) (s : State) : Host.Outcome State Fault Refusal :=
  .next <|
    let s := { s with sah := { s.sah with temps := (List.range temps.length).map fun i => (i, temps.getD i 0) } }
    if temps.any fun t => decide (120 ≤ t) then
      coldReset { s with
        sah := { s.sah with tripped := true }
        rst := { s.rst with thermtripN := false, faultN := false, ready := false } }
    else if temps.any fun t => decide (105 ≤ t) then latchAlert 0 (assertSource 16 s)
    else s

/-! ### Stored writes, alerts, declaration, wall time (R543, R548, R551, R580) -/

/-! ### A Sahtin restart begins (R562, R567, R568) -/

/-- Sahtin's cores 0 to 3 stop for a restart of a kind of `Fw.update` that ends no earlier than `due`: sessions end, management SRAM is
cleared (R506, R519), and the watchdog is suspended. RDMA, stored writes and the datapath go on (R568). -/
def firmwareStops (kind due : Nat) (s : State) : State :=
  let sic := s.evt.sic.map fun p => (p.1, { p.2 with stack := [], halted := false })
  let fw := { s.fw with update := kind, restartDue := due, waiting := none, wdSuspended := true, kickDue := [], stopCore := [] }
  let sah := { s.sah with
    up := false, coresUp := s.sah.coresUp / 16 * 16, sessions := [], bankB := false
    held := false, full := false, overrun := false, heldFrames := 0, fillFrames := 0, fillBytes := 0, frames := [], heldBank := [] }
  { s with sah := sah, fw := fw, evt := { s.evt with sic := sic } }

/-- The image in service writes the handoff record, and the cores restart under the 500 ms handoff timer (R562 t1 and t2, R567). -/
def handOver (kind reason : Nat) (s : State) : State :=
  let s := firmwareStops kind (s.now + msec 150) (writeHandoff reason s)
  { s with fw := { s.fw with handoffDue := some (s.now + msec 520) } }

/-- FW_UPDATE action 2 proceeds (R562): the warden receives OK, and the node is updating firmware. -/
def beginUpdate (q : Ask) (s : State) : State :=
  let s := handOver 1 1 (finish q 0x882200 stOk [] s)
  { s with rst := { s.rst with nodeState := if s.rst.nodeState = 1 then 3 else s.rst.nodeState } }

/-- An activation that waited for stored writes goes on once none is in progress (R562). -/
def afterStored (s : State) : State :=
  match s.fw.waiting with
  | some q => if s.sah.stored.isEmpty then beginUpdate q s else s
  | none => s

/-- STORED_WRITE_COMPLETE (R543): both copies of the configuration store hold the oldest stored write, which is answered OK. A route reset
clears the stored routes (R351). -/
def execStoredWriteComplete (s : State) : Host.Outcome State Fault Refusal :=
  .next <| match s.sah.stored with
  | [] => s
  | w :: rest =>
    let s := { s with sah := { s.sah with stored := rest } }
    let k := storeKey w.key w.sel
    let bytes := w.key = 0x111001 || w.key / 256 = 0x7004 || w.key = 0x700500 || w.key = 0x880101 || w.key = 0x880300 ||
      w.key = 0x480100
    let s := if bytes then { s with storeBlobs := tput s.storeBlobs k w.blob } else { s with store := tput s.store k w.value }
    afterStored (finish w.ask w.key stOk [] s)

/-- SAH_ALERT_CLEAR (R544, R548): each bit of 3:0 written as 1 clears the matching latch of the privileged view. -/
def execSahAlertClear (q : Ask) (value : Nat) (s : State) : Host.Outcome State Fault Refusal :=
  .next <| ask q 1 0x000102 true (fun _ s =>
    if 255 < value then finish q 0x000102 stBadValue [] s
    else
      let a := [0, 1, 2, 3].foldl (fun a i => if bitOf value i then clearBit a i else a) s.cxl.alerts
      finish q 0x000102 stOk [] { s with cxl := { s.cxl with alerts := a } }) s

/-- Whether host software of a version is compatible with the image in service (R550). -/
def compatible (s : State) (major minor : Nat) : Bool :=
  let v := fwVersion s
  major == bits v 32 8 && decide (bits v 48 8 ≤ minor) && decide (minor ≤ bits v 40 8)

/-- FW_HOST_DECLARE (R551, R552): the declaration is recorded for the session, and answered OK or INCOMPATIBLE. A refused session may
declare again. -/
def execFwHostDeclare (q : Ask) (major minor : Nat) (name : Bytes) (s : State) : Host.Outcome State Fault Refusal :=
  .next <| ask q 3 0x000201 false (fun x s =>
    if 255 < major || 255 < minor || 255 < name.length then finish q 0x000201 stBadValue [] s
    else
      let ok := compatible s major minor
      finish q 0x000201 (if ok then stOk else stIncompatible) []
        (setSession q.sid { x with declared := some (major, minor, if ok then 0 else 1) } s)) s

/-- SAH_WALL_TIME (R544, R580): wall time is set, and advances with node time. -/
def execSahWallTime (q : Ask) (value : Nat) (s : State) : Host.Outcome State Fault Refusal :=
  .next <| ask q 1 0x000301 true (fun _ s =>
    if 2 ^ 64 ≤ value then finish q 0x000301 stBadValue [] s
    else finish q 0x000301 stOk [] { s with sah := { s.sah with wall := value, wallAt := s.now } }) s

end Sys2Proof.Machine
end

