-- ==== Sys2Proof/Machine/Weigh.lean ====
section
/-! DEFINITION. The Weigh-house (14): the choice of the next transfer, rate buckets, the calendar wheel, gates and the safe
level. Credits are counted in units of 2^-16 B. -/
namespace Sys2Proof.Machine

/-! ### Rates and lengths (R429, R430) -/

/-- Rate of a pseudo-channel at a level, in MB/s (R191, R429). -/
def pcRate (level : Nat) : Nat := if level = 0 then 40320 else if level = 1 then 33600 else 25200

/-- The resource rate of a scheduler in MB/s (R429). -/
def resourceRate (s : State) (k : Nat) : Nat :=
  if k < 16 then 64 * pcRate (levelNow s (stackOf s k)) else if k < 23 then 800000 else 128000

/-- The transfer rate for guard bands in MB/s (R429). -/
def transferRate (s : State) (k : Nat) : Nat :=
  if k < 16 then pcRate (levelNow s (stackOf s k)) else if k < 23 then 800000 else 128000

/-- The longest payload of a scheduler (R429). -/
def longestPayload (k : Nat) : Nat := if 16 ≤ k && k < 23 then 1024 else 64

/-- The longest length of a class at a scheduler (R437). -/
def longestLen (k : Nat) (w : WClass) : Nat := longestPayload k + w.overhead

/-- The guard band of a class in ns (R441). -/
def guardBand (s : State) (k : Nat) (w : WClass) : Nat :=
  (longestLen k w * 1000 + transferRate s k - 1) / transferRate s k

/-- The counted length of a transfer (R430). -/
def itemLen (w : WClass) (i : QItem) : Nat := i.len + w.overhead

/-- Bytes as credit. -/
def credits (n : Nat) : Nat := n * 65536

/-- Credit of one refill at a rate in MB/s: rate × 64 ns with a fractional part of 16 bits (R436). -/
def refillOf (rate : Nat) : Nat := rate * 64 * 65536 / 1000

/-! ### Gates (R440 to R442) -/

/-- The cycle of a gate list in ns. -/
def gateCycle (l : List Nat) : Nat := l.foldl (fun a e => a + bits e 0 16 * 64) 0

/-- How far time `t` lies into the cycle of a list with a base (R440). -/
def gatePhase (l : List Nat) (base t : Nat) : Nat :=
  let c := gateCycle l
  if c = 0 then 0 else if base ≤ t then (t - base) % c else (c - (base - t) % c) % c

/-- Index of the entry in force at a phase, and the time left in it. -/
def gateAt : List Nat → Nat → Nat → Nat × Nat
  | [], i, _ => (i, 0)
  | e :: es, i, ph => if ph < bits e 0 16 * 64 then (i, bits e 0 16 * 64 - ph) else gateAt es (i + 1) (ph - bits e 0 16 * 64)

/-- How long, up to `need`, a class's gate stays open over consecutive entries. -/
def openRun : List Nat → Nat → Nat → Nat
  | [], _, _ => 0
  | e :: es, c, need =>
    if !bitOf e (14 + c) then 0
    else if need ≤ bits e 0 16 * 64 then bits e 0 16 * 64 else bits e 0 16 * 64 + openRun es c (need - bits e 0 16 * 64)

/-- The gate list in force and its base: a new list from the time it takes effect (R442). -/
def gatesOf (s : State) (x : Sched) : List Nat × Nat :=
  match x.nextGates with
  | some g => if x.nextAt ≤ s.now then g else (x.gates, x.gateBase)
  | none => (x.gates, x.gateBase)

/-- Whether a class's gate stays open from now for at least its guard band (R441). -/
def gateOpen (s : State) (k c : Nat) (x : Sched) : Bool :=
  let l := gatesOf s x
  if l.1.isEmpty then true
  else
    let guard := guardBand s k (classOf x c)
    let g := gateAt l.1 0 (gatePhase l.1 l.2 s.now)
    if !bitOf (l.1.getD g.1 0) (14 + c) then false
    else decide (guard ≤ g.2 + openRun (l.1.drop (g.1 + 1) ++ l.1 ++ l.1) c (guard - g.2))

/-! ### The choice (R433 to R435) -/

/-- The throttle percentage in force (R443). -/
def throttleOf (s : State) (x : Sched) : Nat :=
  if s.wgh.safeInForce then min x.throttle (rWghSafePercent s) else x.throttle

/-- Whether a transfer's resource can take it (R433). -/
def itemReady (s : State) (k : Nat) (i : QItem) : Bool :=
  if 16 ≤ k && k < 23 then
    let l := linkOf s (k - 16)
    l.state == 3 && decide (i.need + (l.outq.filter fun x => x.flit.vc == i.vc).length ≤ creditsOf l i.vc)
  else if k < 16 then stackServes s k
  else true

/-- Whether the bucket of a class holds its head's length (R434). -/
def bucketHolds (w : WClass) (n : Nat) : Bool := w.rate == 0 || decide (credits n ≤ w.credit)

/-- Whether a weighted class is eligible (R434), apart from its bucket. -/
def eligibleBut (s : State) (k c : Nat) (x : Sched) (w : WClass) (i : QItem) : Bool :=
  itemReady s k i && w.wheel.isNone && gateOpen s k c x &&
  (decide (100 ≤ throttleOf s x) || decide (credits (itemLen w i) ≤ x.tcredit))

/-- The slot at which a class held only for credit is entered on the wheel (R439). -/
def wheelSlot (s : State) (w : WClass) (n : Nat) : Nat :=
  let r := max 1 (refillOf w.rate)
  s.now / 64 + min 4095 (((credits n - w.credit) + r - 1) / r)

/-- Take the head of a class's queue: counted, and sent on its link where the resource is a fabric port. -/
def takeHead (k c : Nat) (s : State) : State :=
  let w := classOf (schedOf s k) c
  match w.queue with
  | [] => s
  | i :: rest =>
    let s := setClass k c { w with queue := rest, transfers := w.transfers + 1, bytes := w.bytes + itemLen w i } s
    let s := match i.pkt with
      | some p => linkSend (k - 16) p i.vc c s
      | none => s
    match s.mar.portWait.find? fun e => decide (16 ≤ k) && e.1 == k - 16 && e.2.2 == c with
    | none => s
    | some e =>
      enqueue k c e.2.1
        { s with mar := { s.mar with portWait := s.mar.portWait.erase e } }

/-- One class of the weighted loop of R435: whether it is taken, with the class's new state. -/
def weighClass (s : State) (k c : Nat) (x : Sched) : Bool × Sched :=
  let w := classOf x c
  match w.queue with
  | [] => (false, { x with cls := tput x.cls c { w with deficit := 0, visited := false } })
  | i :: _ =>
    let n := itemLen w i
    let base := eligibleBut s k c x w i
    if base && bucketHolds w n then
      let w := if w.visited then w else { w with deficit := w.deficit + w.weight * 256, visited := true }
      if n ≤ w.deficit then
        (true, { x with
          cls := tput x.cls c { w with deficit := w.deficit - n,
                                       credit := if 0 < w.rate then w.credit - credits n else w.credit },
          tcredit := if throttleOf s x < 100 then x.tcredit - credits n else x.tcredit })
      else (false, { x with cls := tput x.cls c { w with visited := false } })
    else
      let w := { w with visited := false }
      let w := if base then { w with wheel := some (wheelSlot s w n), creditHolds := w.creditHolds + 1 }
        else if !gateOpen s k c x then { w with gateHolds := w.gateHolds + 1 } else w
      (false, { x with cls := tput x.cls c w })

/-- The weighted loop of R435: at most six classes from `ptr` on; the class taken, and the scheduler after. -/
def weighLoop (s : State) (k : Nat) : Nat → Sched → Option Nat × Sched
  | 0, x => (none, x)
  | fuel + 1, x =>
    let c := x.ptr
    let r := weighClass s k c x
    if r.1 then (some c, r.2)
    else weighLoop s k fuel { r.2 with ptr := if c = 7 then 2 else c + 1 }

/-- Whether the head of a strict class is ready. -/
def strictReady (s : State) (k c : Nat) : Bool :=
  match (classOf (schedOf s k) c).queue with
  | [] => false
  | i :: _ => itemReady s k i

/-- SCHEDULER_SELECT (R435): one issue opportunity. -/
def execSchedulerSelect (sched : Nat) (s : State) : Host.Outcome State Fault Refusal :=
  .next <| returnCredits <| if 47 ≤ sched then s
    else if strictReady s sched 0 then takeHead sched 0 s
    else if strictReady s sched 1 then takeHead sched 1 s
    else
      let r := weighLoop s sched 6 (schedOf s sched)
      let s := setSched sched r.2 s
      match r.1 with
      | some c => takeHead sched c s
      | none => s

/-! ### Refill and wheel (R436, R439, R443 to R445) -/

/-- One class at a refill, `n` slots after the last: changes take effect, then the bucket is filled (R436, R445). -/
def refillClass (s : State) (n : Nat) (w : WClass) : WClass :=
  let changed := w.rate != w.nextRate || w.overhead != w.nextOverhead || w.burst != w.nextBurst
  let w := { w with weight := w.nextWeight, rate := w.nextRate, burst := w.nextBurst, overhead := w.nextOverhead,
                    credit := min w.credit (credits w.nextBurst) }
  let w := if w.rate = 0 then { w with wheel := none }
    else { w with credit := min (w.credit + n * refillOf w.rate) (credits w.burst) }
  if changed && w.wheel.isSome then
    match w.queue with
    | i :: _ => { w with wheel := some (wheelSlot s w (itemLen w i)) }
    | [] => { w with wheel := none }
  else w

/-- The longest length of any class at a scheduler. -/
def longestOf (k : Nat) (x : Sched) : Nat := x.cls.foldl (fun a p => max a (longestLen k p.2)) 0

/-- The safe level at a refill (R444). -/
def refillSafe (s : State) : State :=
  let w := s.wgh
  let dog := (w.watchdogCause && !w.clearEvent) || w.watchdogEvent
  let priv := (w.privCause && !w.clearEvent) || w.privEvent
  { s with wgh := { w with watchdogCause := dog, privCause := priv, watchdogEvent := false, privEvent := false,
                           clearEvent := false, safeInForce := dog || priv } }

/-- The schedulers that a refill visits: all 47 while the safe level is in force, since each then fills its throttle bucket; one without a
record has nothing else that a refill changes. -/
def refillTable (s : State) : Tbl Sched :=
  if s.wgh.safeInForce then
    (List.range 47).map fun k => (k, (tfind s.wgh.sched k).getD { freshSched k with lastSlot := s.now / 64 - 1 })
  else s.wgh.sched

/-- REFILL (R436, R443, R445): the slots since the last refill have started at every scheduler. -/
def execRefill (s : State) : Host.Outcome State Fault Refusal :=
  .next <|
    let s := refillSafe s
    { s with wgh := { s.wgh with sched := (refillTable s).map fun p =>
      let x := p.2
      let n := s.now / 64 - x.lastSlot
      if n = 0 then p
      else
        let x := { x with cls := x.cls.map fun q => (q.1, if q.1 < 2 then q.2 else refillClass s n q.2), lastSlot := s.now / 64 }
        let per := refillOf (resourceRate s p.1) * throttleOf s x / 100
        (p.1, if throttleOf s x < 100 then
            { x with tcredit := min (x.tcredit + n * per) (credits (4 * longestOf p.1 x)) } else x) } }

/-- WHEEL_SLOT (R439): the slot of a class on the wheel has come; it is examined again, or entered again when its credit
still falls short. -/
def execWheelSlot (sched cls : Nat) (s : State) : Host.Outcome State Fault Refusal :=
  .next <|
    let w := classOf (schedOf s sched) cls
    match w.wheel with
    | none => s
    | some slot =>
      if s.now / 64 < slot then s
      else match w.queue with
        | [] => setClass sched cls { w with wheel := none } s
        | i :: _ =>
          if bucketHolds w (itemLen w i) then setClass sched cls { w with wheel := none } s
          else setClass sched cls { w with wheel := some (wheelSlot s w (itemLen w i)) } s

/-- GATE_ENTRY (R440, R442): a gate entry begins; a new list takes effect when its time has come. -/
def execGateEntry (sched : Nat) (s : State) : Host.Outcome State Fault Refusal :=
  .next <|
    let x := schedOf s sched
    let x := match x.nextGates with
      | some g => if x.nextAt ≤ s.now then { x with gates := g.1, gateBase := g.2, nextGates := none } else x
      | none => x
    setSched sched { x with gateIdx := (gateAt x.gates 0 (gatePhase x.gates x.gateBase s.now)).1 } s

/-! ### Settings (R437, R442, R444, R448) -/

/-- WGH_BURST (R437) on a class of the scheduler of `WGH_SELECT`. -/
def execWghBurst (q : Ask) (cls value : Nat) (s : State) : Host.Outcome State Fault Refusal :=
  .next <| ask q 1 0x600300 true (fun x s =>
    let k := selectOf x 0x600000 0
    let w := classOf (schedOf s k) cls
    if cls < 2 || 7 < cls then finish q 0x600300 stAbsent [] s
    else if 16777216 < value || value < longestPayload k + w.nextOverhead then finish q 0x600300 stBadValue [] s
    else finish q 0x600300 stOk [] (setClass k cls { w with nextBurst := value } s)) s

/-- WGH_OVERHEAD (R437): refused when it would raise the longest length above the burst. -/
def execWghOverhead (q : Ask) (cls value : Nat) (s : State) : Host.Outcome State Fault Refusal :=
  .next <| ask q 1 0x600400 true (fun x s =>
    let k := selectOf x 0x600000 0
    let w := classOf (schedOf s k) cls
    if cls < 2 || 7 < cls then finish q 0x600400 stAbsent [] s
    else if 255 < value || w.nextBurst < longestPayload k + value then finish q 0x600400 stBadValue [] s
    else finish q 0x600400 stOk [] (setClass k cls { w with nextOverhead := value } s)) s

/-- When a change of gates takes effect (R442): at the next cycle start of the list in force, or else of the new one. -/
def gateChangeAt (s : State) (x : Sched) (l : List Nat) (base : Nat) : Nat :=
  let start := fun (g : List Nat) (b : Nat) =>
    let c := gateCycle g
    if c = 0 then s.now else s.now + (c - gatePhase g b s.now) % c
  let g := gatesOf s x
  if gateCycle g.1 = 0 then start l base else start g.1 g.2

/-- The entries of a gate list record, reserved bits cleared (R8, R440). -/
def gateEntries (b : Bytes) : List Nat :=
  (List.range (leAt b 0 1)).map fun i => bits (leAt b (1 + 4 * i) 4) 0 22

/-- WGH_GATE_LIST (R440, R442) on the scheduler of `WGH_SELECT`. -/
def execWghGateList (q : Ask) (list : Bytes) (s : State) : Host.Outcome State Fault Refusal :=
  .next <| ask q 1 0x600500 true (fun x s =>
    let k := selectOf x 0x600000 0
    let l := gateEntries list
    if list.length != 257 || 64 < leAt list 0 1 || (l.any fun e => bits e 0 16 == 0) then
      finish q 0x600500 stBadValue [] s
    else
      let d := schedOf s k
      finish q 0x600500 stOk [] (setSched k { d with
        gates := (gatesOf s d).1, gateBase := (gatesOf s d).2
        setGates := l, nextGates := some (l, d.setBase), nextAt := gateChangeAt s d l d.setBase } s)) s

/-- WGH_SAFE_CLEAR (R444): both causes are cleared, and the safe level leaves force at the next refill. -/
def execWghSafeClear (q : Ask) (value : Nat) (s : State) : Host.Outcome State Fault Refusal :=
  .next <| ask q 1 0x600604 true (fun _ s =>
    if value != 1 then finish q 0x600604 stBadValue [] s
    else finish q 0x600604 stOk [] { s with wgh := { s.wgh with
      clearEvent := true, watchdogCause := false, privCause := false, watchdogEvent := false, privEvent := false } }) s

end Sys2Proof.Machine
end

