-- ==== Sys2Proof/Machine/Records.lean ====
section
/-! DEFINITION. The values that dictionary entries return (R540 to R547): record layouts, counts, statistics, the SUMMARY record, the use
of the finite resources (R609). -/
namespace Sys2Proof.Machine

/-! ### Record layouts -/

/-- Fields of a 64-bit word, from bit 0 up. -/
def word8 (fs : List (Nat × Nat)) : Bytes := toLE 8 (packBits fs)

/-- Numbers of one width in bytes, in order. -/
def rowOf (w : Nat) (l : List Nat) : Bytes := l.flatMap (toLE w)

/-- A signed value of 32 bits (R12). -/
def int32 (t : Int) : Bytes := toLE 4 (t % 2 ^ 32).toNat

/-- BLOB and STR values (R540). -/
def blobOf (b : Bytes) : Bytes := toLE 2 b.length ++ b
def strOf (b : Bytes) : Bytes := toLE 1 b.length ++ b

/-- A lending-book entry (R54); a home's TARGET names its twin partner. COUNT is shown live: the spec leaves open when it is written back from
the entry cache (log 124, DESIGN CHOICE). -/
def bookBytes (s : State) (n : Nat) : Bytes :=
  let e := bookOf s n
  let home := e.kind == 1
  let target := if home then (match twinOf s n with | some t => t.partner | none => 0) else e.target
  packLE [(4, packBits [(2, e.kind), (3, e.state), (6, e.part), (1, b2n e.read), (1, b2n e.write), (4, e.view), (1, b2n e.window),
      (2, e.twin), (1, b2n e.ilv)]), (4, if e.kind = 0 then tget 0 s.pga.gens n else e.gen), (8, e.base), (8, e.length), (8, target),
    (2, if home then 0 else packBits [(5, e.port), (4, e.ld), (3, e.region)]), (2, 0), (4, e.count),
    (8, if e.state = 5 then e.forward else 0), (8, if e.kind = 0 then tget 0 s.pga.freed n else e.stamp), (8, 0)]

/-- The Ledger entry of a PGA's line (R120) and its overflow holder records; OVF_PTR names the first block of its chain while OVF is set. A line
that is not tracked, or not this node's, reads as a free entry (R149; log 132, DESIGN CHOICE). -/
def ledgerBytes (s : State) (pga : Nat) : Bytes :=
  let line := pgaDpa pga / 64
  match (if pgaCoord pga = hereAt s then entryOf s line else none) with
  | none => zeros 32
  | some e =>
    let hs := e.holders.map (·.1)
    let ovf := decide (2 < hs.length)
    word8 [(44, line), (2, if e.owned then 2 else 1), (1, b2n ovf), (1, 0), (8, hs.length)] ++
    word8 [(16, e.touch), (26, e.chain.headD 0)] ++
    packLE [(8, hs.getD 0 0), (8, hs.getD 1 0)] ++ rowOf 8 (hs.drop 2)

/-- The tag record of a block of this node (R156, R183), or zeros when it is not cached, or another node's. -/
def tagBytes (s : State) (pga : Nat) : Bytes :=
  let b := pgaDpa pga / 65536
  match (if pgaCoord pga = hereAt s then frameOf s b else none) with
  | none => zeros 160
  | some f =>
    word8 [(34, b), (3, f.state), (6, f.part), (1, b2n f.pinned), (1, b2n f.staged), (1, b2n f.fillErr)] ++
    word8 [(16, f.touch), (10, f.stageLine), (6, 0), (32, f.stageTime)] ++
    packLE [(8, f.unitGen), (8, 0), (128, f.dirty.foldl setBit 0)]

/-- A stream record (R171); one not allocated is free. -/
def streamBytes (s : State) (n : Nat) : Bytes :=
  let x := (tfind s.car.streams n).getD { state := 0 }
  packLE [(4, packBits [(2, x.state), (6, x.part), (1, b2n x.loop), (1, x.source), (6, 0), (16, x.haltCause)]), (4, x.bind),
    (8, x.list), (8, x.listCount), (8, x.lookahead), (8, x.position), (8, x.stagedTo), (8, x.passes), (8, 0)]

/-- A group record (R223). -/
def groupBytes (s : State) (g : Nat) : Bytes :=
  let x := groupOf s g
  packLE [(4, packBits [(3, x.state), (4, x.planeBad), (4, x.cause), (13, (liveUnits s g).length)]), (4, x.erases), (8, x.reads),
    (8, x.programTime), (8, x.firstSeq), (8, x.lastSeq), (4, x.soft), (20, 0)] ++
  rowOf 2 ((List.range 64).map fun i => tget 0 x.err i)

/-- A Tally-book entry (R254). -/
def tlbBytes (s : State) (n : Nat) : Bytes :=
  match tfind s.tlb.entries n with
  | none => zeros 32
  | some e =>
    word8 [(2, e.state), (2, e.size), (1, b2n e.read), (1, b2n e.write), (2, 0), (12, e.ctx), (12, 0), (16, e.touch)] ++
    packLE [(8, e.cva), (8, e.hpa), (8, packBits [(20, e.pasid), (5, e.port), (4, e.ld)])]

/-- A context record (R273, R364). -/
def ctxBytes (s : State) (n : Nat) : Bytes :=
  let c := (tfind s.cle.ctxs n).getD {}
  packLE [(4, packBits [(2, c.state), (1, b2n c.assigned), (6, c.part), (7, 0), (16, c.haltCode)]),
    (4, packBits [(20, c.pasid), (5, c.port), (4, c.ld)]), (8, c.sqBase), (8, c.cqBase),
    (4, packBits [(8, c.sqOrder), (8, c.cqOrder), (11, c.vector)]), (4, c.jobLimit), (8, c.completed), (8, 0),
    (16, putBits c.fabric 32 8 c.slice)]

/-- A twin record (R401). -/
def twinBytes (s : State) (n : Nat) : Bytes :=
  match twinOf s n with
  | none => zeros 64
  | some t =>
    packLE [(4, packBits [(2, t.role), (3, t.state), (1, b2n t.full), (2, 0), (12, t.partner)]), (4, n), (8, t.pos), (8, t.changed.length),
      (8, t.lastOrder), (8, t.stateTime), (8, t.divergences), (16, 0)]

/-- Bytes of home ranges of a partition. -/
def homeBytes (s : State) (p : Nat) : Nat := (homesOf s p).foldl (fun a h => a + h.2.length) 0

/-- A partition record (R460). -/
def partBytes (s : State) (p : Nat) : Bytes :=
  let x := partOf s p
  packLE [(4, packBits [(3, x.state), (13, 0), (16, x.current)]), (4, packBits [(16, x.previous), (3, x.sweepStep)]), (8, x.rekeyLines),
    (8, x.rekeyUnits), (8, x.sweepPos), (8, x.rotateTime), (8, homeBytes s p), (4, x.rekeyFails), (12, 0)]

/-- The handoff record (R563); the DRAM addresses it holds are the firmware's own (log 5, DESIGN CHOICE). -/
def handoffBytes (s : State) : Bytes :=
  let h := s.fw.handoff
  let body := packLE [(2, h.ver), (1, h.reason), (1, 0), (4, 52), (8, h.fromVersion), (8, h.time), (8, draw s), (8, Config.fresh (s.fresh + 1)),
    (8, Config.fresh (s.fresh + 2))]
  body ++ toLE 4 (if h.crcOk then crc32c body else Config.fresh (s.fresh + 3))

/-! ### The SUMMARY record (R545 to R547) -/

/-- Partitions that are not free. -/
def activeParts (s : State) : List Nat := (s.lck.parts.filter fun p => p.2.state != 0).map (·.1)

/-- Free bytes of DPA space (R78). -/
def freeBytes (s : State) : Nat := lendableBytes s - (s.pga.book.filter fun p => p.2.kind == 1).foldl (fun a p => a + p.2.length) 0

/-- The header's fields after SUMMARY_SEQ; those whose source entry a tenant may not read are 0 for a tenant (R547). -/
def summaryHeader (s : State) (tenant : Bool) : Bytes :=
  let hide := fun (n : Nat) => if tenant then 0 else n
  let ups := s.cxl.ports.foldl (fun a p => if p.1 < 24 && p.2.state == 2 then setBit a p.1 else a) 0
  let links := (List.range 7).foldl (fun a p => if portUp s p then setBit a p else a) 0
  let degraded := (s.twn.recs.filter fun p => p.2.state == 3 || p.2.state == 4 || p.2.state == 6).length
  packLE [(8, fwVersion s)] ++
  word8 [(16, 0x4800), (8, s.asm.hbmStacks), (8, s.asm.dies), (12, hereAt s), (4, 0), (11, nStacks s * 64)] ++
  word8 [(3, s.rst.nodeState), (1, b2n s.car.tiered), (4, hide s.cxl.alerts), (1, hide (b2n s.wgh.safeInForce)),
    (1, hide (b2n s.stk.freeLow)), (1, hide (b2n s.stk.freeReserve))] ++
  packLE [(4, s.sah.coldBoots), (4, s.sah.recoveries), (4, s.sah.restarts), (4, s.sah.fwChanges), (8, s.evt.nextSeq), (8, oldestSeq s),
    (8, lendableBytes s), (8, hide (freeBytes s)), (4, hide ups), (1, hide links), (1, hide (activeParts s).length), (2, 0),
    (8, hide s.pga.generation), (4, hide degraded), (28, 0)]

/-- Partition entry p (R546). -/
def summaryPart (s : State) (p : Nat) : Bytes :=
  let x := partOf s p
  let runs := (s.lck.tdis.filter fun t => t.2.part == p && t.2.state == 2).length
  let ctxs := (s.cle.ctxs.filter fun c => c.2.assigned && c.2.part == p).length
  packLE [(1, packBits [(3, x.state), (1, b2n (tfind s.lck.tenants p).isSome), (4, x.sweepStep)]), (1, runs), (2, x.current), (2, x.previous),
    (2, ctxs), (8, homeBytes s p)]

/-- The record's fields but SUMMARY_SEQ. -/
def summaryBody (s : State) : Bytes := summaryHeader s false ++ (List.range 64).flatMap (summaryPart s)

/-- SUMMARY_SEQ is brought up to date (R545): it increases when any other field has changed (how often the model looks: log 81, DESIGN CHOICE). -/
def noteSummary (s : State) : State :=
  let b := summaryBody s
  if b = s.sah.lastSummary then s
  else { s with sah := { s.sah with lastSummary := b, summarySeq := s.sah.summarySeq + 1 } }

/-- The SUMMARY record as a session reads it (R528, R547). -/
def summaryFor (s : State) (x : Session) : Bytes :=
  toLE 8 s.sah.summarySeq ++
  (if x.role = 2 then
    summaryHeader s true ++ (List.range 64).flatMap fun p => if p = x.part then summaryPart s p else zeros 16
  else summaryBody s)

/-! ### Finite resources (R609) -/

/-- What is in use of each resource of R609, in the table's order; rows without a count are 0. -/
def inUse (s : State) : List Nat :=
  let most := fun (l : List Nat) => l.foldl max 0
  let perSlice := fun (p : TPhase → Bool) => most ((List.range (nStacks s)).map fun k =>
    (s.ldg.txns.filter fun t => sliceOf s (t.2.lines.headD 0) == k && p t.2.phase).length)
  [0, s.mar.units.length * 256, (s.cle.ctxs.filter fun c => c.2.assigned).length, s.cle.jobs.length, (activeParts s).length,
   most (s.lck.parts.map fun p => p.2.current), s.pga.book.length, s.pga.isets.length, s.ldg.entries.length,
   most (s.ldg.entries.map fun e => e.2.holders.length), (List.range (nStacks s)).foldl (fun a k => a + overflowUsed s k) 0,
   perSlice (fun p => p != .blocking), s.mar.tags.length,
   most ((List.range 24).map fun p => m2sOut s p), most ((List.range 24).map fun p => snoopsOut s p),
   s.tlb.entries.length, s.tlb.faults.length, s.tlb.invals.length, s.car.streams.length, s.car.stageOut, writeBacks s,
   if s.car.tiered then freeGroups s else 0, (s.car.frames.filter fun f => f.2.pinned).length, s.twn.recs.length, s.twn.heldReq.length,
   s.win.out.length, s.mar.failed.length, transitBytes s, most (s.lnk.ports.map fun l => l.2.replay.length), s.evt.queue.length,
   s.sah.sessions.length, s.sah.qps.length]

/-- Peaks of the resources are brought up to date (R608; how often the model looks: log 81, DESIGN CHOICE). -/
def notePeaks (s : State) : State :=
  let now := inUse s
  { s with ras := { s.ras with peaks := (List.range 32).foldl (fun t i => tset 0 t i (max (tget 0 t i) (now.getD i 0))) s.ras.peaks } }

/-- With nothing waiting the block idles: node time advances by one nanosecond (R105; log 1, DESIGN CHOICE), fills that wait for a LUN suspend what
has run its slice there (R233), and what changes with the state alone is brought up to date (log 81, DESIGN CHOICE). -/
def idle (s : State) : State :=
  let s := { s with now := s.now + 1 }
  notePeaks (noteSummary (each (s.stk.lunWait.map (·.1)) trySuspend s))

/-! ### Values by entry -/

/-- A count that a tenant reads for its own partition (R542). -/
def partCount (x : Session) (t : Tbl Nat) : Nat := if x.role = 2 then tget 0 t x.part else tsum t

/-- The logical device, port × 16 + logical device, of CXL_LD_SELECT: bits 4:0 port, bits 8:5 logical device. -/
def ldSelected (x : Session) : Nat := let v := selectOf x 0x111000 0; ldKey (v % 32) (v / 32)

/-- Entries of 02, 03 and 11's ports. CXL_PORT_STATE and CXL_PORT_LINK of a bifurcated port report its half 0 (log 124, DESIGN CHOICE). -/
def values1 (s : State) (x : Session) (sub : Nat) : List (Nat × Bytes) := [
  (0x200000, toLE 4 1048576), (0x200001, toLE 4 s.pga.book.length), (0x200002, toLE 8 s.pga.generation),
  (0x200100, toLE 8 (lendableBytes s)), (0x200101, toLE 8 (freeBytes s)), (0x200200, toLE 2 s.pga.isets.length),
  (0x202000, toLE 8 (partCount x s.pga.accessErrors)), (0x203001, bookBytes s (selectOf x 0x203000 0)),
  (0x110000, toLE 1 (if portExists s sub then (portOf s sub).state else 7)),
  (0x110100, toLE 2 ((portOf s sub).rate + 256 * (portOf s sub).width)),
  (0x110200, toLE 1 (portOf s sub).bifurcate), (0x110400, toLE 1 (if portExists s sub then (portOf s sub).ldCount else 0)),
  (0x110500, toLE 8 (portOf s sub).linkErrors), (0x111001, rowOf 8 (ldOf s (ldSelected x)).regions),
  (0x111002, toLE 8 (ldOf s (ldSelected x)).stray),
  (0x112300, blobOf ((List.range 16).map fun i => BitVec.ofNat 8 (Config.vendorUuid i)))]

def values2 (s : State) (x : Session) (sub : Nat) : List (Nat × Bytes) := [
  (0x300000, toLE 4 (ledgerSets s * 8 * nStacks s)), (0x300001, toLE 4 s.ldg.entries.length),
  (0x300002, toLE 4 ((List.range (nStacks s)).foldl (fun a k => a + overflowUsed s k) 0)),
  (0x300200, toLE 8 (partCount x s.ldg.poisoned)), (0x300201, toLE 8 s.ldg.late), (0x300202, toLE 8 s.ldg.ackTimeouts),
  (0x300300, toLE 8 s.ldg.forced), (0x300301, toLE 8 s.ldg.displaced),
  (0x300400, packLE [(8, (sliceRec s sub).lookups), (8, (sliceRec s sub).recallsSent), (4, (sliceRec s sub).peakOpen),
    (4, (sliceRec s sub).peakQueue)]),
  (0x300500, toLE 1 (packBits [(3, (sliceRec s sub).fenced.foldl setBit 0), (2, (sliceRec s sub).readmits), (1, b2n (sliceRec s sub).stopped)])),
  (0x301001, ledgerBytes s (rLdgLookupPga s)),
  (0x380000, toLE 1 (b2n s.car.tiered)), (0x380100, toLE 4 (if s.car.tiered then totalFrames s else 0)),
  (0x380101, toLE 4 (s.car.frames.filter fun f => f.2.state == 3 || f.2.state == 4).length),
  (0x380102, toLE 4 (s.car.frames.filter fun f => f.2.pinned).length), (0x380103, toLE 4 (stagedFrames s)),
  (0x380400, rowOf 8 s.car.stats), (0x380501, tagBytes s (selectOf x 0x380500 0)),
  (0x381002, streamBytes s (selectOf x 0x381001 0)), (0x381100, toLE 2 s.car.streams.length),
  (0x381201, toLE 4 (s.car.history.filter fun h => decide (2 ≤ h.2.2.1)).length), (0x381300, toLE 8 s.car.stageDrops)]

def values3 (s : State) (x : Session) (sub : Nat) : List (Nat × Bytes) := [
  (0x400000, toLE 1 (nStacks s)), (0x400100, toLE 1 (if sub < nStacks s then levelNow s (stackOf s sub) else 0)),
  (0x400200, toLE 1 (if sub < nStacks s then (stackOf s sub).limit else 0)),
  (0x400300, if sub < nStacks s then int32 (stackOf s sub).temp else zeros 4), (0x400402, toLE 8 s.mem.driftEvents),
  (0x400500, rowOf 8 ((stackOf s sub).stats.take 10) ++ rowOf 4 ((stackOf s sub).stats.drop 10)),
  (0x400600, if sub < nStacks s then rowOf 1 ((List.range 64).map fun p => tget 255 (stackOf s sub).marks p) else zeros 64),
  (0x401000, toLE 8 s.mem.critRepairs),
  (0x480000, toLE 2 s.stk.targets.length), (0x480001, toLE 8 (totalGroups s * s.stk.pages * 65536)), (0x480002, toLE 8 s.stk.capacity),
  (0x480003, packLE [(2, s.stk.pages), (1, s.stk.luns), (2, s.stk.spare), (4, s.stk.groupsPerTarget)]),
  (0x480100, blobOf s.sah.retryTable), (0x480200, toLE 4 (if s.car.tiered then freeGroups s else 0)),
  (0x480401, toLE 8 s.stk.rounds), (0x480500, rowOf 8 s.stk.stats),
  (0x480501, packLE [(4, (wearSpread s).1), (4, (wearSpread s).2),
    (4, (s.stk.groups.foldl (fun a g => a + g.2.erases) 0) / max 1 (totalGroups s))]),
  (0x480600, toLE 4 s.stk.retired), (0x480601, toLE 8 (partCount x s.stk.lost)),
  (0x480700, packLE [(1, tget 0 s.stk.chanState sub), (1, (s.stk.targets.filter fun t => t.1 / 8 == sub).length), (1, tget 0 s.stk.excluded sub)]),
  (0x480801, let v := selectOf x 0x480800 0; groupBytes s ((v % 64 * 8 + bits v 6 3) * 65536 + bits v 9 16))]

def values4 (s : State) (x : Session) (sub : Nat) : List (Nat × Bytes) := [
  (0x680000, toLE 4 16384), (0x680001, toLE 4 s.tlb.entries.length), (0x680100, toLE 2 s.tlb.faults.length),
  (0x680200, rowOf 8 s.tlb.stats), (0x680201, toLE 8 (partCount x s.tlb.grainErrors)), (0x680401, tlbBytes s (selectOf x 0x680400 0)),
  (0x500000, toLE 2 (nQuads s)), (0x500001, toLE 2 (s.cle.gated.filter (gatedNow s)).length),
  (0x500100, toLE 2 (s.cle.ctxs.filter fun c => c.2.assigned).length), (0x500101, toLE 2 s.cle.jobs.length),
  (0x500201, ctxBytes s (selectOf x 0x500200 0)), (0x500400, toLE 8 s.cle.stale), (0x500401, toLE 8 (partCount x s.cle.halts)),
  (0x500500, rowOf 8 s.cle.stats),
  (0x510101, match homeBased s (pgaDpa (selectOf x 0x510100 0)) with
    | some (n, _) =>
      if pgaCoord (selectOf x 0x510100 0) = hereAt s && (tfind s.win.recs n).isSome then windowRecord (winOf s n) else zeros 64
    | none => zeros 64),
  (0x510300, toLE 4 s.win.recs.length), (0x510400, rowOf 8 s.win.stats), (0x510500, toLE 8 s.win.stalls),
  (0x101001, toLE 4 (routeEntry s (selectOf x 0x101000 0))),
  (0x101100, toLE 1 s.mar.failed.length ++ rowOf 2 ((List.range 64).map fun i => s.mar.failed.getD i 0)),
  (0x101200, toLE 8 (transitBytes s)), (0x101201, toLE 8 (spillBytes s)),
  (0x101300, toLE 4 (65536 - s.mar.tags.length)), (0x101301, toLE 8 s.mar.stalls), (0x101400, toLE 2 s.mar.units.length),
  (0x101401, toLE 8 s.mar.refusals),
  (0x101500, rowOf 8 [s.mar.stats.injected, s.mar.stats.ejected, s.mar.stats.transit, s.mar.stats.waypoint, s.mar.stats.hopLimit,
    s.mar.stats.unreachable, s.mar.stats.malformed, s.mar.stats.bypassDiscards, s.mar.stats.stray]),
  (0x102000, toLE 1 (linkOf s sub).state), (0x102100, rowOf 8 (linkOf s sub).stats),
  (0x102200, rowOf 2 ((List.range 5).map fun v => creditsOf (linkOf s sub) v)),
  (0x102400, toLE 8 s.lnk.reinjected), (0x102401, toLE 8 s.lnk.reinjectExpired), (0x102402, toLE 8 s.lnk.dupDiscards)]

/-- The scheduler of WGH_SELECT. -/
def schedSelected (s : State) (x : Session) : Sched := schedOf s (selectOf x 0x600000 0)

def values5 (s : State) (x : Session) (sub : Nat) : List (Nat × Bytes) := [
  (0x780000, toLE 2 s.twn.recs.length),
  (0x780001, packLE [(2, rMarPairPartner s), (1, match stampLink s with | none => 0 | some 6 => 1 | some _ => 2), (2, s.twn.term),
    (8, s.twn.order), (8, s.twn.applied - 1), (4, s.twn.pending.length)]),
  (0x780201, twinBytes s (selectOf x 0x780200 0)), (0x780400, rowOf 8 s.twn.stats), (0x780401, s.twn.lastDiv),
  (0x600100, toLE 1 (classOf (schedSelected s x) sub).nextWeight), (0x600200, toLE 4 (classOf (schedSelected s x) sub).nextRate),
  (0x600300, toLE 4 (classOf (schedSelected s x) sub).nextBurst), (0x600400, toLE 1 (classOf (schedSelected s x) sub).nextOverhead),
  (0x600500, toLE 1 (schedSelected s x).setGates.length ++ rowOf 4 ((List.range 64).map fun i => (schedSelected s x).setGates.getD i 0)),
  (0x600501, toLE 8 (schedSelected s x).setBase), (0x600600, toLE 1 (schedSelected s x).throttle),
  (0x600601, toLE 1 (schedSelected s x).throttleLimit),
  (0x600603, toLE 1 (packBits [(1, b2n s.wgh.safeInForce), (1, b2n s.wgh.watchdogCause), (1, b2n s.wgh.privCause)])),
  (0x600700, (List.range 8).flatMap fun c =>
    let w := classOf (schedSelected s x) c
    packLE [(8, w.transfers), (8, w.bytes), (8, w.creditHolds), (8, w.gateHolds), (4, w.queue.length), (4, w.peak)]),
  (0x600800, rowOf 4 ((List.range 6).map fun i => guardBand s (selectOf x 0x600000 0) (classOf (schedSelected s x) (i + 2)))),
  (0x700000, toLE 1 (activeParts s).length), (0x700100, partBytes s sub), (0x700300, toLE 1 (tdiOf s (ldSelected x)).part),
  (0x700400, blobOf ((tfind s.lck.tenants sub).getD [])),
  (0x700500, toLE 1 s.lck.observers.length ++ (s.lck.observers.flatMap id ++ zeros 1024).take 1024),
  (0x700600, toLE 8 (partCount x s.lck.secEvents)), (0x700700, blobOf certChain), (0x700800, toLE 1 (tdiOf s (ldSelected x)).state),
  (0x700900, rowOf 8 s.lck.stats)]

def values6 (s : State) (x : Session) (sub : Nat) : List (Nat × Bytes) := [
  (0x800100, let c := (tfind s.cle.ctxs (selectOf x 0x500200 0)).getD {}; packLE [(2, c.countThr), (2, c.timeThr)]),
  (0x800200, toLE 2 (tget 0 (msixOf s (ldSelected x)).holdoff sub)), (0x800300, rowOf 8 (msixOf s (ldSelected x)).stats),
  (0x801000, toLE 4 1048576), (0x801001, toLE 8 s.evt.nextSeq), (0x801002, toLE 8 (oldestSeq s)),
  (0x801101, (nextRecords s x { next := selectOf x 0x801100 0 }).flatMap fun p => eventBytes p.2),
  (0x801201, let v := selectOf x 0x801200 0
    if v % 1024 = 0 || 8 < v % 1024 then zeros 16
    else let e := (tfind s.evt.summary (summaryPos v)).getD {}; packLE [(4, e.count), (4, e.dropped), (8, e.time)]),
  (0x801300, toLE 8 s.evt.dropped), (0x880000, toLE 1 s.sah.coresUp), (0x880100, toLE 8 (Config.mac % 2 ^ 48)),
  (0x880101, (s.sah.ethAddr ++ zeros 26).take 26), (0x880103, rowOf 8 s.sah.ethStats), (0x880200, rowOf 8 s.sah.rxStats),
  (0x880300, blobOf s.sah.anchor),
  (0x880301, rowOf 1 ([1, 2, 3].map fun r => (s.sah.sessions.filter fun p => p.2.role == r).length)),
  (0x880403, rowOf 8 s.sah.rdmaStats), (0x881000, toLE 4 (rSahPowerCap s)), (0x881001, toLE 4 s.sah.power),
  (0x881004, (List.range 96).flatMap fun i => int32 (tget 0 s.sah.temps i)),
  (0x881005, packLE [(8, s.sah.ticks), (1, b2n s.sah.isOver), (1, s.sah.lowestThrottle), (2, (s.cle.gated.filter (gatedNow s)).length), (8, s.sah.levelRequests)]),
  (0x881100, toLE 4 120)]

/-- The characters of the ordering code (R2), for example OPZ4800-H16-C3. -/
def orderCode (a : Asm) : Bytes :=
  ([0x4F, 0x50, 0x5A, 0x34, 0x38, 0x30, 0x30, 0x2D, 0x48, 0x30 + a.hbmStacks / 10, 0x30 + a.hbmStacks % 10, 0x2D, 0x43, 0x30 + a.dies] : List Nat).map
    fun n => BitVec.ofNat 8 n

def values7 (s : State) (x : Session) (_ : Nat) : List (Nat × Bytes) := [
  (0x000000, toLE 2 0x4800), (0x000001, strOf (orderCode s.asm)),
  (0x000002, strOf ((List.range 16).map fun i => BitVec.ofNat 8 (Config.serial i))),
  (0x000003, packLE [(1, s.asm.hbmStacks), (1, s.asm.dies), (1, 8 * s.asm.dies), (1, 6), (1, 1), (1, 64), (2, designPower s.asm)]),
  (0x000004, toLE 2 (nStacks s * 64)), (0x000005, toLE 8 (lendableBytes s)), (0x000006, toLE 2 (hereAt s)),
  (0x000100, summaryFor s x), (0x000101, toLE 8 s.sah.summarySeq), (0x000200, toLE 8 (fwVersion s)),
  (0x000202, let l := s.sah.sessions.filterMap fun p => p.2.declared.map fun d => (p.2, d)
    toLE 1 l.length ++ ((l.flatMap fun p => packLE [(1, p.1.role), (1, p.1.part), (1, p.2.1), (1, p.2.2.1), (1, p.2.2.2), (3, 0)]) ++
      zeros 256).take 256),
  (0x000300, toLE 8 s.now), (0x000301, toLE 8 (wallTime s)),
  (0x882000, ((List.range 2).flatMap fun i => packLE [(1, (slotOf s i).state), (8, imageField (slotOf s i) 8 8), (2, imageField (slotOf s i) 6 2)]) ++
    packLE [(1, s.fw.active), (1, b2n s.fw.trial), (1, s.fw.tries)]),
  (0x882101, blobOf []), (0x882300, toLE 2 s.fuses), (0x882400, [1, 2, 3, 4, 5].flatMap (measurement s)),
  (0x882500, packLE [(4, s.fw.wdRestarts), (4, (s.fw.firings.filter fun t => decide (s.now < t + msec 3600000)).length),
    (8, s.fw.firings.headD 0), (1, s.fw.lastCore), (1, b2n s.fw.stopped)]),
  (0x882600, handoffBytes s),
  (0xA00800, packLE [(1, s.rst.result.getD 0 0), (2, s.rst.result.getD 1 0), (1, s.rst.result.getD 2 0), (8, s.rst.result.getD 3 0),
    (4, s.rst.result.getD 4 0), (32, if s.rst.result.getD 0 0 = 0 then 0 else draw s)]),
  (0xA00900, toLE 1 s.rst.checker ++ rowOf 4 ((List.range 16).map fun k => tget 0 s.rst.repaired k) ++
    rowOf 1 ((List.range 16).map fun k => (stackOf s k).marks.length) ++ rowOf 4 s.rst.durations),
  (0xA00A00, rowOf 8 ([s.rst.sliceResets, s.rst.portResets, s.sah.recoveries] ++ s.rst.detectors ++ [s.rst.lastRecovery]) ++
    toLE 1 s.rst.trigger),
  (0x900000, (List.range 26).flatMap fun i => packLE [(8, tget 0 s.ras.corrected (i + 1)), (8, tget 0 s.ras.uncorrectable (i + 1))]),
  (0x900001, rowOf 8 ((List.range 5).map fun i => tget 0 s.ras.classes i)),
  (0x900200, toLE 8 (partCount x s.ras.poisonReads)), (0x900201, toLE 8 (partCount x s.ras.poisonWrites)),
  (0x900202, toLE 8 s.ras.windowPoisoned), (0x900300, toLE 8 s.ras.ledgerLost), (0x900301, toLE 8 s.ras.ledgerPoisoned),
  (0x900400, let now := inUse s; rowOf 8 ((List.range 32).flatMap fun i => [now.getD i 0, max (now.getD i 0) (tget 0 s.ras.peaks i)]))]

/-- The value of an entry that is more than a stored number; `key` names the entry by its first subindex. -/
def specialValue (s : State) (x : Session) (key sub : Nat) : Option Bytes :=
  let l := if key < 0x100000 then values7 s x sub
    else if key < 0x200000 then values1 s x sub ++ values4 s x sub
    else if key < 0x300000 then values1 s x sub
    else if key < 0x400000 then values2 s x sub
    else if key < 0x500000 then values3 s x sub
    else if key < 0x600000 then values4 s x sub
    else if key < 0x680000 then values5 s x sub
    else if key < 0x700000 then values4 s x sub
    else if key < 0x800000 then values5 s x sub
    else if key < 0x882000 then values6 s x sub
    else values7 s x sub
  (l.find? fun p => p.1 == key).map (·.2)

end Sys2Proof.Machine
end

