-- ==== Sys2Proof/Machine/Nasidom.lean ====
section
/-! DEFINITION. The Nasidom protocol on entries (R519 to R530, R540 to R543): reading an entry, writing one that has no command of its
own, subscriptions, SUMMARY and resent notices. -/
namespace Sys2Proof.Machine

/-! ### Entries -/

/-- The entries that hold one value for each session (R520). -/
def isSelect (key : Nat) : Bool :=
  decide (key ∈ [0x203000, 0x111000, 0x380500, 0x381001, 0x480800, 0x680400, 0x500200, 0x510100, 0x101000, 0x780200, 0x600000, 0x801100,
    0x801200])

/-- The entries that a command of its own acts on: every CMD entry but RAS_LIMIT_CLEAR, FW_STAGE_DATA, and these. -/
def hasCommand (e : DEnt) : Bool :=
  (2 ≤ e.kind && !(e.index == 0x9004)) || decide (dictKey e.index e.sub ∈ [0x110200, 0x111001, 0x380001, 0x381002, 0x100000, 0x100001,
    0x100002, 0x101001, 0x600300, 0x600400, 0x600500, 0x700300, 0x700400, 0x800000, 0x800100, 0x000301, 0x500201])

/-- Whether a value written to an entry whose values are actions is none of them (R8): CAR_STREAM_CONTROL, CLE_CONTEXT_CONTROL,
LCK_PARTITION_CONTROL and FW_UPDATE. -/
def strayAction (key : Nat) (b : Bytes) : Bool :=
  let most := if key = 0x381003 || key = 0x500202 then 4 else if key / 256 = 0x7002 then 3 else if key = 0x882200 then 5 else 0
  most != 0 && (b.length != 1 || fromLE b == 0 || decide (most < fromLE b))

/-- The entries that act on a selection or a subindex which names an object of a partition, and whether that object is another partition's
than a tenant session's own (R11, R520). -/
def deniedTo (s : State) (x : Session) (key : Nat) : Bool :=
  if x.role != 2 then false
  else if key = 0x381002 || key = 0x381003 then
    match tfind s.car.streams (selectOf x 0x381001 0) with | some r => r.part != x.part | none => false
  else if key = 0x500201 || key = 0x500202 || key = 0x800100 then
    let c := (tfind s.cle.ctxs (selectOf x 0x500200 0)).getD {}
    !c.assigned || c.part != x.part
  else if key = 0x510101 || key = 0x510102 then
    match homeBased s (pgaDpa (selectOf x 0x510100 0)) with | some p => p.2.part != x.part | none => false
  else if key = 0x111002 then (tdiOf s (ldSelected x)).part != x.part
  else if key / 256 = 0x7001 || key / 256 = 0x7002 then key % 256 != x.part
  else false

/-- Whether a tenant may write a value to a `_SELECT` entry (R183, R309, R335, R520). -/
def mayName (s : State) (x : Session) (key v : Nat) : Bool :=
  if x.role != 2 then true
  else if key = 0x381001 then match tfind s.car.streams v with | some r => r.part == x.part | none => false
  else if key = 0x500200 then match tfind s.cle.ctxs v with | some c => c.assigned && c.part == x.part | none => false
  else if key = 0x510100 then
    pgaCoord v == hereAt s && (match homeBased s (pgaDpa v) with | some p => p.2.part == x.part && p.2.window | none => false)
  else true

/-- Whether a subindex of the entry names a class that no scheduler has: WGH_WEIGHT, WGH_RATE, WGH_BURST and WGH_OVERHEAD have the classes
2 to 7 (R448). -/
def noClass (index sub : Nat) : Bool := 0x6001 ≤ index && decide (index ≤ 0x6004) && decide (sub < 2)

/-- The value of an entry as a session reads it (R10, R540). -/
def entryValue (s : State) (x : Session) (e : DEnt) (sub : Nat) : Bytes :=
  let key := dictKey e.index sub
  if e.kind = 2 then toLE 2 (tget 0 s.sah.cmdStatus key)
  else if isSelect key then toLE e.width (selectOf x key e.dflt)
  else match specialValue s x (dictKey e.index e.sub) sub with
  | some b => b
  | none =>
    if key = 0x881000 then toLE e.width (rSahPowerCap s) else toLE e.width (tget e.dflt s.regs key)

/-- Free values a read of an entry may have shown are not shown again (log 5, DESIGN CHOICE). -/
def spent (s : State) : State := { s with fresh := s.fresh + 4 }

/-- The COMPLETION notices of an entry are acknowledged (R527). -/
def dropDones (sid : Nat) (key : Option Nat) (s : State) : State :=
  match sessionOf s sid with
  | none => s
  | some x => setSession sid { x with dones := match key with | none => [] | some k => x.dones.filter fun d => d.entry != k } s

/-- NASIDOM_READ (R523): up to 8,192 B of an entry's value from an offset; offset 0 takes a snapshot for the session. -/
def execNasidomRead (q : Ask) (index sub offset : Nat) (s : State) : Host.Outcome State Fault Refusal :=
  .next <| match dictFind index sub with
  | none => ask q 7 (dictKey index sub) false (fun _ s => reply q stAbsent 0 [] s) s
  | some e =>
    let key := dictKey index sub
    ask q e.roles key false (fun _ s =>
      let s := dropDones q.sid (some key) s
      match sessionOf s q.sid with
      | none => s
      | some x =>
        if noClass index sub then reply q stAbsent 0 [] s
        else if deniedTo s x key then reply q stDenied 0 [] s
        else
          let s := noteSummary s
          let v := if offset = 0 || x.snapshot.1 != key + 1 then entryValue s x e sub else x.snapshot.2
          let s := setSession q.sid (if offset = 0 then { x with snapshot := (key + 1, v) } else x) s
          reply q stOk v.length ((v.drop offset).take 8192) (spent s)) s

/-! ### Writing -/

/-- Whether a number may be written to an entry: in its range, and within what other entries allow (R183, R246, R338, R534, R613). -/
def inRange (s : State) (e : DEnt) (key v : Nat) : Bool :=
  decide (e.lo ≤ v) && decide (v ≤ e.hi) &&
  (if key = 0x380201 then decide (v < rCarDirtyHigh s)
   else if key = 0x480202 then decide (v < rStkGcStart s)
   else if key = 0x480203 then decide (v < rStkThrottle s)
   else if key = 0x881000 then decide (v ≤ designPower s.asm)
   else if key = 0x112200 then v == 0xFFFF || decide (v < 512)
   else if key = 0x100003 then v == 0xFFFF || decide (v < 4096)
   else if key = 0x900401 then v == 1
   else true)

/-- Whether a subindex names a stack or port that the assembly lacks (R541). -/
def lacks (s : State) (index sub : Nat) : Bool :=
  (index == 0x4002 && decide (nStacks s ≤ sub)) || (index == 0x1104 && decide (8 * s.asm.dies ≤ sub))

/-- Whether an entry refuses the change now (R474, R561). -/
def busyNow (s : State) (key v : Nat) : Bool :=
  if key / 256 = 0x1104 then (List.range 16).any fun ld => decide (v ≤ ld) && tdiLocked s (ldKey (key % 256) ld)
  else if key = 0x112200 then v != 0xFFFF && tdiLocked s (ldKey (v % 32) (v / 32))
  else if key = 0x882100 then s.fw.trial || s.fw.update != 0
  else false

/-- A number takes effect in the entry that holds it, for the session that wrote it (R520). -/
def writeNat (sid : Nat) (x : Session) (key v : Nat) (s : State) : State :=
  let index := key / 256
  let sub := key % 256
  let k := selectOf x 0x600000 0
  if isSelect key then setSession sid { x with selects := tput x.selects key v } s
  else if index = 0x6001 then setClass k sub { classOf (schedOf s k) sub with nextWeight := v } s
  else if index = 0x6002 then setClass k sub { classOf (schedOf s k) sub with nextRate := v } s
  else if key = 0x600501 then
    let d := schedOf s k
    setSched k { d with gates := (gatesOf s d).1, gateBase := (gatesOf s d).2, setBase := v, nextGates := some (d.setGates, v), nextAt := gateChangeAt s d d.setGates v } s
  else if key = 0x600601 then setSched k { schedOf s k with throttleLimit := v } s
  else if index = 0x8002 then
    let m := msixOf s (ldSelected x)
    { s with msix := tput s.msix (ldSelected x) { m with holdoff := tset 0 m.holdoff sub v } }
  else if key = 0x900401 then
    { s with ras := { s.ras with peaks := (List.range 32).foldl (fun t i => tset 0 t i ((inUse s).getD i 0)) s.ras.peaks } }
  else if key = 0x100003 then
    let t := s.twn
    applyNat key 0 v (if v = rMarPairPartner s then s else { s with twn := { t with named := false, seen := false } })
  else applyNat key 0 v s

/-- The bytes that a string entry's value holds, when the value has the entry's form (R481, R518, R538, R540). -/
def stringOf (key : Nat) (b : Bytes) : Option Bytes :=
  if key = 0x700500 then (if b.length = 1025 && decide (leAt b 0 1 ≤ 16) then some b else none)
  else if key = 0x880101 then (if b.length = 26 then some b else none)
  else
    let body := b.drop 2
    if b.length < 2 || body.length != leAt b 0 2 then none
    else if key = 0x880300 then (if body.isEmpty || body.length = 64 then some body else none)
    else some body

/-- A value that is complete is applied whole (R524, R540, R541, R543): its answer, and the state after. The reserved bits of STK_GROUP_SELECT
are ignored (R8, R246), and new free-group thresholds are compared at once (R240). -/
def applyWrite (q : Ask) (x : Session) (e : DEnt) (sub : Nat) (b : Bytes) (s : State) : State :=
  let key := dictKey e.index sub
  if noClass e.index sub then finish q key stAbsent [] s
  else if deniedTo s x key then finish q key stDenied [] s
  else if lacks s e.index sub then finish q key stBadValue [] s
  else if e.width = 0 then
    match stringOf key b with
    | none => finish q key stBadValue [] s
    | some v =>
      let s := applyBytes key 0 v s
      let s := if key = 0x700500 then
          closeSessions (fun y => y.role == 3 && !decide (y.digest ∈ observersFrom v)) s
        else s
      storeLater q key 0 0 v s
  else
    let v := if key = 0x480800 then fromLE b % 2 ^ 25 else fromLE b
    if b.length != e.width || !inRange s e key v then finish q key stBadValue [] s
    else if busyNow s key v then finish q key stBusy [] s
    else if isSelect key && !mayName s x key v then finish q key stDenied [] s
    else
      let s := if key = 0x480202 || key = 0x480203 then checkFree (writeNat q.sid x key v s) else writeNat q.sid x key v s
      if e.stored then storeLater q key 0 v [] s else finish q key stOk [] s

/-- A WRITE that names another entry discards the staged parts (R524). -/
def keepStaged (x : Session) (key : Nat) : Session :=
  match x.staged with
  | some p => if p.1 = key then x else { x with staged := none }
  | none => x

/-- The staged bytes with a part at its offset; none where the part leaves a gap (R524; log 91, DEDUCED). -/
def stage (x : Session) (key offset : Nat) (part : Bytes) : Option Bytes :=
  let held := match (keepStaged x key).staged with | some p => p.2 | none => []
  if held.length < offset then none else some (held.take offset ++ part ++ held.drop (offset + part.length))

/-- NASIDOM_WRITE (R10, R524): a part of a value is staged, and the value is applied whole when the last part arrives. An entry that a command
of its own acts on is written by that command (log 92, DESIGN CHOICE), but for a value that is none of its actions. -/
def execNasidomWrite (q : Ask) (index sub offset : Nat) (last : Bool) (part : Bytes) (s : State) : Host.Outcome State Fault Refusal :=
  .next <| match dictFind index sub with
  | none => ask q 7 (dictKey index sub) true (fun x s => reply q stAbsent 0 [] (setSession q.sid { x with staged := none } s)) s
  | some e =>
    let key := dictKey index sub
    if hasCommand e then
      if strayAction key part then
        ask q e.roles key true (fun x s => finish q key (if deniedTo s x key then stDenied else stBadValue) [] s) s
      else s
    else ask q e.roles key true (fun x s =>
      let x := keepStaged x key
      let s := setSession q.sid x s
      if e.kind = 0 then reply q stReadOnly 0 [] s
      else if x.role = 3 && !isSelect key then reply q stDenied 0 [] s
      else if 8192 < part.length then reply q stMalformed 0 [] s
      else match stage x key offset part with
      | none => reply q stMalformed 0 [] s
      | some b =>
        if !last then reply q stOk 0 [] (setSession q.sid { x with staged := some (key, b) } s)
        else
          let x := { x with staged := none }
          applyWrite q x e sub b (setSession q.sid x s)) s

/-! ### Subscriptions (R502, R503, R526, R527) -/

/-- The dictionary has no entry for SUBSCRIBE and SUMMARY messages; their requests carry index 0. -/
def keyNone : Nat := 0

/-- SUBSCRIBE_ADD (R502, R503, R526): a subscription is added; where records before its starting SEQ are gone a GAP notice tells the oldest,
and the records from there on are sent. -/
def execSubscribeAdd (q : Ask) (slot low high severity start : Nat) (s : State) : Host.Outcome State Fault Refusal :=
  .next <| ask q 7 keyNone true (fun x s =>
    if 16 ≤ slot || 4 ≤ severity || 65536 ≤ low || 65536 ≤ high then reply q stBadValue 0 [] s
    else if (tfind x.subs slot).isSome then reply q stBusy 0 [] s
    else
      let u : Sub := { low := low, high := high, minSev := severity, next := start }
      let s := reply q stOk 0 [] (setSession q.sid { x with subs := tput x.subs slot u } s)
      let s := if start < oldestSeq s then
          match sessionOf s q.sid with
          | none => s
          | some x => sendFrame (.notice q.sid 2 x.notices 0 0 (packLE [(1, 2), (1, slot), (1, 0), (5, 0), (8, oldestSeq s)]))
              (setSession q.sid { x with notices := x.notices + 1 } s)
        else s
      pumpSub 65 q.sid slot s) s

/-- SUBSCRIBE_REMOVE (R526): a subscription is removed, with its unacknowledged notices. -/
def execSubscribeRemove (q : Ask) (slot : Nat) (s : State) : Host.Outcome State Fault Refusal :=
  .next <| ask q 7 keyNone false (fun x s =>
    if 16 ≤ slot then reply q stBadValue 0 [] s
    else reply q stOk 0 [] (setSession q.sid { x with subs := tdel x.subs slot } s)) s

/-- SUBSCRIBE_ACKNOWLEDGE (R526, R527): notices whose records lie at or below a SEQ are acknowledged, and delivery goes on. -/
def execSubscribeAcknowledge (q : Ask) (slot seq : Nat) (s : State) : Host.Outcome State Fault Refusal :=
  .next <| ask q 7 keyNone false (fun x s =>
    if 16 ≤ slot then reply q stBadValue 0 [] s
    else match tfind x.subs slot with
    | none => reply q stOk 0 [] s
    | some u =>
      let u := { u with unacked := u.unacked.filter fun n => decide (seq < n.2.1) }
      pumpSub 65 q.sid slot (reply q stOk 0 [] (setSession q.sid { x with subs := tput x.subs slot u } s))) s

/-- SUMMARY (R528): the record as one snapshot; COMPLETION notices of the session are acknowledged (R527). -/
def execSummary (q : Ask) (s : State) : Host.Outcome State Fault Refusal :=
  .next <| ask q 7 keyNone false (fun x s =>
    let s := noteSummary (dropDones q.sid none s)
    let b := summaryFor s x
    reply q stOk b.length b s) s

/-- One subscription's unacknowledged notices are sent again when they are due. -/
def resendSub (sid slot : Nat) (s : State) : State :=
  match sessionOf s sid with
  | none => s
  | some x =>
    match tfind x.subs slot with
    | none => s
    | some u =>
      if u.unacked.isEmpty || s.now < u.resendDue then s
      else
        let s := setSession sid { x with subs := tput x.subs slot { u with resendDue := s.now + msec 200 } } s
        each u.unacked (fun n s => sendFrame (.notice sid 1 n.1 0 0 n.2.2) s) s

/-- NOTICE_RESEND (R527): a session's unacknowledged EVENT notices and COMPLETION notices are sent again every 200 ms. -/
def execNoticeResend (sid : Nat) (s : State) : Host.Outcome State Fault Refusal :=
  .next <| match sessionOf s sid with
  | none => s
  | some x =>
    let s := each x.subs (fun u s => resendSub sid u.1 s) s
    let late := x.dones.filter fun d => decide (d.due ≤ s.now)
    match sessionOf s sid with
    | none => s
    | some x =>
      let dones := x.dones.map fun d => if d.due ≤ s.now then { d with due := s.now + msec 200 } else d
      each late (fun d s => sendFrame (.notice sid 3 d.req d.entry d.status (packLE [(1, 3), (1, 0), (1, 0), (5, 0)] ++ d.result)) s)
        (setSession sid { x with dones := dones } s)

end Sys2Proof.Machine
end

