-- ==== Sys2Proof/Machine/Firmware.lean ====
section
/-! DEFINITION. Firmware (19): staging, updating, committing and reverting an image (R561 to R565), the watchdogs and Sahtin's restart
(R560, R567 to R570), and uncorrectable errors in Sahtin (R601). -/
namespace Sys2Proof.Machine

def keyUpdate : Nat := 0x882200

/-- The slot that is not ACTIVE. -/
def otherSlot (s : State) : Nat := 1 - s.fw.active

def setSlot (i : Nat) (m : Image) (s : State) : State := { s with fw := { s.fw with slots := tput s.fw.slots i m } }

/-- Staging is refused while TRIAL is set or an update is in progress (R561). -/
def stagingBusy (s : State) : Bool := s.fw.trial || s.fw.update != 0 || s.fw.waiting.isSome

/-- FW_STAGE_DATA (R561): bytes are programmed at the staging offset of the inactive slot, and the offset advances. -/
def execFwStageData (q : Ask) (data : Bytes) (s : State) : Host.Outcome State Fault Refusal :=
  .next <| ask q 1 0x882101 true (fun _ s =>
    let off := rFwStageOffset s
    if stagingBusy s then finish q 0x882101 stBusy [] s
    else if 65535 < data.length || 33554432 < off + data.length then finish q 0x882101 stBadValue [] s
    else
      let i := otherSlot s
      let bytes := (List.range data.length).foldl (fun t k => tset 0 t (off + k) (data.getD k 0)) (slotOf s i).bytes
      let s := setSlot i { state := 2, bytes := bytes, signed := Config.signed bytes } s
      let s := { s with fw := { s.fw with ready := false } }
      finish q 0x882101 stOk [] (setReg 0x882100 0 (off + data.length) s)) s

/-- FW_UPDATE action 1 (R561): the staged image is verified, or marked invalid. -/
def execFwUpdateVerify (q : Ask) (s : State) : Host.Outcome State Fault Refusal :=
  .next <| ask q 1 keyUpdate true (fun _ s =>
    let i := otherSlot s
    let m := slotOf s i
    if imageValid s m then
      let s := setSlot i { m with state := 3 } s
      finish q keyUpdate stOk [] { s with fw := { s.fw with ready := true } }
    else
      let s := setSlot i { m with state := 2 } s
      finish q keyUpdate stBadValue [] { s with fw := { s.fw with ready := false } }) s

/-- FW_UPDATE action 2 (R562): the verified image is brought into service, after any stored write in progress. -/
def execFwUpdateActivate (q : Ask) (s : State) : Host.Outcome State Fault Refusal :=
  .next <| ask q 1 keyUpdate true (fun _ s =>
    if !s.fw.ready || s.fw.waiting.isSome then finish q keyUpdate stBusy [] s
    else afterStored { s with fw := { s.fw with waiting := some q } }) s

/-- The trial image is committed (R565). -/
def commitImage (s : State) : State := writeControl s.fw.active false s.fw.tries s

/-- FW_UPDATE action 3 (R565): TRIAL is cleared. -/
def execFwUpdateCommit (q : Ask) (s : State) : Host.Outcome State Fault Refusal :=
  .next <| ask q 1 keyUpdate true (fun _ s =>
    if !s.fw.trial then finish q keyUpdate stBusy [] s else finish q keyUpdate stOk [] (commitImage s)) s

/-- Sahtin reverts to the other slot's image, read again from SPI flash, in about 800 ms (R565). -/
def revert (s : State) : State :=
  let s := firmwareStops 3 (s.now + msec 800) s
  { s with fw := { s.fw with handoffDue := none } }

/-- FW_UPDATE action 4 (R565): Sahtin reverts; the cores still run and write the handoff record. -/
def execFwUpdateRevert (q : Ask) (s : State) : Host.Outcome State Fault Refusal :=
  .next <| ask q 1 keyUpdate true (fun _ s =>
    if !s.fw.trial then finish q keyUpdate stBusy [] s
    else revert (writeHandoff 4 (finish q keyUpdate stOk [] s))) s

/-- FW_UPDATE action 5 (R565): the image is committed and FW_SVN_MIN is raised by fuse to its SVN. -/
def execFwUpdateCommitSvn (q : Ask) (s : State) : Host.Outcome State Fault Refusal :=
  .next <| ask q 1 keyUpdate true (fun _ s =>
    if !s.fw.trial then finish q keyUpdate stBusy [] s
    else finish q keyUpdate stOk [] { commitImage s with fuses := max s.fuses (fwSvn s) }) s

/-- FW_RESTART (R567): writing 1 restarts Sahtin in the same image, as the update does from t1. -/
def execFwRestart (q : Ask) (value : Nat) (s : State) : Host.Outcome State Fault Refusal :=
  .next <| ask q 1 0x882501 true (fun _ s =>
    if value != 1 then finish q 0x882501 stBadValue [] s
    else handOver 2 3 (finish q 0x882501 stOk [] s)) s

/-! ### The Sahtin watchdog (R567, R569) -/

/-- The watchdog's alert, event and count; the safe level comes into force at the next refill. -/
def watchdogFires (core : Nat) (s : State) : State :=
  let s := countDetector 4 (latchAlert 3 s)
  let recent := s.fw.firings.filter fun t => decide (s.now < t + msec 3600000)
  let s := { s with
    wgh := { s.wgh with watchdogEvent := true }
    fw := { s.fw with firings := (s.now :: recent).take 8, lastCore := core } }
  raise 0x3401 2 none (toLE 1 core) s

/-- The handoff record is kept with a new REASON: the image that would write it no longer runs. -/
def keepHandoff (reason : Nat) (s : State) : State :=
  { s with fw := { s.fw with handoff := { s.fw.handoff with reason := reason } } }

def countRestart (s : State) : State := { s with fw := { s.fw with wdRestarts := s.fw.wdRestarts + 1 } }

/-- WATCHDOG (R567, R569): a core has not kicked for 100 ms. Sahtin restarts, or reverts while TRIAL is set, or stays stopped after the
eighth firing within an hour. -/
def execWatchdog (core : Nat) (s : State) : Host.Outcome State Fault Refusal :=
  .next <| match tfind s.fw.kickDue core with
  | none => s
  | some t =>
    if s.fw.wdSuspended || s.now < t then s
    else
      let s := watchdogFires core s
      if s.fw.trial then revert (keepHandoff 4 (countRestart s))
      else if 8 ≤ s.fw.firings.length then
        let s := firmwareStops 0 0 (raise 0x3401 2 none (toLE 1 core) s)
        { s with fw := { s.fw with stopped := true } }
      else
        let s := firmwareStops 4 (s.now + msec 200) (keepHandoff 2 (countRestart s))
        { s with fw := { s.fw with handoffDue := none } }

/-- HANDOFF_TIMER_EXPIRY (R564, R565): the root of trust acts as on a watchdog firing, and Sahtin reverts; which core is named is open
(log 5, DESIGN CHOICE). An update's new image is not yet ACTIVE, so the image that was in service starts again (log 93, DEDUCED). -/
def execHandoffTimerExpiry (s : State) : Host.Outcome State Fault Refusal :=
  .next <| match s.fw.handoffDue with
  | none => s
  | some t =>
    if s.now < t then s
    else
      let s := countRestart (watchdogFires (draw s % 4) (drawn s))
      let kind := if s.fw.trial && s.fw.update == 2 then 3 else 4
      let s := firmwareStops kind (s.now + msec 800) (keepHandoff 4 s)
      { s with fw := { s.fw with handoffDue := none } }

/-- WATCHDOG_KICK (R567): a core that runs has another 100 ms. -/
def execWatchdogKick (core : Nat) (s : State) : Host.Outcome State Fault Refusal :=
  .next <|
    if 4 ≤ core || s.fw.wdSuspended || !bitOf s.sah.coresUp core then s
    else { s with fw := { s.fw with kickDue := tput s.fw.kickDue core (s.now + msec 100) } }

/-- Whether the starting image accepts the handoff record (R564). -/
def accepts (s : State) : Bool :=
  s.fw.handoff.crcOk && decide (imageField s.fw.running 20 2 ≤ s.fw.handoff.ver) && decide (s.fw.handoff.ver ≤ imageField s.fw.running 22 2)

/-- The loop restarts from its defaults (R564). -/
def loopDefaults (s : State) : State :=
  { s with sah := { s.sah with isOver := false, lastLevelReq := none, lastLevel := [], coolSince := [], gateUntil := 0 } }

/-- The image that a finished restart brings into service, with the boot control record of R562 and R565. -/
def imageStarts (s : State) : State :=
  let i := otherSlot s
  let run := fun (s : State) => { s with
    fw := { s.fw with running := slotOf s i, ready := false }
    sah := { s.sah with fwChanges := s.sah.fwChanges + 1 } }
  if s.fw.update = 1 then writeControl i true (rFwTrialTries s) (run (setSlot i { slotOf s i with state := 1 } s))
  else if s.fw.update = 3 && imageValid s (slotOf s i) then writeControl i false s.fw.tries (run s)
  else s

/-- The commands that firmware drives go on from the steps in the command journal (R568). -/
def goOn (s : State) : State := settle (resumeRearms (replayJournal (fun _ => true) s))

/-- SAHTIN_RESTART_DONE (R562 t3 to t5, R565, R567): the image accepts the handoff record or the loop restarts from its defaults, the
watchdog resumes, and Nasidom answers again. -/
def execSahtinRestartDone (s : State) : Host.Outcome State Fault Refusal :=
  .next <|
    if s.fw.update = 0 || s.now < s.fw.restartDue then s
    else
      let kept := s.fw.update != 4
      let s := imageStarts s
      let s := if kept && accepts s then s else loopDefaults s
      let s := rewindPasses (startCores s)
      goOn { s with
        fw := { s.fw with update := 0, handoffDue := none }
        sah := { s.sah with up := true, restarts := s.sah.restarts + 1, portInUse := rSahNasidomPort s }
        wgh := { s.wgh with loopRuns := 0 }
        rst := { s.rst with nodeState := if s.rst.nodeState = 3 then 1 else s.rst.nodeState } }

/-! ### The root-of-trust core (R560) and uncorrectable errors (R601) -/

/-- ROOT_OF_TRUST_WATCHDOG (R560): that core alone restarts in about 50 ms; SPDM requests are answered Busy meanwhile. -/
def execRootOfTrustWatchdog (s : State) : Host.Outcome State Fault Refusal :=
  .next <|
    if !bitOf s.sah.coresUp 4 || s.fw.rotBusy.isSome then s
    else
      let s := countDetector 5 s
      { s with
        fw := { s.fw with rotBusy := some (s.now + msec 50) }
        sah := { s.sah with coresUp := clearBit s.sah.coresUp 4 } }

/-- ROOT_OF_TRUST_RESTART_DONE (R560): the core answers again. -/
def execRootOfTrustRestartDone (s : State) : Host.Outcome State Fault Refusal :=
  .next <| match s.fw.rotBusy with
  | none => s
  | some t =>
    if s.now < t then s
    else { s with fw := { s.fw with rotBusy := none }, sah := { s.sah with coresUp := setBit s.sah.coresUp 4 } }

/-- SAHTIN_UE_TRAP (R601). `place`: 0 a clean cache line, which is fetched again; 1 a dirty data-cache line, 2 management SRAM, 3 firmware
DRAM, which trap and stop the core; 4 the handoff record; 5 + n the summary entry at position n (log 95, DESIGN CHOICE). -/
def execSahtinUeTrap (core place : Nat) (s : State) : Host.Outcome State Fault Refusal :=
  .next <|
    if 4 ≤ core || !bitOf s.sah.coresUp core then s
    else if place = 0 then corrected 24 core s
    else
      let s := countError 24 2 s
      if place ≤ 3 then
        let s := raise 0x3803 2 none (errorDetail s 24 2 core 0 12 0 0) s
        { s with
          fw := { s.fw with stopCore := if core ∈ s.fw.stopCore then s.fw.stopCore else core :: s.fw.stopCore }
          sah := { s.sah with coresUp := clearBit s.sah.coresUp core } }
      else if place = 4 then { s with fw := { s.fw with handoff := { s.fw.handoff with crcOk := false } } }
      else { s with evt := { s.evt with summary := tdel s.evt.summary (place - 5) } }

end Sys2Proof.Machine
end

