-- ==== Sys2Proof/Machine/Jtag.lean ====
section
/-! DEFINITION. Boundary scan (22): the test access port's instructions (R627 to R632). Each command loads its instruction and scans its
register once: the instruction scan shifts out 1, then the register shifts out what it captured. -/
namespace Sys2Proof.Machine

/-- Bits of the boundary register (R630). -/
def boundaryLength (s : State) : Nat := 4188 + 393 * s.asm.dies

/-- An instruction is loaded and a register shifts out a value (R628). -/
def loadOpcode (opcode out : Nat) (j : Jtag) (s : State) : State :=
  emit (.tdo out) (emit (.tdo 1) { s with jtag := { j with opcode := opcode } })

/-- The one-bit bypass register is selected; pins are the controller's own again. -/
def loadBypass (s : State) : State := loadOpcode 0xFF 0 { s.jtag with driven := none, highz := false, bypass := false } s

/-- What an instruction does while the port has power: outside the compliance condition it acts as BYPASS unless it is one of the four that
R627 names. -/
def tap (always : Bool) (act : State → State) (s : State) : Host.Outcome State Fault Refusal :=
  .next <| if !s.rst.vddAux then s else if s.rst.resetN && !always then loadBypass s else act s

/-- The boundary register captures the pins and shifts a new value in, which its update stage takes. -/
def scanBoundary (s : State) (shift sampled : Nat) : Jtag :=
  let n := 2 ^ boundaryLength s
  { s.jtag with boundary := shift % n, latched := shift % n, pins := sampled % n }

/-- EXTEST (R628): the boundary register is scanned and drives the pins. -/
def execExtest (shift sampled : Nat) (s : State) : Host.Outcome State Fault Refusal :=
  tap false (fun s =>
    let j := scanBoundary s shift sampled
    loadOpcode 0x00 j.pins { j with driven := some j.latched, highz := false } s) s

/-- SAMPLE_PRELOAD (R628): the boundary register is scanned; the pins are the controller's own. -/
def execSamplePreload (shift sampled : Nat) (s : State) : Host.Outcome State Fault Refusal :=
  tap true (fun s =>
    let j := scanBoundary s shift sampled
    loadOpcode 0x01 j.pins { j with driven := none, highz := false } s) s

/-- IDCODE (R629). -/
def execIdcode (s : State) : Host.Outcome State Fault Refusal :=
  tap true (fun s => loadOpcode 0x02 0x14800987 { s.jtag with driven := none, highz := false } s) s

/-- USERCODE (R629): the stack count in bits 7:0 and the CXL I/O die count in bits 15:8. -/
def execUsercode (s : State) : Host.Outcome State Fault Refusal :=
  tap true (fun s => loadOpcode 0x03 (s.asm.hbmStacks + 256 * s.asm.dies) { s.jtag with driven := none, highz := false } s) s

/-- CLAMP (R628): the update stage holds the pins, and the bypass register is selected. -/
def execClamp (s : State) : Host.Outcome State Fault Refusal :=
  tap false (fun s => loadOpcode 0x04 0 { s.jtag with driven := some s.jtag.latched, highz := false, bypass := false } s) s

/-- HIGHZ (R628): outputs float, and the bypass register is selected. -/
def execHighz (s : State) : Host.Outcome State Fault Refusal :=
  tap false (fun s => loadOpcode 0x05 0 { s.jtag with driven := none, highz := true, bypass := false } s) s

/-- EXTEST_PULSE (R631): as EXTEST, with one pulse for each Run-Test/Idle visit. -/
def execExtestPulse (shift idles : Nat) (s : State) : Host.Outcome State Fault Refusal :=
  tap false (fun s =>
    let j := scanBoundary s shift s.jtag.pins
    loadOpcode 0x06 j.pins { j with driven := some j.latched, highz := false, pulses := j.pulses + idles } s) s

/-- EXTEST_TRAIN (R631): as EXTEST, with a toggle at each clock spent in Run-Test/Idle. -/
def execExtestTrain (shift ticks : Nat) (s : State) : Host.Outcome State Fault Refusal :=
  tap false (fun s =>
    let j := scanBoundary s shift s.jtag.pins
    loadOpcode 0x07 j.pins { j with driven := some j.latched, highz := false, toggles := j.toggles + ticks } s) s

/-- BYPASS (R628), and every opcode that the table does not list; a listed opcode is not this command. -/
def execBypass (opcode : Nat) (s : State) : Host.Outcome State Fault Refusal :=
  tap true (fun s => if opcode < 8 || 256 ≤ opcode then s else loadBypass s) s

end Sys2Proof.Machine
end

