-- ==== Sys2Proof/Machine/Ras.lean ====
section
/-! DEFINITION. Errors (21): the window of corrected errors (R595). -/
namespace Sys2Proof.Machine

/-- CE_WINDOW_END (R595): a window of `RAS_CE_WINDOW` has ended, and every unit's corrected errors are counted from 0 again. -/
def execCeWindowEnd (s : State) : Host.Outcome State Fault Refusal :=
  .next <|
    if s.ras.windowStart + msec (1000 * rRasCeWindow s) ≤ s.now then { s with ras := { s.ras with window := [], windowStart := s.now } }
    else s

end Sys2Proof.Machine
end

