-- ==== Sys2Proof/Machine/RingNet.lean ====
section
/-! DEFINITION. The on-die ring network (R29 to R32): a packet is injected at its source stop and ejected at its destination. -/
namespace Sys2Proof.Machine

/-- The stops of a ring, in the order of R29: 16 stack stops, 3 CXL stops, 2 fabric stops, the storage-and-network stop and the management
stop. -/
def ringStops : Nat := 23

/-- Whether a stop injects and ejects: those of absent stacks and CXL I/O dies do not (R29). -/
def stopPresent (s : State) (k : Nat) : Bool :=
  decide (k < s.asm.hbmStacks) || (decide (16 ≤ k) && decide (k < 16 + s.asm.dies)) || (decide (19 ≤ k) && decide (k < ringStops))

/-- Stops from one to another going clockwise. -/
def clockwiseHops (src dst : Nat) : Nat := (dst + ringStops - src) % ringStops

/-- RING_INJECT (R31, R32): a request needs a credit of its destination's request buffer, a response none. The ring is chosen by address
bits of the line (log 85, DESIGN CHOICE), the direction is the shorter way, with ties going clockwise. -/
def execRingInject (src dst line : Nat) (isReq : Bool) (s : State) : Host.Outcome State Fault Refusal :=
  .next <|
    let used := tget 0 s.ring.used dst
    if !stopPresent s src || !stopPresent s dst || (isReq && decide (Config.stopCredits dst ≤ used)) then s
    else
      let h := clockwiseHops src dst
      let cw := decide (2 * h ≤ ringStops)
      let p : RingPkt :=
        { src := src, dst := dst, line := line, isReq := isReq, ring := line % 32, clockwise := cw, arrives := if cw then h else ringStops - h }
      { s with ring := { s.ring with
        used := if isReq then tset 0 s.ring.used dst (used + 1) else s.ring.used
        flight := s.ring.flight ++ [p] } }

/-- Whether a stop withholds the credits of the requests it ejects: what is behind it takes none now (R126, R127, R192, R337, R432). -/
def withholds (s : State) (stop : Nat) : Bool := !stopTakes s stop

/-- RING_EJECT (R31): the oldest packet for a stop is ejected; a request's credit is free again (log 85, DESIGN CHOICE), or withheld while
what is behind the stop takes no requests (R126, R127, R192, R432). -/
def execRingEject (stop : Nat) (s : State) : Host.Outcome State Fault Refusal :=
  .next <| match s.ring.flight.find? fun p => p.dst == stop with
  | none => s
  | some p =>
    let hold := p.isReq && withholds s stop
    { s with ring := { s.ring with
      used := if p.isReq && !hold then tset 0 s.ring.used stop (tget 0 s.ring.used stop - 1) else s.ring.used
      withheld := if hold then tset 0 s.ring.withheld stop (tget 0 s.ring.withheld stop + 1) else s.ring.withheld
      flight := s.ring.flight.erase p } }

end Sys2Proof.Machine
end

