-- ==== Sys2Proof/Machine/WinOps.lean ====
section
/-! DEFINITION. The commands of accumulating windows (10): contributions and their releases, generations and the re-arm (R322 to R331). -/
namespace Sys2Proof.Machine

/-- CONTRIB (R322, R324, R330): one contribution at its home, held by a follower for its event (R409). `upset` marks an uncorrectable filter record,
which is reset with BASE at this contribution (R599). -/
def execContrib (p : Packet) (upset : Nat) (s : State) : Host.Outcome State Fault Refusal :=
  .next <|
    if !isOp p 0x08 then s
    else if malformedPacket p then countMalformed s
    else
      let s := if upset = 0 then s
        else raise 0x3807 1 none (errorDetail s 20 2 p.src p.pga 0 0 0) (countError 20 2 { s with win := { s.win with
          filters := tput s.win.filters p.src { base := p.seq, seen := [] } } })
      settle (twinned p (homeRequest (requestOf p)) s)

/-- CONTRIB_TIMEOUT (R325): a contribution without a response is released. -/
def execContribTimeout (home seq : Nat) (s : State) : Host.Outcome State Fault Refusal :=
  .next <| match s.win.out.find? (contribKey home seq) with
  | none => s
  | some c =>
    if c.released || s.now < c.due then s
    else
      let s := setContrib home seq { c with released := true, due := s.now + msec (rWinContribTimeout s) } (winCount 5 1 s)
      ackOwed (pumpContribs 4096 (sendRelease home seq s))

/-- RELEASE_RESEND (R325): a release that is not acknowledged is sent again. -/
def execReleaseResend (home seq : Nat) (s : State) : Host.Outcome State Fault Refusal :=
  .next <| match s.win.out.find? (contribKey home seq) with
  | none => s
  | some c =>
    if !c.released || s.now < c.due then s
    else
      sendRelease home seq (setContrib home seq { c with due := s.now + msec (rWinContribTimeout s) } s)

/-- RELEASE (R325): at a home the number is marked and acknowledged; at the source the acknowledgement frees the place. -/
def execRelease (p : Packet) (s : State) : Host.Outcome State Fault Refusal :=
  .next <|
    if !isOp p 0x89 then s
    else if malformedPacket p then countMalformed s
    else if bitOf p.aux 32 then ackOwed (pumpContribs 4096 (releaseAcked p.src (p.aux % 2 ^ 32) s))
    else sendBypass 0x89 p.src 0 0 (p.aux % 2 ^ 32 + 2 ^ 32) [] (markRelease p.src (p.aux % 2 ^ 32) s)

/-- WIN_REARM (R329): the selected window starts a new generation; BUSY while it is rearming. -/
def execWinRearm (q : Ask) (expected : Nat) (s : State) : Host.Outcome State Fault Refusal :=
  .next <| ask q 3 0x510102 true (fun x s =>
    let pga := selectOf x 0x510100 0
    match homeAt s (pgaDpa pga) with
    | none => finish q 0x510102 stNotWindow [] s
    | some (n, h) =>
      if pgaCoord pga != hereAt s || !h.window || h.base != pgaDpa pga then finish q 0x510102 stNotWindow [] s
      else if !ownsPart x h.part then finish q 0x510102 stDenied [] s
      else if 2 ^ 32 ≤ expected then finish q 0x510102 stBadValue [] s
      else
        let w := winOf s n
        if w.state = 3 then finish q 0x510102 stBusy [] s
        else
          let gen := (w.gen + 1) % 65536
          let s := setWin n { w with
            state := 3, awaited := ascending w.binders, nextExpected := expected, ask := q
            rearmDue := s.now + msec (rWinRearmTimeout s) } s
          if w.binders.isEmpty then settle (finishRearm n s)
          else
            settle (each (ascending w.binders) (fun c s =>
              if c = hereAt s then genNoticed c pga gen s else sendBypass 0x8A c 0 pga 0 (genPayload gen 0) s) s)) s

/-- GENERATION (R329): a notice at a binder, or a binder's acknowledgement at the home. -/
def execGeneration (p : Packet) (s : State) : Host.Outcome State Fault Refusal :=
  .next <|
    if !isOp p 0x8A then s
    else if malformedPacket p then countMalformed s
    else if leAt p.payload 2 1 = 0 then settle (genNoticed p.src p.pga (leAt p.payload 0 2) s)
    else match homeAt s (pgaDpa p.pga) with
      | some (n, h) =>
        if h.window && leAt p.payload 0 2 == ((winOf s n).gen + 1) % 65536 then settle (genAcked n p.src s) else s
      | none => s

/-- REARM_TIMEOUT (R329): the home re-arms without the binders that did not acknowledge, and names them. -/
def execRearmTimeout (entry : Nat) (s : State) : Host.Outcome State Fault Refusal :=
  .next <|
    let w := winOf s entry
    if w.state = 3 && decide (w.rearmDue ≤ s.now) && !firmwareHeld s then settle (finishRearm entry s) else s

end Sys2Proof.Machine
end

