-- ==== Sys2Proof/Machine/Dispatch.lean ====
section
/-! DEFINITION. What each command does: one arm per constructor of `Instr`. -/
namespace Sys2Proof.Machine

def exec (i : Instr) (s : State) : Host.Outcome State Fault Refusal :=
  match i with
  | .rootPllLockLoss => Sys2Proof.Machine.execRootPllLockLoss s
  | .ringInject src dst line isReq => Sys2Proof.Machine.execRingInject src dst line isReq s
  | .ringEject stop => Sys2Proof.Machine.execRingEject stop s
  | .pgaGrant q arg => Sys2Proof.Machine.execPgaGrant q arg s
  | .reserveTimeout entry => Sys2Proof.Machine.execReserveTimeout entry s
  | .grantClearDone entry => Sys2Proof.Machine.execGrantClearDone entry s
  | .dcAcceptTimeout entry => Sys2Proof.Machine.execDcAcceptTimeout entry s
  | .pgaRevoke q entry => Sys2Proof.Machine.execPgaRevoke q entry s
  | .pgaRevokeForced q entry => Sys2Proof.Machine.execPgaRevokeForced q entry s
  | .dcReleaseTimeout entry => Sys2Proof.Machine.execDcReleaseTimeout entry s
  | .revokeRecallResend entry => Sys2Proof.Machine.execRevokeRecallResend entry s
  | .revokeComplete entry => Sys2Proof.Machine.execRevokeComplete entry s
  | .pgaMigrate q entry coord => Sys2Proof.Machine.execPgaMigrate q entry coord s
  | .migrateCopyDone entry => Sys2Proof.Machine.execMigrateCopyDone entry s
  | .pgaRebind q old new length => Sys2Proof.Machine.execPgaRebind q old new length s
  | .drainWindowExpiry entry => Sys2Proof.Machine.execDrainWindowExpiry entry s
  | .reserve p => Sys2Proof.Machine.execReserve p s
  | .unreference p => Sys2Proof.Machine.execUnreference p s
  | .rebindNotice p => Sys2Proof.Machine.execRebindNotice p s
  | .windowBind p => Sys2Proof.Machine.execWindowBind p s
  | .migrateReserve p => Sys2Proof.Machine.execMigrateReserve p s
  | .migrateHandover p => Sys2Proof.Machine.execMigrateHandover p s
  | .migrateRelease p => Sys2Proof.Machine.execMigrateRelease p s
  | .purge p => Sys2Proof.Machine.execPurge p s
  | .revokeRecall p => Sys2Proof.Machine.execRevokeRecall p s
  | .perstDeassert port => Sys2Proof.Machine.execPerstDeassert port s
  | .perstAssert port => Sys2Proof.Machine.execPerstAssert port s
  | .cxlPortReset q port value => Sys2Proof.Machine.execCxlPortReset q port value s
  | .portTrained port rate width => Sys2Proof.Machine.execPortTrained port rate width s
  | .cxlTrainingFails port cause => Sys2Proof.Machine.execCxlTrainingFails port cause s
  | .cxlLinkDown port => Sys2Proof.Machine.execCxlLinkDown port s
  | .portResetDone port => Sys2Proof.Machine.execPortResetDone port s
  | .purgeResend port => Sys2Proof.Machine.execPurgeResend port s
  | .purgeWaitTimeout id => Sys2Proof.Machine.execPurgeWaitTimeout id s
  | .memRd m upset => Sys2Proof.Machine.execMemRd m upset s
  | .memRdData m => Sys2Proof.Machine.execMemRdData m s
  | .memInv m => Sys2Proof.Machine.execMemInv m s
  | .memInvNt m => Sys2Proof.Machine.execMemInvNt m s
  | .memSpecRd m => Sys2Proof.Machine.execMemSpecRd m s
  | .memClnEvct m => Sys2Proof.Machine.execMemClnEvct m s
  | .memWr m data poison => Sys2Proof.Machine.execMemWr m data poison s
  | .memWrPtl m data be poison => Sys2Proof.Machine.execMemWrPtl m data be poison s
  | .unsupportedM2s m => Sys2Proof.Machine.execUnsupportedM2s m s
  | .birsp port ld bitag kind low => Sys2Proof.Machine.execBirsp port ld bitag kind low s
  | .biconflict port ld bitag done => Sys2Proof.Machine.execBiconflict port ld bitag done s
  | .biDecoderProgram port ld biId => Sys2Proof.Machine.execBiDecoderProgram port ld biId s
  | .hdmDecoderCommit port ld index d => Sys2Proof.Machine.execHdmDecoderCommit port ld index d s
  | .gpf port => Sys2Proof.Machine.execGpf port s
  | .viral port => Sys2Proof.Machine.execViral port s
  | .identify port ld => Sys2Proof.Machine.execIdentify port ld s
  | .backgroundOperationStatus port ld => Sys2Proof.Machine.execBackgroundOperationStatus port ld s
  | .getEventRecords port ld log => Sys2Proof.Machine.execGetEventRecords port ld log s
  | .clearEventRecords port ld log all handles => Sys2Proof.Machine.execClearEventRecords port ld log all handles s
  | .getEventInterruptPolicy port ld => Sys2Proof.Machine.execGetEventInterruptPolicy port ld s
  | .setEventInterruptPolicy port ld policy => Sys2Proof.Machine.execSetEventInterruptPolicy port ld policy s
  | .getTimestamp port ld => Sys2Proof.Machine.execGetTimestamp port ld s
  | .setTimestamp port ld stamp => Sys2Proof.Machine.execSetTimestamp port ld stamp s
  | .getSupportedLogs port ld => Sys2Proof.Machine.execGetSupportedLogs port ld s
  | .getLog port ld uuid offset length => Sys2Proof.Machine.execGetLog port ld uuid offset length s
  | .identifyMemoryDevice port ld => Sys2Proof.Machine.execIdentifyMemoryDevice port ld s
  | .getPartitionInfo port ld => Sys2Proof.Machine.execGetPartitionInfo port ld s
  | .getHealthInfo port ld => Sys2Proof.Machine.execGetHealthInfo port ld s
  | .getPoisonList port ld dpa length remote => Sys2Proof.Machine.execGetPoisonList port ld dpa length remote s
  | .injectPoison port ld dpa => Sys2Proof.Machine.execInjectPoison port ld dpa s
  | .clearPoison port ld dpa data => Sys2Proof.Machine.execClearPoison port ld dpa data s
  | .getDynamicCapacityConfiguration port ld count start => Sys2Proof.Machine.execGetDynamicCapacityConfiguration port ld count start s
  | .getDynamicCapacityExtentList port ld count start => Sys2Proof.Machine.execGetDynamicCapacityExtentList port ld count start s
  | .addDynamicCapacityResponse port ld extents => Sys2Proof.Machine.execAddDynamicCapacityResponse port ld extents s
  | .releaseDynamicCapacity port ld extents => Sys2Proof.Machine.execReleaseDynamicCapacity port ld extents s
  | .unsupportedMailbox port ld opcode => Sys2Proof.Machine.execUnsupportedMailbox port ld opcode s
  | .sqTail port ld page value aligned => Sys2Proof.Machine.execSqTail port ld page value aligned s
  | .cqHead port ld page value aligned => Sys2Proof.Machine.execCqHead port ld page value aligned s
  | .alertLatchClear value => Sys2Proof.Machine.execAlertLatchClear value s
  | .safeThrottle value => Sys2Proof.Machine.execSafeThrottle value s
  | .cxlRegionLength q port ld lengths => Sys2Proof.Machine.execCxlRegionLength q port ld lengths s
  | .cxlPortBifurcate q port value => Sys2Proof.Machine.execCxlPortBifurcate q port value s
  | .recallTimeout rid => Sys2Proof.Machine.execRecallTimeout rid s
  | .proxyRecallTimeout pid => Sys2Proof.Machine.execProxyRecallTimeout pid s
  | .recallBackstopTimeout rid => Sys2Proof.Machine.execRecallBackstopTimeout rid s
  | .ackTimeout txn => Sys2Proof.Machine.execAckTimeout txn s
  | .channelFenced slice channel => Sys2Proof.Machine.execChannelFenced slice channel s
  | .ldgChannelReadmit q slice value => Sys2Proof.Machine.execLdgChannelReadmit q slice value s
  | .autoReadmit slice => Sys2Proof.Machine.execAutoReadmit slice s
  | .sliceStop slice => Sys2Proof.Machine.execSliceStop slice s
  | .ldgClearPoison q pga => Sys2Proof.Machine.execLdgClearPoison q pga s
  | .ledgerScanDone slice set => Sys2Proof.Machine.execLedgerScanDone slice set s
  | .carModeNext q value => Sys2Proof.Machine.execCarModeNext q value s
  | .fillArrives block found => Sys2Proof.Machine.execFillArrives block found s
  | .writeBackDone block => Sys2Proof.Machine.execWriteBackDone block s
  | .dirtyHigh => Sys2Proof.Machine.execDirtyHigh s
  | .stageHoldExpiry block => Sys2Proof.Machine.execStageHoldExpiry block s
  | .carCommit q pga length recallOp => Sys2Proof.Machine.execCarCommit q pga length recallOp s
  | .commitComplete id => Sys2Proof.Machine.execCommitComplete id s
  | .carStreamAlloc q => Sys2Proof.Machine.execCarStreamAlloc q s
  | .carStream q record => Sys2Proof.Machine.execCarStream q record s
  | .streamStart q => Sys2Proof.Machine.execStreamStart q s
  | .streamStop q => Sys2Proof.Machine.execStreamStop q s
  | .streamRewind q => Sys2Proof.Machine.execStreamRewind q s
  | .streamFree q => Sys2Proof.Machine.execStreamFree q s
  | .segmentListFetch stream => Sys2Proof.Machine.execSegmentListFetch stream s
  | .stageRetry stream block => Sys2Proof.Machine.execStageRetry stream block s
  | .refreshDue stack => Sys2Proof.Machine.execRefreshDue stack s
  | .temperatureRead stack temp => Sys2Proof.Machine.execTemperatureRead stack temp s
  | .levelChangeDone stack => Sys2Proof.Machine.execLevelChangeDone stack s
  | .retrainingPause stack pc steps => Sys2Proof.Machine.execRetrainingPause stack pc steps s
  | .hbmStackDrain q stack => Sys2Proof.Machine.execHbmStackDrain q stack s
  | .hbmStackRelease q stack => Sys2Proof.Machine.execHbmStackRelease q stack s
  | .hbmRetrainStack q stack value => Sys2Proof.Machine.execHbmRetrainStack q stack value s
  | .retrainingDone stack => Sys2Proof.Machine.execRetrainingDone stack s
  | .patrolScrub stack line found => Sys2Proof.Machine.execPatrolScrub stack line found s
  | .programDone prog bad => Sys2Proof.Machine.execProgramDone prog bad s
  | .eraseDone group bad => Sys2Proof.Machine.execEraseDone group bad s
  | .journalRecordDurable seq => Sys2Proof.Machine.execJournalRecordDurable seq s
  | .checkpointRoundStart => Sys2Proof.Machine.execCheckpointRoundStart s
  | .checkpointRoundComplete => Sys2Proof.Machine.execCheckpointRoundComplete s
  | .targetFailure target => Sys2Proof.Machine.execTargetFailure target s
  | .operationResume lun => Sys2Proof.Machine.execOperationResume lun s
  | .relocationDone prog bad found => Sys2Proof.Machine.execRelocationDone prog bad found s
  | .garbageCollection => Sys2Proof.Machine.execGarbageCollection s
  | .flashPatrol unit found => Sys2Proof.Machine.execFlashPatrol unit found s
  | .stkFormat q value => Sys2Proof.Machine.execStkFormat q value s
  | .translationCompletion id status addr size perms => Sys2Proof.Machine.execTranslationCompletion id status addr size perms s
  | .xlateTimeout id => Sys2Proof.Machine.execXlateTimeout id s
  | .invalidateRequest port ld itag pasid addr length => Sys2Proof.Machine.execInvalidateRequest port ld itag pasid addr length s
  | .tlbInvalidate q ctx cva length => Sys2Proof.Machine.execTlbInvalidate q ctx cva length s
  | .engineInvalidateAck id quad => Sys2Proof.Machine.execEngineInvalidateAck id quad s
  | .pageGroupResponse index code pasid => Sys2Proof.Machine.execPageGroupResponse index code pasid s
  | .faultTimeout index => Sys2Proof.Machine.execFaultTimeout index s
  | .portDownFaultTimeout index => Sys2Proof.Machine.execPortDownFaultTimeout index s
  | .priEnable port ld allocation => Sys2Proof.Machine.execPriEnable port ld allocation s
  | .contextAssign q part => Sys2Proof.Machine.execContextAssign q part s
  | .contextRelease q => Sys2Proof.Machine.execContextRelease q s
  | .cleContext q record => Sys2Proof.Machine.execCleContext q record s
  | .bind q => Sys2Proof.Machine.execBind q s
  | .unbind q => Sys2Proof.Machine.execUnbind q s
  | .resume q => Sys2Proof.Machine.execResume q s
  | .contextReset q => Sys2Proof.Machine.execContextReset q s
  | .unbindComplete ctx => Sys2Proof.Machine.execUnbindComplete ctx s
  | .contextResetComplete ctx => Sys2Proof.Machine.execContextResetComplete ctx s
  | .descriptorFetch ctx => Sys2Proof.Machine.execDescriptorFetch ctx s
  | .chunkIssue chunk quad upset => Sys2Proof.Machine.execChunkIssue chunk quad upset s
  | .leaveRequest chunk gen => Sys2Proof.Machine.execLeaveRequest chunk gen s
  | .chunkResult chunk gen => Sys2Proof.Machine.execChunkResult chunk gen s
  | .chunkError chunk gen err => Sys2Proof.Machine.execChunkError chunk gen err s
  | .chunkTimeout chunk => Sys2Proof.Machine.execChunkTimeout chunk s
  | .lostTimeout n counter => Sys2Proof.Machine.execLostTimeout n counter s
  | .keepaliveSend => Sys2Proof.Machine.execKeepaliveSend s
  | .jobComplete job => Sys2Proof.Machine.execJobComplete job s
  | .chunkWrite p => Sys2Proof.Machine.execChunkWrite p s
  | .atomic p => Sys2Proof.Machine.execAtomic p s
  | .append p => Sys2Proof.Machine.execAppend p s
  | .commit p => Sys2Proof.Machine.execCommit p s
  | .winGrant q arg => Sys2Proof.Machine.execWinGrant q arg s
  | .winBind q arg => Sys2Proof.Machine.execWinBind q arg s
  | .contrib p upset => Sys2Proof.Machine.execContrib p upset s
  | .contribTimeout home seq => Sys2Proof.Machine.execContribTimeout home seq s
  | .releaseResend home seq => Sys2Proof.Machine.execReleaseResend home seq s
  | .release p => Sys2Proof.Machine.execRelease p s
  | .winRearm q expected => Sys2Proof.Machine.execWinRearm q expected s
  | .generation p => Sys2Proof.Machine.execGeneration p s
  | .rearmTimeout entry => Sys2Proof.Machine.execRearmTimeout entry s
  | .marNodeCoord q value => Sys2Proof.Machine.execMarNodeCoord q value s
  | .marRingSize q value => Sys2Proof.Machine.execMarRingSize q value s
  | .marPortEnable q port value => Sys2Proof.Machine.execMarPortEnable q port value s
  | .marRoute q value => Sys2Proof.Machine.execMarRoute q value s
  | .marRouteReset q value => Sys2Proof.Machine.execMarRouteReset q value s
  | .packetRoute port p upset => Sys2Proof.Machine.execPacketRoute port p upset s
  | .transitReinject => Sys2Proof.Machine.execTransitReinject s
  | .transitAck p => Sys2Proof.Machine.execTransitAck p s
  | .spillSend => Sys2Proof.Machine.execSpillSend s
  | .fault p => Sys2Proof.Machine.execFault p s
  | .faultNoticeRepeat => Sys2Proof.Machine.execFaultNoticeRepeat s
  | .tagAllocate => Sys2Proof.Machine.execTagAllocate s
  | .tagQuarantineEnd tag => Sys2Proof.Machine.execTagQuarantineEnd tag s
  | .chunkWriteDiscard src tag => Sys2Proof.Machine.execChunkWriteDiscard src tag s
  | .read p => Sys2Proof.Machine.execRead p s
  | .write p => Sys2Proof.Machine.execWrite p s
  | .cleanEvict p => Sys2Proof.Machine.execCleanEvict p s
  | .stage p => Sys2Proof.Machine.execStage p s
  | .recallOp p => Sys2Proof.Machine.execRecallOp p s
  | .recallRsp p => Sys2Proof.Machine.execRecallRsp p s
  | .data p => Sys2Proof.Machine.execData p s
  | .done p => Sys2Proof.Machine.execDone p s
  | .ack p => Sys2Proof.Machine.execAck p s
  | .probe p done => Sys2Proof.Machine.execProbe p done s
  | .answer p => Sys2Proof.Machine.execAnswer p s
  | .keepalive p => Sys2Proof.Machine.execKeepalive p s
  | .count p => Sys2Proof.Machine.execCount p s
  | .dataFlit port f => Sys2Proof.Machine.execDataFlit port f s
  | .controlFlit port f => Sys2Proof.Machine.execControlFlit port f s
  | .ackReport port => Sys2Proof.Machine.execAckReport port s
  | .nakResend port => Sys2Proof.Machine.execNakResend port s
  | .replayTimeout port => Sys2Proof.Machine.execReplayTimeout port s
  | .deadTime port lockLost => Sys2Proof.Machine.execDeadTime port lockLost s
  | .phyTrained port reversed polarity => Sys2Proof.Machine.execPhyTrained port reversed polarity s
  | .trainingFails port => Sys2Proof.Machine.execTrainingFails port s
  | .offer port f => Sys2Proof.Machine.execOffer port f s
  | .accept port f => Sys2Proof.Machine.execAccept port f s
  | .offerResend port => Sys2Proof.Machine.execOfferResend port s
  | .lnkRetryInterval port => Sys2Proof.Machine.execLnkRetryInterval port s
  | .lnkReinjectExpired => Sys2Proof.Machine.execLnkReinjectExpired s
  | .acceptancePass => Sys2Proof.Machine.execAcceptancePass s
  | .twnAttach q entry answer follow => Sys2Proof.Machine.execTwnAttach q entry answer follow s
  | .twnDetach q entry keep => Sys2Proof.Machine.execTwnDetach q entry keep s
  | .twnSwap q verify => Sys2Proof.Machine.execTwnSwap q verify s
  | .heartbeatSend => Sys2Proof.Machine.execHeartbeatSend s
  | .heartbeat p => Sys2Proof.Machine.execHeartbeat p s
  | .partnerTimeout => Sys2Proof.Machine.execPartnerTimeout s
  | .stamp p => Sys2Proof.Machine.execStamp p s
  | .bodyWaitTimeout order => Sys2Proof.Machine.execBodyWaitTimeout order s
  | .patch p => Sys2Proof.Machine.execPatch p s
  | .staleReport p => Sys2Proof.Machine.execStaleReport p s
  | .resilverUnit => Sys2Proof.Machine.execResilverUnit s
  | .resilverMeta p => Sys2Proof.Machine.execResilverMeta p s
  | .secondTimeout tag => Sys2Proof.Machine.execSecondTimeout tag s
  | .compareWindowExpiry tag => Sys2Proof.Machine.execCompareWindowExpiry tag s
  | .schedulerSelect sched => Sys2Proof.Machine.execSchedulerSelect sched s
  | .refill => Sys2Proof.Machine.execRefill s
  | .wheelSlot sched cls => Sys2Proof.Machine.execWheelSlot sched cls s
  | .gateEntry sched => Sys2Proof.Machine.execGateEntry sched s
  | .wghBurst q cls value => Sys2Proof.Machine.execWghBurst q cls value s
  | .wghOverhead q cls value => Sys2Proof.Machine.execWghOverhead q cls value s
  | .wghGateList q list => Sys2Proof.Machine.execWghGateList q list s
  | .wghSafeClear q value => Sys2Proof.Machine.execWghSafeClear q value s
  | .partitionCreate q part => Sys2Proof.Machine.execPartitionCreate q part s
  | .partitionRotate q part => Sys2Proof.Machine.execPartitionRotate q part s
  | .partitionSweep q part => Sys2Proof.Machine.execPartitionSweep q part s
  | .keyRecordTableDurable => Sys2Proof.Machine.execKeyRecordTableDurable s
  | .rekeyWrite part line => Sys2Proof.Machine.execRekeyWrite part line s
  | .rekeyDone part => Sys2Proof.Machine.execRekeyDone part s
  | .sweepStepDone part => Sys2Proof.Machine.execSweepStepDone part s
  | .lckLdPartition q port ld value => Sys2Proof.Machine.execLckLdPartition q port ld value s
  | .lckTenantCred q part digest => Sys2Proof.Machine.execLckTenantCred q part digest s
  | .lckAttest q nonce => Sys2Proof.Machine.execLckAttest q nonce s
  | .getVersion port ld => Sys2Proof.Machine.execGetVersion port ld s
  | .getCapabilities port ld => Sys2Proof.Machine.execGetCapabilities port ld s
  | .negotiateAlgorithms port ld => Sys2Proof.Machine.execNegotiateAlgorithms port ld s
  | .getDigests port ld => Sys2Proof.Machine.execGetDigests port ld s
  | .getCertificate port ld offset length => Sys2Proof.Machine.execGetCertificate port ld offset length s
  | .challenge port ld slot nonce => Sys2Proof.Machine.execChallenge port ld slot nonce s
  | .getMeasurements port ld index nonce => Sys2Proof.Machine.execGetMeasurements port ld index nonce s
  | .keyExchange port ld random => Sys2Proof.Machine.execKeyExchange port ld random s
  | .finish port ld session => Sys2Proof.Machine.execFinish port ld session s
  | .keyUpdate port ld session op => Sys2Proof.Machine.execKeyUpdate port ld session op s
  | .spdmHeartbeat port ld session => Sys2Proof.Machine.execSpdmHeartbeat port ld session s
  | .endSession port ld session => Sys2Proof.Machine.execEndSession port ld session s
  | .chunkSend port ld seq last part => Sys2Proof.Machine.execChunkSend port ld seq last part s
  | .chunkGet port ld seq => Sys2Proof.Machine.execChunkGet port ld seq s
  | .query port ld session => Sys2Proof.Machine.execQuery port ld session s
  | .keyProg port ld session stream => Sys2Proof.Machine.execKeyProg port ld session stream s
  | .kSetGo port ld session stream => Sys2Proof.Machine.execKSetGo port ld session stream s
  | .kSetStop port ld session stream => Sys2Proof.Machine.execKSetStop port ld session stream s
  | .getTdispVersion port ld session => Sys2Proof.Machine.execGetTdispVersion port ld session s
  | .getTdispCapabilities port ld session => Sys2Proof.Machine.execGetTdispCapabilities port ld session s
  | .lockInterfaceRequest port ld session => Sys2Proof.Machine.execLockInterfaceRequest port ld session s
  | .getDeviceInterfaceReport port ld session offset length => Sys2Proof.Machine.execGetDeviceInterfaceReport port ld session offset length s
  | .getDeviceInterfaceState port ld session => Sys2Proof.Machine.execGetDeviceInterfaceState port ld session s
  | .startInterfaceRequest port ld session nonce => Sys2Proof.Machine.execStartInterfaceRequest port ld session nonce s
  | .stopInterfaceRequest port ld session => Sys2Proof.Machine.execStopInterfaceRequest port ld session s
  | .lockedRegisterWrite port ld => Sys2Proof.Machine.execLockedRegisterWrite port ld s
  | .ideIntegrityFailure port ld stream => Sys2Proof.Machine.execIdeIntegrityFailure port ld stream s
  | .coalesceTimer ctx => Sys2Proof.Machine.execCoalesceTimer ctx s
  | .holdoffEnd port ld group => Sys2Proof.Machine.execHoldoffEnd port ld group s
  | .maskClear port ld vector entry => Sys2Proof.Machine.execMaskClear port ld vector entry s
  | .irqGlobalDisable q value => Sys2Proof.Machine.execIrqGlobalDisable q value s
  | .irqCqCoalesce q count time => Sys2Proof.Machine.execIrqCqCoalesce q count time s
  | .claim core => Sys2Proof.Machine.execClaim core s
  | .eoi core source => Sys2Proof.Machine.execEoi core source s
  | .eventWrite => Sys2Proof.Machine.execEventWrite s
  | .frameReceived frame fcsOk => Sys2Proof.Machine.execFrameReceived frame fcsOk s
  | .bankRelease => Sys2Proof.Machine.execBankRelease s
  | .overrun => Sys2Proof.Machine.execOverrun s
  | .dtlsHandshake cert => Sys2Proof.Machine.execDtlsHandshake cert s
  | .sessionIdleTimeout sid => Sys2Proof.Machine.execSessionIdleTimeout sid s
  | .nasidomRead q index sub offset => Sys2Proof.Machine.execNasidomRead q index sub offset s
  | .nasidomWrite q index sub offset last part => Sys2Proof.Machine.execNasidomWrite q index sub offset last part s
  | .subscribeAdd q slot low high severity start => Sys2Proof.Machine.execSubscribeAdd q slot low high severity start s
  | .subscribeRemove q slot => Sys2Proof.Machine.execSubscribeRemove q slot s
  | .subscribeAcknowledge q slot seq => Sys2Proof.Machine.execSubscribeAcknowledge q slot seq s
  | .summary q => Sys2Proof.Machine.execSummary q s
  | .noticeResend sid => Sys2Proof.Machine.execNoticeResend sid s
  | .rdmaQpOpen q remoteAddr remoteQp mtu => Sys2Proof.Machine.execRdmaQpOpen q remoteAddr remoteQp mtu s
  | .rdmaQpClose q qp => Sys2Proof.Machine.execRdmaQpClose q qp s
  | .rdmaRegionRegister q base length part perms => Sys2Proof.Machine.execRdmaRegionRegister q base length part perms s
  | .rdmaRegionRemove q rkey => Sys2Proof.Machine.execRdmaRegionRemove q rkey s
  | .sahDrain q pga length qp addr rkey => Sys2Proof.Machine.execSahDrain q pga length qp addr rkey s
  | .rdmaWrite qp rkey va data => Sys2Proof.Machine.execRdmaWrite qp rkey va data s
  | .rdmaRead qp rkey va length => Sys2Proof.Machine.execRdmaRead qp rkey va length s
  | .drainAcknowledged drain bytes ok => Sys2Proof.Machine.execDrainAcknowledged drain bytes ok s
  | .loopTick power temps => Sys2Proof.Machine.execLoopTick power temps s
  | .thermalCompare temps => Sys2Proof.Machine.execThermalCompare temps s
  | .storedWriteComplete => Sys2Proof.Machine.execStoredWriteComplete s
  | .sahAlertClear q value => Sys2Proof.Machine.execSahAlertClear q value s
  | .fwHostDeclare q major minor name => Sys2Proof.Machine.execFwHostDeclare q major minor name s
  | .sahWallTime q value => Sys2Proof.Machine.execSahWallTime q value s
  | .fwStageData q data => Sys2Proof.Machine.execFwStageData q data s
  | .fwUpdateVerify q => Sys2Proof.Machine.execFwUpdateVerify q s
  | .fwUpdateActivate q => Sys2Proof.Machine.execFwUpdateActivate q s
  | .fwUpdateCommit q => Sys2Proof.Machine.execFwUpdateCommit q s
  | .fwUpdateRevert q => Sys2Proof.Machine.execFwUpdateRevert q s
  | .fwUpdateCommitSvn q => Sys2Proof.Machine.execFwUpdateCommitSvn q s
  | .fwRestart q value => Sys2Proof.Machine.execFwRestart q value s
  | .watchdog core => Sys2Proof.Machine.execWatchdog core s
  | .handoffTimerExpiry => Sys2Proof.Machine.execHandoffTimerExpiry s
  | .rootOfTrustWatchdog => Sys2Proof.Machine.execRootOfTrustWatchdog s
  | .sahtinUeTrap core place => Sys2Proof.Machine.execSahtinUeTrap core place s
  | .nodeResetNAssert width => Sys2Proof.Machine.execNodeResetNAssert width s
  | .nodeResetNRelease => Sys2Proof.Machine.execNodeResetNRelease s
  | .coldTrainingDone stack ok repaired marks => Sys2Proof.Machine.execColdTrainingDone stack ok repaired marks s
  | .memoryBistDone repaired marks failed checker => Sys2Proof.Machine.execMemoryBistDone repaired marks failed checker s
  | .mapLoadDone found lost torn => Sys2Proof.Machine.execMapLoadDone found lost torn s
  | .startUpHoldEnd => Sys2Proof.Machine.execStartUpHoldEnd s
  | .nodeRecoverN low width => Sys2Proof.Machine.execNodeRecoverN low width s
  | .nodeRecoveryEnd trained untrained programmed => Sys2Proof.Machine.execNodeRecoveryEnd trained untrained programmed s
  | .tstNodeRecover q value => Sys2Proof.Machine.execTstNodeRecover q value s
  | .tstColdReset q value => Sys2Proof.Machine.execTstColdReset q value s
  | .tstSliceReset q quad => Sys2Proof.Machine.execTstSliceReset q quad s
  | .tstStackBist q stack value failures => Sys2Proof.Machine.execTstStackBist q stack value failures s
  | .tstQuadBist q quad passed => Sys2Proof.Machine.execTstQuadBist q quad passed s
  | .tstCxlHold q port => Sys2Proof.Machine.execTstCxlHold q port s
  | .tstCxlHoldRelease q port => Sys2Proof.Machine.execTstCxlHoldRelease q port s
  | .tstCxlMargin q port value failures => Sys2Proof.Machine.execTstCxlMargin q port value failures s
  | .tstLinkMargin q port value failures => Sys2Proof.Machine.execTstLinkMargin q port value failures s
  | .tstNandChannel q channel value failures => Sys2Proof.Machine.execTstNandChannel q channel value failures s
  | .quadHang quad => Sys2Proof.Machine.execQuadHang quad s
  | .stackControllerHang stack pc => Sys2Proof.Machine.execStackControllerHang stack pc s
  | .ringStopHang stop => Sys2Proof.Machine.execRingStopHang stop s
  | .requestTimeout tag => Sys2Proof.Machine.execRequestTimeout tag s
  | .tagHoldExpiry tag => Sys2Proof.Machine.execTagHoldExpiry tag s
  | .ceWindowEnd => Sys2Proof.Machine.execCeWindowEnd s
  | .vddAuxFall => Sys2Proof.Machine.execVddAuxFall s
  | .extest shift sampled => Sys2Proof.Machine.execExtest shift sampled s
  | .samplePreload shift sampled => Sys2Proof.Machine.execSamplePreload shift sampled s
  | .idcode => Sys2Proof.Machine.execIdcode s
  | .usercode => Sys2Proof.Machine.execUsercode s
  | .clamp => Sys2Proof.Machine.execClamp s
  | .highz => Sys2Proof.Machine.execHighz s
  | .extestPulse shift idles => Sys2Proof.Machine.execExtestPulse shift idles s
  | .extestTrain shift ticks => Sys2Proof.Machine.execExtestTrain shift ticks s
  | .bypass opcode => Sys2Proof.Machine.execBypass opcode s
  | .rootPllRelock => Sys2Proof.Machine.execRootPllRelock s
  | .watchdogKick core => Sys2Proof.Machine.execWatchdogKick core s
  | .sahtinRestartDone => Sys2Proof.Machine.execSahtinRestartDone s
  | .rootOfTrustRestartDone => Sys2Proof.Machine.execRootOfTrustRestartDone s
  | .atsEnable port ld enable stu => Sys2Proof.Machine.execAtsEnable port ld enable stu s
  | .rejoinHistory p => Sys2Proof.Machine.execRejoinHistory p s
  | .detachWaitExpiry entry => Sys2Proof.Machine.execDetachWaitExpiry entry s
  | .sourceConfigWrite core source value => Sys2Proof.Machine.execSourceConfigWrite core source value s
  | .vddAuxRise => Sys2Proof.Machine.execVddAuxRise s

end Sys2Proof.Machine
end

