-- ==== Sys2Proof/Machine/Flags.lean ====
section
/-! DEFINITION. Registers that are read without a command: the context page of R105, the privileged view of R107, and those of Sahtin (R494, R497,
R516, R555) and of logical devices (R79, R103). -/
namespace Sys2Proof.Machine

/-- What a read of `size` bytes at an offset of context page `k` of a logical device returns (R104, R105): 0 on a device to which the
context is not bound, and to an access that is not an aligned 8 B one. The doorbells are write only. -/
def contextPage (s : State) (port ld k off size : Nat) : Nat :=
  if size != 8 || off % 8 != 0 then 0
  else match tfind s.cle.ctxs k with
  | none => 0
  | some c =>
    if c.state = 3 || c.port != port || c.ld != ld then 0
    else if off = 0x10 then c.sqHead
    else if off = 0x18 then packBits [(2, c.state), (14, 0), (16, c.haltCode)]
    else 0

/-- The alert latches that a write of ones leaves (R107: W1C). -/
def w1c (latches written : Nat) : Nat := [0, 1, 2, 3].foldl (fun a i => if bitOf written i then clearBit a i else a) latches

/-- What an aligned 8 B read of the privileged view returns (R107): absent while `CXL_PRIV_LD` names no device, and on every other
device. -/
def privilegedView (s : State) (port ld off : Nat) : Option Nat :=
  if rCxlPrivLd s != port + 32 * ld then none
  else some (
    if off = 0x00 then packBits [(16, 0x4800), (8, s.asm.hbmStacks), (8, s.asm.dies)]
    else if off = 0x08 then fwVersion s
    else if off = 0x10 then packBits [(3, s.rst.nodeState), (1, b2n s.car.tiered), (1, b2n s.sah.up)]
    else if off = 0x18 then s.cxl.alerts
    else if off = 0x20 then (noteSummary s).sah.summarySeq
    else if off = 0x28 then s.cxl.heartbeat
    else 0)

/-! ### Registers of Sahtin (R494, R497, R516, R555) -/

/-- The configuration word of an internal source at a core's controller (R494). Source 0 always has priority 0, is enabled and targets
every core; the target its word shows is the core's own (log 131, DESIGN CHOICE). -/
def sourceWord (s : State) (core src : Nat) : Nat :=
  let k := sicOf s core
  let set := if src = 0 then 16 * core + 64 else bits (tget 15 k.config src) 0 7
  packBits [(7, set), (1, b2n (decide (src ∈ k.pending)))]

/-- What a read of a core's interrupt register returns (R497), but for CLAIM, which the command CLAIM reads. EOI is write only. -/
def sicRegister (s : State) (core off : Nat) : Nat :=
  let k := sicOf s core
  if off = 0x10 then
    let top := k.stack.headD (0, 0)
    packBits [(5, k.stack.length), (3, 0), (8, top.1), (4, top.2)]
  else if off = 0x18 then packBits [(8, k.faultEoi), (8, k.faultTop)]
  else 0

/-- What a read of a receive-buffer register returns (R516). RELEASE is a command. -/
def rxRegister (s : State) (off : Nat) : Nat :=
  if off = 0x00 then packBits [(1, b2n s.sah.bankB), (1, b2n s.sah.held), (1, b2n s.sah.full), (1, b2n s.sah.overrun)]
  else if off = 0x08 then packBits [(16, s.sah.heldFrames), (16, s.sah.fillFrames)]
  else 0

/-- The boot control record (R555). -/
def controlRecord (s : State) : Bytes :=
  let b := packLE [(4, packBits [(1, s.fw.active), (1, b2n s.fw.trial), (6, 0), (8, s.fw.tries)]), (4, s.fw.bcrSeq)]
  b ++ toLE 4 (crc32c b)

/-! ### Configuration and component registers of a logical device (R79, R103, R108) -/

/-- The sizes of a logical device's BARs (R103): BAR4 is absent but on the device with the privileged view. -/
def barSize (s : State) (port ld bar : Nat) : Nat :=
  if bar = 0 then 2 ^ 17 else if bar = 2 then 2 ^ 24 else if bar = 4 && rCxlPrivLd s == port + 32 * ld then 4096 else 0

/-- What lies at an offset of BAR0 (R103): 0 the component registers, 1 the device registers, 2 the MSI-X table and PBA. -/
def bar0Area (off : Nat) : Nat := if off < 0x10000 then 0 else if off < 0x18000 then 1 else 2

/-- The Table Size field of MSI-X (R79). -/
def msixTableSize : Nat := 2047

/-- An entry of the MSI-X table: address, data and mask bit (R103, R483). -/
def msixEntry (s : State) (port ld vector : Nat) : Nat × Nat × Bool :=
  let m := msixOf s (ldKey port ld)
  let e := tget (0, 0) m.table vector
  (e.1, e.2, !decide (vector ∈ m.unmasked))

/-- Memory Active of a logical device (R108, t5): its port is up and the node is in service. -/
def memoryActive (s : State) (port ld : Nat) : Bool := ldUp s port ld && portsReady s

/-- The Range Size Low register of CXL 3.1 (log 126, PRESUMED): Memory_Info_Valid, Memory_Active, and the Memory_Active_Timeout of 64 s (R108). -/
def rangeSizeLow (s : State) (port ld : Nat) : Nat := packBits [(1, 1), (1, b2n (memoryActive s port ld)), (11, 0), (3, 3)]

/-- The Memory Device Status of CXL 3.1 (log 126, PRESUMED): Device Fatal in the fault state, media ready, mailbox ready. -/
def deviceStatus (s : State) (port ld : Nat) : Nat :=
  packBits [(1, b2n (s.rst.nodeState == 4)), (1, b2n s.fw.stopped), (2, b2n (memoryActive s port ld)), (1, b2n (ldUp s port ld))]

/-- The AER Correctable Error Status, and the Uncorrectable and Correctable Error Status of the CXL RAS capability (R79, R103; log 126,
PRESUMED). -/
def errorStatus (s : State) (port ld : Nat) : Nat × Nat × Nat :=
  let x := ldOf s (ldKey port ld)
  (x.aer, x.rasUnc, x.rasCor)

/-- The rate, width and flit format that the link registers of a logical device's port show (R79, R103). -/
def linkStatus (s : State) (port ld : Nat) : Nat × Nat × Bool :=
  let x := portOf s (keyOf s port ld)
  (x.rate, x.width, x.latencyOpt)

/-- The IDE capability of BAR0 (R79, R103; log 126, PRESUMED): containment and skid modes are supported; then whether IDE is in use on CXL.mem,
and whether in skid mode. -/
def ideStatus (s : State) (port ld : Nat) : Nat :=
  let x := tdiOf s (ldKey port ld)
  packBits [(1, 1), (1, 1), (1, b2n (decide (0 ∈ x.active))), (1, b2n x.skid)]

/-- The extended security capability of BAR0 (R103): `n` bytes, whose values the spec does not give (log 126, PRESUMED). -/
def securityBytes (port ld n : Nat) : Bytes := (List.range n).map fun i => BitVec.ofNat 8 (Config.extSecurity (ldKey port ld) i)

/-- The CDAT of a logical device, as Data Object Exchange returns it (R79): `n` bytes (log 126, PRESUMED). -/
def cdatBytes (port ld n : Nat) : Bytes := (List.range n).map fun i => BitVec.ofNat 8 (Config.cdat (ldKey port ld) i)

end Sys2Proof.Machine
end

