-- ==== Sys2Proof/Safety.lean ====
section
/-! DEFINITION. What counts as a safe run: every step of it answers a next state. -/
namespace Sys2Proof

/-- The state after `n` steps, or none when one of them stopped. -/
def runs : Nat → Machine.State → Option Machine.State
  | 0, s => some s
  | n + 1, s => match Machine.step s with | .next t => runs n t | _ => none

/-- A run of `n` steps from a state is safe: none of its steps faults or is refused. -/
def Safe (n : Nat) (s : Machine.State) : Prop := (runs n s).isSome

/-- A command completes in a state: its meaning answers a next state. -/
def Completes (c : Instr) (s : Machine.State) : Prop := ∃ t, Machine.exec c s = .next t

end Sys2Proof
end

