-- ==== Sys2Proof/WellFormed.lean ====
section
/-! DEFINITION. Which commands are well formed: every operand fits the field that carries it, or names a unit that the largest assembly
has. What a well-formed command with a value out of an entry's range gets is its meaning's answer, not a matter of form. -/
namespace Sys2Proof

/-- A packet whose fields fit the header of R354 and whose payload fits LENGTH (R354: at most 1,024 B). -/
def Packet.wf (p : Packet) : Bool :=
  decide (p.opcode < 256) && decide (p.dest < 4096) && decide (p.src < 4096) && decide (p.tag < 65536) && decide (p.dir < 2) &&
  decide (p.pga < 2 ^ 62) && decide (p.partition < 64) && decide (p.waypoint < 4096) && decide (p.hops < 128) &&
  decide (p.seq < 2 ^ 32) && decide (p.wgen < 65536) && decide (p.status < 256) && decide (p.view < 16) && decide (p.aux < 2 ^ 64) &&
  decide (p.payload.length ≤ 1024)

/-- A flit whose fields fit the header of R370. -/
def Flit.wf (f : Flit) : Bool :=
  decide (f.ftype < 4) && decide (f.vc < 8) && decide (f.seq < 4096) && decide (f.ack < 4096) && decide (f.cvc < 8) &&
  decide (f.credit < 4096) && decide (f.first < 256) && decide (f.rsvd < 8) && decide (f.payload.length + f.pad.length ≤ 244) &&
  decide (f.crc < 2 ^ 32)

/-- An M2S request of a port of the largest assembly, with a 16-bit tag, a listed SnpType and meta value (R86). -/
def M2S.wf (m : M2S) : Bool :=
  decide (m.port < 24) && decide (m.ld < 16) && decide (m.hpa < 2 ^ 64) && decide (m.tag < 65536) && decide (m.snp < 4) &&
  decide (m.mval < 4) && decide (m.linkErrors < 65536)

/-- A decoder whose base, size and offset fit their registers (R93). -/
def DecoderArg.wf (d : DecoderArg) : Bool := decide (d.base < 2 ^ 64) && decide (d.size < 2 ^ 64) && decide (d.dpa < 2 ^ 64)

/-- A parameter page whose numbers fit its fields, with marks of plane blocks of groups that a unit number reaches (R216). -/
def TargetPage.wf (t : TargetPage) : Bool :=
  decide (t.data < 2 ^ 32) && decide (t.spare < 65536) && decide (t.planes < 256) && decide (t.pages < 2 ^ 32) && decide (t.luns < 256) &&
  decide (t.groups < 2 ^ 32) && t.bad.all fun b => decide (b.1 < 65536) && decide (b.2 < 16)

/-- A read of a unit: at most 16 codewords, and sub-blocks of the unit (R217). -/
def UnitRead.wf (u : UnitRead) : Bool :=
  decide (u.steps.length ≤ 16) && decide (u.errors < 65536) && u.altered.all fun k => decide (k < 16)

/-- Whether NASIDOM_WRITE spells a write of an entry: not of one that a command of its own writes (log 92, DESIGN CHOICE), but for a value that is none
of that entry's actions. -/
def writesEntry (index sub : Nat) (part : Bytes) : Bool :=
  match Machine.dictFind index sub with
  | some e => !Machine.hasCommand e || Machine.strayAction (Machine.dictKey index sub) part
  | none => true

/-- Whether a command is well formed. -/
def Instr.wf : Instr → Bool
  | .rootPllLockLoss | .pgaGrant _ _ | .purgeWaitTimeout _ | .recallTimeout _ | .proxyRecallTimeout _ | .recallBackstopTimeout _
  | .ackTimeout _ | .dirtyHigh | .commitComplete _ | .carStreamAlloc _ | .carStream _ _ | .streamStart _ | .streamStop _
  | .streamRewind _ | .streamFree _ | .journalRecordDurable _ | .checkpointRoundStart
  | .checkpointRoundComplete | .operationResume _ | .garbageCollection
  | .translationCompletion _ _ _ _ _ | .xlateTimeout _ | .faultTimeout _ | .portDownFaultTimeout _ | .contextRelease _ | .cleContext _ _
  | .bind _ | .unbind _ | .resume _ | .contextReset _ | .leaveRequest _ _ | .chunkResult _ _ | .chunkError _ _ _ | .chunkTimeout _
  | .lostTimeout _ _ | .keepaliveSend | .jobComplete _ | .winGrant _ _ | .winBind _ _ | .contribTimeout _ _ | .releaseResend _ _
  | .transitReinject | .spillSend | .faultNoticeRepeat | .tagAllocate | .lnkReinjectExpired | .acceptancePass | .heartbeatSend
  | .partnerTimeout | .bodyWaitTimeout _ | .resilverUnit | .refill | .wghGateList _ _ | .keyRecordTableDurable | .eventWrite
  | .bankRelease | .overrun | .dtlsHandshake _ | .sessionIdleTimeout _ | .summary _ | .noticeResend _ | .drainAcknowledged _ _ _
  | .loopTick _ _ | .thermalCompare _ | .storedWriteComplete | .fwStageData _ _ | .fwUpdateVerify _ | .fwUpdateActivate _
  | .fwUpdateCommit _ | .fwUpdateRevert _ | .fwUpdateCommitSvn _ | .handoffTimerExpiry | .rootOfTrustWatchdog | .nodeResetNAssert _
  | .nodeResetNRelease | .memoryBistDone _ _ _ _ | .startUpHoldEnd | .nodeRecoverN _ _ | .ceWindowEnd
  | .vddAuxFall | .extest _ _ | .samplePreload _ _ | .idcode | .usercode | .clamp | .highz | .extestPulse _ _ | .extestTrain _ _
  | .rootPllRelock | .sahtinRestartDone | .rootOfTrustRestartDone | .vddAuxRise => true
  | .ringInject src dst _ _ => decide (src < 23) && decide (dst < 23)
  | .ringEject stop | .ringStopHang stop => decide (stop < 23)
  | .reserveTimeout entry | .grantClearDone entry | .dcAcceptTimeout entry | .dcReleaseTimeout entry | .revokeRecallResend entry
  | .revokeComplete entry | .migrateCopyDone entry | .drainWindowExpiry entry | .rearmTimeout entry | .detachWaitExpiry entry =>
    decide (entry < 2 ^ 20)
  | .pgaRevoke _ entry | .pgaRevokeForced _ entry => decide (entry < 2 ^ 32)
  | .pgaMigrate _ entry coord => decide (entry < 2 ^ 32) && decide (coord < 65536)
  | .pgaRebind _ old new length => decide (old < 2 ^ 64) && decide (new < 2 ^ 64) && decide (length < 2 ^ 64)
  | .reserve p | .unreference p | .rebindNotice p | .windowBind p | .migrateReserve p | .migrateHandover p | .migrateRelease p | .purge p
  | .revokeRecall p | .chunkWrite p | .atomic p | .append p | .commit p | .contrib p _ | .release p | .generation p | .transitAck p
  | .fault p | .read p | .write p | .cleanEvict p | .stage p | .recallOp p | .recallRsp p | .data p | .done p | .ack p | .probe p _
  | .answer p | .keepalive p | .count p | .heartbeat p | .stamp p | .patch p | .staleReport p | .resilverMeta p | .rejoinHistory p => p.wf
  | .perstDeassert port | .perstAssert port | .cxlLinkDown port | .portResetDone port | .purgeResend port | .gpf port | .viral port =>
    decide (port % 32 < 24) && decide (port < 64)
  | .cxlPortReset _ port value | .cxlPortBifurcate _ port value | .tstCxlMargin _ port value _ =>
    decide (port < 24) && decide (value < 256)
  | .portTrained port rate width => decide (port % 32 < 24) && decide (port < 64) && decide (rate < 256) && decide (width < 256)
  | .cxlTrainingFails port cause => decide (port % 32 < 24) && decide (port < 64) && decide (cause < 256)
  | .memRd m _ | .memRdData m | .memInv m | .memInvNt m | .memSpecRd m | .memClnEvct m | .unsupportedM2s m => m.wf
  | .memWr m body _ => m.wf && body.length == 64
  | .memWrPtl m body be _ => m.wf && body.length == 64 && decide (be < 2 ^ 64)
  | .birsp port ld bitag kind low =>
    decide (port % 32 < 24) && decide (port < 64) && decide (ld < 16) && decide (bitag < 4096) && decide (kind < 6) && decide (low < 4)
  | .biconflict port ld bitag _ => decide (port % 32 < 24) && decide (port < 64) && decide (ld < 16) && decide (bitag < 4096)
  | .biDecoderProgram port ld biId =>
    decide (port < 24) && decide (ld < 16) && (match biId with | some k => decide (k < 4096) | none => true)
  | .hdmDecoderCommit port ld index d => decide (port < 24) && decide (ld < 16) && decide (index < 10) && d.wf
  | .identify port ld | .backgroundOperationStatus port ld | .getEventInterruptPolicy port ld | .setEventInterruptPolicy port ld _
  | .getTimestamp port ld | .getSupportedLogs port ld | .identifyMemoryDevice port ld | .getPartitionInfo port ld
  | .getHealthInfo port ld | .addDynamicCapacityResponse port ld _ | .releaseDynamicCapacity port ld _ | .cxlRegionLength _ port ld _
  | .getVersion port ld | .getCapabilities port ld | .negotiateAlgorithms port ld | .getDigests port ld | .lockedRegisterWrite port ld
  | .atsEnable port ld _ _ => decide (port < 24) && decide (ld < 16)
  | .getEventRecords port ld log | .clearEventRecords port ld log _ _ => decide (port < 24) && decide (ld < 16) && decide (log < 256)
  | .setTimestamp port ld at_ => decide (port < 24) && decide (ld < 16) && decide (at_ < 2 ^ 64)
  | .getLog port ld uuid offset length =>
    decide (port < 24) && decide (ld < 16) && uuid.length == 16 && decide (offset < 2 ^ 32) && decide (length < 2 ^ 32)
  | .getPoisonList port ld dpa length remote =>
    decide (port < 24) && decide (ld < 16) && decide (dpa < 2 ^ 64) && decide (length < 2 ^ 64) && remote.all fun a => decide (a < 2 ^ 64)
  | .injectPoison port ld dpa => decide (port < 24) && decide (ld < 16) && decide (dpa < 2 ^ 64)
  | .clearPoison port ld dpa body => decide (port < 24) && decide (ld < 16) && decide (dpa < 2 ^ 64) && body.length == 64
  | .getDynamicCapacityConfiguration port ld cnt start =>
    decide (port < 24) && decide (ld < 16) && decide (cnt < 256) && decide (start < 256)
  | .getDynamicCapacityExtentList port ld cnt start =>
    decide (port < 24) && decide (ld < 16) && decide (cnt < 2 ^ 32) && decide (start < 2 ^ 32)
  | .unsupportedMailbox port ld opcode => decide (port < 24) && decide (ld < 16) && decide (opcode < 65536)
  | .sqTail port ld page value _ | .cqHead port ld page value _ =>
    decide (port < 24) && decide (ld < 16) && decide (page < 2 ^ 20) && decide (value < 2 ^ 32)
  | .alertLatchClear value | .safeThrottle value | .marRoute _ value => decide (value < 2 ^ 32)
  | .channelFenced slice channel => decide (slice < 16) && decide (channel < 3)
  | .ldgChannelReadmit _ slice value => decide (slice < 16) && decide (value < 256)
  | .autoReadmit slice | .sliceStop slice | .ledgerScanDone slice _ => decide (slice < 16)
  | .ldgClearPoison _ pga => decide (pga < 2 ^ 64)
  | .carModeNext _ value | .stkFormat _ value | .marRouteReset _ value | .wghSafeClear _ value | .irqGlobalDisable _ value
  | .sahAlertClear _ value | .fwRestart _ value | .tstNodeRecover _ value | .tstColdReset _ value => decide (value < 256)
  | .fillArrives block found => decide (block < 2 ^ 34) && found.wf
  | .writeBackDone block | .stageHoldExpiry block => decide (block < 2 ^ 34)
  | .programDone _ bad | .eraseDone _ bad => decide (bad < 16)
  | .relocationDone _ bad found => decide (bad < 16) && found.wf
  | .flashPatrol _ found => found.wf
  | .mapLoadDone found _ _ => found.all fun t => decide (t.1 < 512) && t.2.wf
  | .nodeRecoveryEnd _ untrained _ => untrained.all fun t => decide (t < 512)
  | .carCommit _ pga length rec_ => decide (pga < 2 ^ 64) && decide (length < 2 ^ 64) && decide (rec_ < 256)
  | .segmentListFetch stream => decide (stream < 4096)
  | .stageRetry stream block => decide (stream < 4096) && decide (block < 2 ^ 34)
  | .refreshDue stack | .temperatureRead stack _ | .levelChangeDone stack | .hbmStackDrain _ stack | .hbmStackRelease _ stack
  | .retrainingDone stack | .patrolScrub stack _ _ | .coldTrainingDone stack _ _ _ => decide (stack < 16)
  | .retrainingPause stack pc _ | .stackControllerHang stack pc => decide (stack < 16) && decide (pc < 64)
  | .hbmRetrainStack _ stack value | .tstStackBist _ stack value _ => decide (stack < 16) && decide (value < 256)
  | .targetFailure target => decide (target < 512)
  | .invalidateRequest port ld itag pasid addr _ =>
    decide (port < 24) && decide (ld < 16) && decide (itag < 32) &&
    (match pasid with | some k => decide (k < 2 ^ 20) | none => true) && decide (addr < 2 ^ 64)
  | .tlbInvalidate _ ctx cva length => decide (ctx < 65536) && decide (cva < 2 ^ 64) && decide (length < 2 ^ 64)
  | .engineInvalidateAck _ quad | .chunkIssue _ quad _ | .quadHang quad => decide (quad < 1024)
  | .pageGroupResponse index code pasid => decide (index < 512) && decide (code < 16) && decide (pasid < 2 ^ 20)
  | .priEnable port ld allocation => decide (port < 24) && decide (ld < 16) && decide (allocation < 2 ^ 32)
  | .contextAssign _ part => decide (part < 256)
  | .unbindComplete ctx | .contextResetComplete ctx | .descriptorFetch ctx | .coalesceTimer ctx => decide (ctx < 4096)
  | .winRearm _ expected => decide (expected < 2 ^ 32)
  | .marNodeCoord _ value | .marRingSize _ value => decide (value < 65536)
  | .marPortEnable _ port value | .tstLinkMargin _ port value _ => decide (port < 7) && decide (value < 256)
  | .packetRoute port p _ => (match port with | some k => decide (k < 7) | none => true) && p.wf
  | .tagQuarantineEnd tag | .secondTimeout tag | .compareWindowExpiry tag | .requestTimeout tag | .tagHoldExpiry tag =>
    decide (tag < 65536)
  | .chunkWriteDiscard src tag => decide (src < 4096) && decide (tag < 65536)
  | .dataFlit port f | .controlFlit port f | .offer port f | .accept port f => decide (port < 7) && f.wf
  | .ackReport port | .nakResend port | .replayTimeout port | .deadTime port _ | .trainingFails port
  | .offerResend port | .lnkRetryInterval port => decide (port < 7)
  | .phyTrained port _ polarity => decide (port < 7) && decide (polarity < 2 ^ 32)
  | .twnAttach _ entry ans _ => decide (entry < 2 ^ 32) && decide (ans < 256)
  | .twnDetach _ entry keep => decide (entry < 2 ^ 32) && decide (keep < 256)
  | .twnSwap _ verify => decide (verify < 256)
  | .schedulerSelect sched | .gateEntry sched => decide (sched < 47)
  | .wheelSlot sched cls => decide (sched < 47) && decide (cls < 8)
  | .wghBurst _ cls value => decide (cls < 256) && decide (value < 2 ^ 32)
  | .wghOverhead _ cls value => decide (cls < 256) && decide (value < 256)
  | .partitionCreate _ part | .partitionRotate _ part | .partitionSweep _ part | .rekeyWrite part _ | .rekeyDone part
  | .sweepStepDone part | .lckTenantCred _ part _ => decide (part < 64)
  | .lckLdPartition _ port ld value => decide (port < 24) && decide (ld < 16) && decide (value < 256)
  | .lckAttest _ nonce => nonce.length == 32
  | .getCertificate port ld offset length => decide (port < 24) && decide (ld < 16) && decide (offset < 65536) && decide (length < 65536)
  | .challenge port ld slot nonce => decide (port < 24) && decide (ld < 16) && decide (slot < 256) && nonce.length == 32
  | .getMeasurements port ld index nonce => decide (port < 24) && decide (ld < 16) && decide (index < 256) && nonce.length == 32
  | .keyExchange port ld random => decide (port < 24) && decide (ld < 16) && random.length == 32
  | .finish port ld session | .spdmHeartbeat port ld session | .endSession port ld session | .query port ld session
  | .getTdispVersion port ld session | .getTdispCapabilities port ld session | .lockInterfaceRequest port ld session
  | .getDeviceInterfaceState port ld session | .stopInterfaceRequest port ld session =>
    decide (port < 24) && decide (ld < 16) && decide (session < 2 ^ 32)
  | .keyUpdate port ld session op => decide (port < 24) && decide (ld < 16) && decide (session < 2 ^ 32) && decide (op < 256)
  | .chunkSend port ld seq _ _ | .chunkGet port ld seq => decide (port < 24) && decide (ld < 16) && decide (seq < 65536)
  | .keyProg port ld session stream | .kSetGo port ld session stream | .kSetStop port ld session stream =>
    decide (port < 24) && decide (ld < 16) && decide (session < 2 ^ 32) && decide (stream < 256)
  | .getDeviceInterfaceReport port ld session offset length =>
    decide (port < 24) && decide (ld < 16) && decide (session < 2 ^ 32) && decide (offset < 65536) && decide (length < 65536)
  | .startInterfaceRequest port ld session nonce =>
    decide (port < 24) && decide (ld < 16) && decide (session < 2 ^ 32) && decide (nonce < 2 ^ 256)
  | .ideIntegrityFailure port ld stream => decide (port < 24) && decide (ld < 16) && decide (stream < 256)
  | .holdoffEnd port ld group => decide (port < 24) && decide (ld < 16) && decide (group < 64)
  | .maskClear port ld vector entry =>
    decide (port < 24) && decide (ld < 16) && decide (vector < 2048) &&
    (match entry with | some e => decide (e.1 < 2 ^ 64) && decide (e.2 < 2 ^ 32) | none => true)
  | .irqCqCoalesce _ cnt time => decide (cnt < 65536) && decide (time < 65536)
  | .claim core | .watchdog core | .sahtinUeTrap core _ | .watchdogKick core => decide (core < 4)
  | .eoi core source => decide (core < 4) && decide (source < 256)
  | .frameReceived frame _ => decide (14 ≤ frame.length)
  | .nasidomRead _ index sub offset => decide (index < 65536) && decide (sub < 256) && decide (offset < 2 ^ 32)
  | .nasidomWrite _ index sub offset _ part =>
    decide (index < 65536) && decide (sub < 256) && decide (offset < 2 ^ 32) && writesEntry index sub part
  | .subscribeAdd _ slot low high severity start =>
    decide (slot < 256) && decide (low < 65536) && decide (high < 65536) && decide (severity < 256) && decide (start < 2 ^ 64)
  | .subscribeRemove _ slot => decide (slot < 256)
  | .subscribeAcknowledge _ slot seq => decide (slot < 256) && decide (seq < 2 ^ 64)
  | .rdmaQpOpen _ _ remoteQp mtu => decide (remoteQp < 2 ^ 32) && decide (mtu < 65536)
  | .rdmaQpClose _ qp => decide (qp < 2 ^ 32)
  | .rdmaRegionRegister _ base length part perms =>
    decide (base < 2 ^ 64) && decide (length < 2 ^ 64) && decide (part < 256) && decide (perms < 256)
  | .rdmaRegionRemove _ rkey => decide (rkey < 2 ^ 32)
  | .sahDrain _ pga length qp addr rkey =>
    decide (pga < 2 ^ 64) && decide (length < 2 ^ 64) && decide (qp < 2 ^ 32) && decide (addr < 2 ^ 64) && decide (rkey < 2 ^ 32)
  | .rdmaWrite qp rkey va _ => decide (qp < 2 ^ 24) && decide (rkey < 2 ^ 32) && decide (va < 2 ^ 64)
  | .rdmaRead qp rkey va length => decide (qp < 2 ^ 24) && decide (rkey < 2 ^ 32) && decide (va < 2 ^ 64) && decide (length < 2 ^ 32)
  | .fwHostDeclare _ major minor _ => decide (major < 256) && decide (minor < 256)
  | .sahWallTime _ value => decide (value < 2 ^ 64)
  | .tstSliceReset _ quad | .tstQuadBist _ quad _ => decide (quad < 65536)
  | .tstCxlHold _ port | .tstCxlHoldRelease _ port => decide (port < 24)
  | .tstNandChannel _ channel value _ => decide (channel < 64) && decide (value < 256)
  | .bypass opcode => decide (8 ≤ opcode) && decide (opcode < 256)
  | .sourceConfigWrite core source value => decide (core < 4) && decide (source < 256) && decide (value < 256)

end Sys2Proof
end

