-- ==== Sys2Proof/Certificates/Slice0/Obligations.lean ====
section
/-! DEFINITION. The statements that are to be proved. Most say where commands complete: under hypotheses on the state and the operands
alone `exec` answers a next state, and what that state holds. -/
namespace Sys2Proof.Claims
open Sys2Proof Sys2Proof.Machine

/-- Whether a session takes a request as new (R530): its number is neither running nor cached, it is no older than every cached one, and
fewer than 64 requests are outstanding. -/
def newFor (x : Session) (req : Nat) : Bool :=
  x.cache.all (fun c => c.1 != req) && x.running.all (fun r => r.1 != req) &&
  (x.cache.isEmpty || x.cache.any fun c => decide (c.1 ≤ req)) && decide (x.running.length < 64)

/-- Whether the node takes a request now from a session of a role (1 warden, 2 tenant, 3 observer): Nasidom answers, the session is open, its
declaration was not refused (R552), the header is well formed (R9, R521), and the request is new. -/
def taken (s : State) (q : Ask) (role : Nat) : Bool :=
  s.sah.up && q.version == 1 && q.reserved == 0 && match sessionOf s q.sid with | some x => x.role == role && newFor x q.req && !undeclared x | none => false

/-- What a session selected in a `_SELECT` entry whose default is 0 (R520). -/
def selected (s : State) (q : Ask) (key : Nat) : Nat := match sessionOf s q.sid with | some x => selectOf x key 0 | none => 0

/-- The partition of a tenant's session. -/
def partitionOf (s : State) (q : Ask) : Nat := match sessionOf s q.sid with | some x => x.part | none => 0

/-- Whether the last thing the node sent is the answer of a status to a request. -/
def answered (t : State) (q : Ask) (status : Nat) : Bool :=
  match t.out with | .nasidom sid req st _ _ :: _ => sid == q.sid && req == q.req && st == status | _ => false

/-- Whether a packet that asks a home for an operation is well formed and new at this node (R356, R392). -/
def newHere (s : State) (p : Packet) : Bool := !malformedPacket p && acceptance p s == 0

/-- Every byte, every line's metadata and every physical error of memory is as it was. -/
def linesKept (s t : State) : Prop := t.mem.data = s.mem.data ∧ t.mem.info = s.mem.info ∧ t.mem.damage = s.mem.damage

/-- Memory keeps its canonical form and the assembly is one that is built (R4). -/
def Inv (s : State) : Prop :=
  Memory.wf s.mem = true ∧ s.asm.hbmStacks ∈ [8, 12, 16] ∧ s.asm.dies ∈ [1, 2, 3]

/-- Whether a host's message goes on to its home, which is another node: its link is up and has room, the logical device has a BI-ID, and a
decoder and the active binding `n` give the PGA (R49, R89, R92, R94, R111). -/
def goesOut (s : State) (m : M2S) (isWrite : Bool) (lda n : Nat) (e : BookEntry) (pga : Nat) : Prop :=
  ldUp s m.port m.ld = true ∧ m2sOut s (keyOf s m.port m.ld) < m2sLimit s m.port ∧ (portQueue s m.port (halfOf s m.port m.ld)).length < m2sLimit s m.port ∧
  (ldOf s (ldKey m.port m.ld)).bi.isSome = true ∧ (tdiOf s (ldKey m.port m.ld)).state ≠ 3 ∧
  hdmDecode (ldOf s (ldKey m.port m.ld)) (m.hpa / 64 * 64) = some lda ∧ decodeLda s m.port m.ld lda isWrite false = some (n, e, pga) ∧
  e.partner = none ∧ e.isWin = false ∧ pgaCoord pga ≠ hereAt s ∧ purging s m.port m.ld (pgaCoord pga) = false ∧ s.car.streams = []

/-- A host's request is outstanding (R40, R61): recorded under a new number, counted at its binding, and a tag is open toward the home for a
request of a kind. -/
def outstanding (s u : State) (m : M2S) (kind : MKind) (lda n : Nat) (e : BookEntry) (pga : Nat) : Prop :=
  (∃ h, tfind u.cxl.reqs s.cxl.nextReq = some h ∧ h.port = m.port ∧ h.ld = m.ld ∧ h.tag = m.tag ∧ h.bind = some n ∧ h.lda = lda ∧
    h.part = e.part) ∧
  ((tfind s.pga.book n).isSome = true → (bookOf u n).count = (bookOf s n).count + 1) ∧
  (∀ t, freeTag s false = some t → ∃ x r, tfind u.mar.tags t = some x ∧ x.isOpen = true ∧ x.dest = pgaCoord pga ∧ x.use = .mem r ∧
    r.kind = kind ∧ r.dpa = pgaDpa pga) ∧ linesKept s u

/-- What a mailbox command sent: its return code and payload, and message 0 where it may go now (R99, R482). -/
def mailed (s t : State) (port ld code : Nat) (payload : Bytes) : Prop :=
  t.out = .mailbox port ld code payload :: s.out ∨ ∃ v addr data, t.out = .msix port ld v addr data :: .mailbox port ld code payload :: s.out

/-- A port is in reset and the hosts behind it have lost what a port reset takes (R109, R110). -/
def inPortReset (u : State) (port : Nat) : Prop :=
  (portOf u port).state = 3 ∧ ∀ ld, ld < 16 → (ldOf u (ldKey port ld)).bi = none ∧ (ldOf u (ldKey port ld)).decoders = [] ∧
    (tdiOf u (ldKey port ld)).state = 0

end Sys2Proof.Claims

open Sys2Proof Sys2Proof.Machine Sys2Proof.Claims

/-- A step with a command waiting is the meaning of that command on the state with the queue's rest. -/
def Obligations.StepRunsCommand : Prop :=
  ∀ (c : Instr) (rest : List Instr) (s : State), s.pending = c :: rest → step s = exec c { s with pending := rest }

/-- A step with nothing waiting advances node time by one nanosecond and leaves memory, the lending book, the registers and, where no
flash work waits for a LUN, what has been sent as they were (the model's choice: log 1, log 81). -/
def Obligations.IdleStep : Prop :=
  ∀ s : State, s.pending = [] → ∃ t, step s = .next t ∧ t.now = s.now + 1 ∧ t.mem = s.mem ∧ t.regs = s.regs ∧ t.pga = s.pga ∧
    t.ldg = s.ldg ∧ (s.stk.lunWait = [] → t.out = s.out) ∧ t.cle = s.cle ∧ t.mar = s.mar ∧ t.lnk = s.lnk ∧ t.evt = s.evt ∧ t.rst = s.rst ∧ t.pending = []

/-- No command stops the block: every one answers a next state, in every state. -/
def Obligations.NoCommandStops : Prop := ∀ (c : Instr) (s : State), ∃ t, exec c s = .next t

/-- Every step keeps the canonical form of memory and the assembly. -/
def Obligations.StepKeepsInvariant : Prop := ∀ s t : State, Inv s → step s = .next t → Inv t

/-- The invariant holds after reset. -/
def Obligations.ResetInvariant : Prop := Inv State.reset

/-- The on-die rings (R29 to R32) and the root PLL (R27): a stop injects a request only with a credit of its destination's buffer and a
response always; the packet takes the shorter way, ties clockwise; the oldest packet for a stop is ejected and a request's credit is free
again, or withheld while the slice behind the stop takes no requests (R126); on a loss of lock the node is held in cold reset with its fault status pin driven, and after the relock it boots. Which ring a line's
address bits choose and how many credits a stop has are the model's choices (log 85). -/
def Obligations.RingAndClock : Prop :=
  (∀ (src dst line : Nat) (isReq : Bool) (s : State), stopPresent s src = true → stopPresent s dst = true →
    (isReq = true → tget 0 s.ring.used dst < Config.stopCredits dst) →
    ∃ t p, exec (.ringInject src dst line isReq) s = .next t ∧ t.ring.flight = s.ring.flight ++ [p] ∧
      p.src = src ∧ p.dst = dst ∧ p.line = line ∧ p.isReq = isReq ∧ p.ring < 32 ∧
      (p.clockwise = true ↔ 2 * clockwiseHops src dst ≤ 23) ∧ p.arrives ≤ 11 ∧
      (isReq = false → t.ring.used = s.ring.used) ∧
      t = { s with ring := { s.ring with used := t.ring.used, flight := t.ring.flight } }) ∧
  (∀ (src dst line : Nat) (s : State), Config.stopCredits dst ≤ tget 0 s.ring.used dst →
    exec (.ringInject src dst line true) s = .next s) ∧
  (∀ (stop : Nat) (p : RingPkt) (rest : List RingPkt) (s : State), s.ring.flight = p :: rest → p.dst = stop →
    ∃ t, exec (.ringEject stop) s = .next t ∧ t.ring.flight = rest ∧
      (p.isReq = false ∨ withholds s stop = true → t.ring.used = s.ring.used) ∧
      (tsorted s.ring.used = true → p.isReq = true → withholds s stop = false →
        tget 0 t.ring.used stop = tget 0 s.ring.used stop - 1 ∧ t.ring.withheld = s.ring.withheld) ∧
      (tsorted s.ring.withheld = true → p.isReq = true → withholds s stop = true →
        tget 0 t.ring.withheld stop = tget 0 s.ring.withheld stop + 1) ∧
      t = { s with ring := { s.ring with used := t.ring.used, withheld := t.ring.withheld, flight := rest } }) ∧
  (∀ s : State, s.rst.pllLocked = true →
    ∃ t, exec .rootPllLockLoss s = .next t ∧ t.rst.pllLocked = false ∧ t.rst.faultN = false ∧ t.rst.inReset = true ∧
      t.rst.nodeState = 0 ∧ t.sah.up = false ∧ t.now = 0 ∧ t.mem.data = []) ∧
  (∀ s : State, s.rst.pllLocked = false → s.rst.inReset = true → s.rst.resetN = true → s.rst.vddAux = true → s.sah.tripped = false →
    s.fw.trial = false → imageValid s (slotOf s s.fw.active) = true →
    ∃ t, exec .rootPllRelock s = .next t ∧ t.rst.pllLocked = true ∧ t.rst.inReset = false ∧ t.rst.step = 2 ∧
      t.fw.running = slotOf s s.fw.active ∧ t.sah.coldBoots = s.sah.coldBoots + 1)

/-- Grants (R57 to R59, R96, R633): an accepted PGA_GRANT to one remote home makes a granting binding entry and asks the home; a home
reserves the lowest free range; a clear that ends makes the range active with one reference; a home that does not answer, or a host that does
not accept, ends the grant and frees the entry. -/
def Obligations.GrantsRun : Prop :=
  (∀ (q : Ask) (arg : Bytes) (a : GrantArg) (c lda n : Nat) (s : State), taken s q 1 = true → arg.length = 64 → grantArg s arg = some a →
    a.ways = 1 → a.members = [c] → c ≠ hereAt s → a.length ≠ 0 → a.length % 2 ^ 26 = 0 → a.length % viewMultiple a.view = 0 →
    (tdiOf s (ldKey a.port a.ld)).part = a.part → lowestLda s a.port a.ld a.region a.length = some lda →
    tfresh s.pga.book (s.pga.book.length + 1) 0 = some n → n < 1048576 →
    ∃ t, exec (.pgaGrant q arg) s = .next t ∧ (bookOf t n).kind = 2 ∧ (bookOf t n).state = 1 ∧ (bookOf t n).base = lda ∧
      (bookOf t n).length = a.length ∧ (bookOf t n).part = a.part ∧ (bookOf t n).port = a.port ∧ (bookOf t n).ld = a.ld ∧
      (bookOf t n).read = a.read ∧ (bookOf t n).write = a.write ∧ t.pga.generation = s.pga.generation + 1 ∧ linesKept s t) ∧
  (∀ (entry : Nat) (g : Grant) (s : State), tfind s.pga.grants entry = some g → g.offered = false → g.due ≤ s.now → g.bases = [] →
    firmwareHeld s = false →
    tsorted s.pga.book = true → tsorted s.pga.grants = true →
    ∃ t, exec (.reserveTimeout entry) s = .next t ∧ tfind t.pga.book entry = none ∧ tfind t.pga.grants entry = none ∧ linesKept s t) ∧
  (∀ (entry : Nat) (g : Grant) (s : State), tfind s.pga.grants entry = some g → g.offered = true → g.due ≤ s.now → g.bases = [] →
    firmwareHeld s = false →
    tsorted s.pga.book = true → tsorted s.pga.grants = true →
    ∃ t, exec (.dcAcceptTimeout entry) s = .next t ∧ tfind t.pga.book entry = none ∧ tfind t.pga.grants entry = none ∧ linesKept s t) ∧
  (∀ (entry : Nat) (c : Clear) (s : State), tfind s.pga.clears entry = some c → c.ready = true → s.car.tiered = false → c.migrate = false →
    firmwareHeld s = false → c.here = none → (bookOf s entry).window = false → (tfind s.pga.book entry).isSome = true →
    ∃ t, exec (.grantClearDone entry) s = .next t ∧ (bookOf t entry).state = 2 ∧ (bookOf t entry).count = 1 ∧
      tfind t.pga.binders entry = some [c.src] ∧
      ∀ a, (bookOf s entry).base ≤ a → a < (bookOf s entry).base / 64 * 64 + (bookOf s entry).length → (bookOf s entry).base % 64 = 0 →
        (bookOf s entry).length % 64 = 0 → tfind t.mem.data a = none) ∧
  (∀ (p : Packet) (base n : Nat) (s : State), p.opcode = 0x0B → bits p.aux 0 8 = 1 → newHere s p = true → s.car.tiered = false →
    (partOf s (leAt p.payload 8 1)).state = 1 → lowestRange s (leAt p.payload 0 8) = some base →
    bitOf (leAt p.payload 9 1) 0 = false → tfresh s.pga.book (s.pga.book.length + 1) 0 = some n → n < 1048576 →
    needsSweep s base (leAt p.payload 0 8) (leAt p.payload 8 1) = false →
    ∃ t, exec (.reserve p) s = .next t ∧ (bookOf t n).kind = 1 ∧ (bookOf t n).state = 1 ∧ (bookOf t n).base = base ∧
      (bookOf t n).length = leAt p.payload 0 8 ∧ (bookOf t n).part = leAt p.payload 8 1 ∧ (tfind t.pga.clears n).isSome = true ∧
      linesKept s t)

/-- Revokes (R61 to R66, R97, R98): without force the host is asked and the binding stays active; with force the binding is revoking at
once, or a home entry is free; a release that times out ends the command with TIMEOUT and leaves the binding active; recalls are asked for
again; the binding is freed and Capacity Released raised once its count is zero and its homes have answered; a packet takes a reference
away; REVOKE_RECALL of a range whose lines no host of the device holds is answered at once. -/
def Obligations.RevokesRun : Prop :=
  (∀ (q : Ask) (entry : Nat) (s : State), taken s q 1 = true → (bookOf s entry).kind = 2 → (bookOf s entry).state = 2 →
    revokeBusy s (bookOf s entry) = false → tfind s.pga.releases entry = none →
    ∃ t, exec (.pgaRevoke q entry) s = .next t ∧ t.pga.book = s.pga.book ∧
      tfind t.pga.releases entry = some (q, s.now + msec (rCxlDcReleaseTimeout s))) ∧
  (∀ (q : Ask) (entry : Nat) (s : State), taken s q 1 = true → (bookOf s entry).kind = 2 → revokeBusy s (bookOf s entry) = false →
    (bookOf s entry).ilv = false → pgaCoord (bookOf s entry).target ≠ hereAt s → (tfind s.pga.book entry).isSome = true →
    ∃ t, exec (.pgaRevokeForced q entry) s = .next t ∧ (bookOf t entry).state = 3 ∧ (tfind t.pga.revokes entry).isSome = true ∧
      linesKept s t) ∧
  (∀ (q : Ask) (entry : Nat) (s : State), taken s q 1 = true → (bookOf s entry).kind = 1 → (bookOf s entry).state = 2 →
    (bookOf s entry).window = false → s.car.frames = [] → s.ldg.txns = [] → tsorted s.pga.book = true →
    ∃ t, exec (.pgaRevokeForced q entry) s = .next t ∧ tfind t.pga.book entry = none ∧ answered t q stOk = true ∧ linesKept s t) ∧
  (∀ (entry due : Nat) (q : Ask) (s : State), tfind s.pga.releases entry = some (q, due) → due ≤ s.now → tsorted s.pga.releases = true →
    firmwareHeld s = false →
    ∃ t, exec (.dcReleaseTimeout entry) s = .next t ∧ tfind t.pga.releases entry = none ∧ t.pga.book = s.pga.book ∧ linesKept s t) ∧
  (∀ (entry : Nat) (r : Revoke) (s : State), tfind s.pga.revokes entry = some r → r.resend ≤ s.now → r.homes ≠ [] →
    hereAt s ∉ r.homes → firmwareHeld s = false → ∃ t, exec (.revokeRecallResend entry) s = .next t ∧
      tfind t.pga.revokes entry = some { r with resend := s.now + msec (rLdgTimeout s) } ∧ t.pga.book = s.pga.book) ∧
  (∀ (entry : Nat) (r : Revoke) (s : State), tfind s.pga.revokes entry = some r → r.homes = [] → (bookOf s entry).count = 0 →
    (bookOf s entry).ilv = false → (bookOf s entry).partner = none → pgaCoord (bookOf s entry).target ≠ hereAt s →
    firmwareHeld s = false → tsorted s.pga.book = true → tsorted s.pga.revokes = true →
    ∃ t, exec (.revokeComplete entry) s = .next t ∧ tfind t.pga.book entry = none ∧ tfind t.pga.revokes entry = none ∧ linesKept s t) ∧
  (∀ (p : Packet) (n : Nat) (h : BookEntry) (s : State), p.opcode = 0x0B → bits p.aux 0 8 = 2 → newHere s p = true →
    twinRange s (pgaDpa p.pga) = none → homeBased s (pgaDpa p.pga) = some (n, h) → 2 ≤ h.count → h.window = false →
    ∃ u, exec (.unreference p) s = .next (settle u) ∧ (bookOf u n).count = h.count - 1 ∧ (bookOf u n).state = h.state ∧ linesKept s u) ∧
  (∀ (p : Packet) (s : State), p.opcode = 0x0B → bits p.aux 0 8 = 10 → newHere s p = true →
    (∀ e ∈ s.ldg.entries, ∀ h ∈ e.2.holders, behind p.src (leAt p.payload 8 1) [leAt p.payload 9 1] h.1 = false) →
    ∃ t, exec (.revokeRecall p) s = .next t ∧ t.ldg.entries = s.ldg.entries ∧ t.pga.revokeHome = s.pga.revokeHome ∧ linesKept s t)

/-- Migration (R74 to R76, R578) and the other MANAGE operations of the lending book: the old home's range is migrating and the new home
is asked; the new home takes a granting entry; after the copy the range is blocked; the new home is active with the old one's references, or
frees its entry; a node's decode records take the new PGA; the forwarding entry is freed when its drain window ends; a window's home takes a
binder; PURGE removes the records of the hosts named. -/
def Obligations.MigrationRuns : Prop :=
  (∀ (q : Ask) (entry coord : Nat) (s : State), taken s q 1 = true → (bookOf s entry).kind = 1 → (bookOf s entry).state = 2 →
    (bookOf s entry).window = false → (bookOf s entry).twin = 0 → inTorus s coord = true → coord ≠ hereAt s →
    ∃ t, exec (.pgaMigrate q entry coord) s = .next t ∧ (bookOf t entry).state = 4 ∧
      tfind t.pga.migrates entry = some { ask := q, dest := coord } ∧ linesKept s t) ∧
  (∀ (entry : Nat) (m : Migrate) (s : State), tfind s.pga.migrates entry = some m → m.phase = 1 → m.todo = [] → m.copying = [] →
    m.marked = [] → m.sent = false → m.recalls = [] → s.ldg.entries = [] → s.ldg.txns = [] →
    firmwareHeld s = false →
    ∃ t m', exec (.migrateCopyDone entry) s = .next t ∧ tfind t.pga.migrates entry = some m' ∧ m'.phase = 2 ∧ m'.sent = true) ∧
  (∀ (q : Ask) (old new length e : Nat) (b : BookEntry) (s : State), taken s q 1 = true → old < 2 ^ 62 → new < 2 ^ 62 →
    s.pga.book = [(e, b)] → b.kind = 2 → b.ilv = false → old ≤ b.target → b.target < old + length → pgaCoord b.target ≠ hereAt s →
    ∃ t, exec (.pgaRebind q old new length) s = .next t ∧ answered t q stOk = true ∧
      (bookOf t e).target = new + (b.target - old) ∧ (bookOf t e).base = b.base ∧ linesKept s t) ∧
  (∀ (entry due : Nat) (s : State), tfind s.pga.drains entry = some due → due ≤ s.now → (bookOf s entry).window = false →
    firmwareHeld s = false →
    (tfind s.pga.book entry).isSome = true → s.car.frames = [] → s.ldg.txns = [] → tsorted s.pga.book = true → tsorted s.pga.drains = true →
    ∃ t, exec (.drainWindowExpiry entry) s = .next t ∧ tfind t.pga.book entry = none ∧ tfind t.pga.drains entry = none) ∧
  (∀ (p : Packet) (n e : Nat) (b : BookEntry) (s : State), p.opcode = 0x0B → bits p.aux 0 8 = 3 → newHere s p = true →
    s.pga.book = [(e, b)] → b.kind = 2 → b.ilv = false → p.pga ≤ b.target → b.target < p.pga + leAt p.payload 8 8 →
    pgaCoord b.target ≠ hereAt s → n = leAt p.payload 0 8 + (b.target - p.pga) →
    ∃ t, exec (.rebindNotice p) s = .next t ∧ (bookOf t e).target = n ∧ (bookOf t e).base = b.base ∧ linesKept s t) ∧
  (∀ (p : Packet) (n : Nat) (h : BookEntry) (s : State), p.opcode = 0x0B → bits p.aux 0 8 = 4 → newHere s p = true →
    twinRange s (pgaDpa p.pga) = none → homeBased s (pgaDpa p.pga) = some (n, h) → h.window = true → h.state = 2 →
    h.part = leAt p.payload 0 1 → (winOf s n).state ≠ 3 →
    ∃ t, exec (.windowBind p) s = .next t ∧ (bookOf t n).count = h.count + 1 ∧ (winOf t n).binders = p.src :: (winOf s n).binders ∧
      linesKept s t) ∧
  (∀ (p : Packet) (base n : Nat) (s : State), p.opcode = 0x0B → bits p.aux 0 8 = 5 → newHere s p = true → s.car.tiered = false →
    (partOf s (leAt p.payload 8 1)).state = 1 → lowestRange s (leAt p.payload 0 8) = some base →
    tfresh s.pga.book (s.pga.book.length + 1) 0 = some n → n < 1048576 →
    needsSweep s base (leAt p.payload 0 8) (leAt p.payload 8 1) = false →
    ∃ t, exec (.migrateReserve p) s = .next t ∧ (bookOf t n).kind = 1 ∧ (bookOf t n).state = 1 ∧ (bookOf t n).base = base ∧ linesKept s t) ∧
  (∀ (p : Packet) (n : Nat) (h : BookEntry) (s : State), p.opcode = 0x0B → bits p.aux 0 8 = 6 → newHere s p = true →
    homeBased s (pgaDpa p.pga) = some (n, h) → h.state = 1 →
    ∃ t, exec (.migrateHandover p) s = .next t ∧ (bookOf t n).state = 2 ∧ (bookOf t n).count = leAt p.payload 0 4 ∧ linesKept s t) ∧
  (∀ (p : Packet) (n : Nat) (h : BookEntry) (s : State), p.opcode = 0x0B → bits p.aux 0 8 = 7 → newHere s p = true →
    homeBased s (pgaDpa p.pga) = some (n, h) → h.state = 1 → h.window = false → s.car.frames = [] → s.ldg.txns = [] →
    tsorted s.pga.book = true →
    ∃ t, exec (.migrateRelease p) s = .next t ∧ tfind t.pga.book n = none) ∧
  (∀ (p : Packet) (l h i d : Nat) (e : LEntry) (s : State), p.opcode = 0x0B → bits p.aux 0 8 = 9 → newHere s p = true →
    s.ldg.entries = [(l, e)] → e.owned = false → e.holders = [(h, i)] → d < 16 → bitOf (leAt p.payload 2 2) d = true →
    holderLd h = d → holderPort h = leAt p.payload 0 1 → holderCoord h = p.src →
    ∃ t, exec (.purge p) s = .next t ∧ t.ldg.entries = [] ∧ linesKept s t)


/-- CXL ports (R84, R95, R108 to R111): a held port trains once its reset input is deasserted in a node in service; a trained port is up;
a port whose training fails is down; reset input, link loss and command take an up port into reset with its hosts' BI-IDs, decoders and TDIs
gone; a port whose reset is done trains or waits; a purge is sent again; region lengths and the split are set. -/
def Obligations.PortsRun : Prop :=
  (∀ (port : Nat) (s : State), port < 24 → portExists s port = true → isSplit s port = false → (portOf s port).state = 0 →
    (portOf s port).held = false → portsReady s = true →
    ∃ t, exec (.perstDeassert port) s = .next t ∧ (portOf t port).state = 1 ∧ (portOf t port).perst = false ∧ t.mem = s.mem) ∧
  (∀ (port : Nat) (s : State), port < 24 → portExists s port = true → isSplit s port = false → (portOf s port).state = 2 →
    (portOf s port).bifurcate = 0 →
    ∃ u, exec (.perstAssert port) s = .next (settle u) ∧ inPortReset u port ∧ (portOf u port).perst = true) ∧
  (∀ (q : Ask) (port : Nat) (s : State), taken s q 1 = true → port < 24 → portExists s port = true → isSplit s port = false →
    (portOf s port).state = 4 → (portOf s port).perst = false →
    ∃ u t, exec (.cxlPortReset q port 1) s = .next t ∧ t = finish q (0x110300 + port) stOk [] (settle u) ∧ (portOf u port).state = 1) ∧
  (∀ (port rate : Nat) (s : State), portExists s port = true → (portOf s port).state = 1 → rate ∈ [16, 32, 64] →
    ∃ t fmt, exec (.portTrained port rate 8) s = .next t ∧
      portOf t port = { portOf s port with state := 2, rate := rate, width := 8, latencyOpt := fmt, done := false } ∧ t.cxl.lds = s.cxl.lds ∧ t.mem = s.mem) ∧
  (∀ (port cause : Nat) (s : State), portExists s port = true → (portOf s port).state = 1 →
    exec (.cxlTrainingFails port cause) s =
      .next (setPort port { portOf s port with state := if cause = 5 ∨ cause = 6 then cause else 4 } s)) ∧
  (∀ (port : Nat) (s : State), port < 24 → portExists s port = true → isSplit s port = false → (portOf s port).state = 2 →
    (portOf s port).bifurcate = 0 → ∃ u, exec (.cxlLinkDown port) s = .next (settle u) ∧ inPortReset u port) ∧
  (∀ (port : Nat) (s : State), portExists s port = true → (portOf s port).state = 3 →
    exec (.portResetDone port) s = .next (if (portOf s port).perst then setPort port { portOf s port with done := true } s
      else setPort port { portOf s port with state := 1 } s)) ∧
  (∀ (port due lds : Nat) (homes : List Nat) (s : State), tfind s.cxl.purges port = some (homes, due, lds) → due ≤ s.now →
    ∃ t, exec (.purgeResend port) s = .next t ∧ tfind t.cxl.purges port = some (homes, s.now + msec (rLdgTimeout s), lds) ∧
      t.mem = s.mem ∧ t.ldg = s.ldg) ∧
  (∀ (id : Nat) (w : PurgeWait) (h : HostReq) (s : State), s.cxl.purgeWait = [w] → w.id = id → w.due ≤ s.now →
    tfind s.cxl.reqs id = some h → tsorted s.cxl.reqs = true →
    ∃ u, exec (.purgeWaitTimeout id) s = .next (settle u) ∧ u.cxl.purgeWait = [] ∧ tfind u.cxl.reqs id = none ∧ u.mem = s.mem) ∧
  (∀ (q : Ask) (port ld : Nat) (lengths : List Nat) (s : State), taken s q 1 = true → port < 8 * s.asm.dies → ld < 16 →
    lengths.length = 8 → (∀ l ∈ lengths, l % 2 ^ 26 = 0 ∧ l ≤ 2 ^ 44) → tdiLocked s (ldKey port ld) = false → activeOf s port ld = [] →
    s.car.tiered = false →
    ∃ t, exec (.cxlRegionLength q port ld lengths) s = .next t ∧ (ldOf t (ldKey port ld)).regions = lengths ∧ answered t q stOk = true) ∧
  (∀ (q : Ask) (port value : Nat) (s : State), taken s q 1 = true → port < 24 → value ≤ 1 →
    (∀ ld, ld < 16 → tdiLocked s (ldKey port ld) = false ∧ activeOf s port ld = []) →
    ∃ t, exec (.cxlPortBifurcate q port value) s = .next t ∧ (portOf t port).bifurcate = value ∧ isSplit t port = isSplit s port ∧
      t.sah.stored = s.sah.stored ++ [{ ask := q, key := 0x110200 + port, value := value, blob := [], sel := 0 }])

/-- M2S requests (R86, R116, R119): each goes to its home as the kind of request R116 gives it, here to another node's home, and is
outstanding until its answer; what the node does not support is answered with a completion (log 53). -/
def Obligations.HostRequestsRun : Prop :=
  (∀ (m : M2S) (lda n pga : Nat) (e : BookEntry) (s : State), goesOut s m false lda n e pga →
    ∃ u, exec (.memRd m 0) s = .next (settle u) ∧
      outstanding s u m (if m.snp = 1 then .readShared else if m.snp = 3 then .readOwn else .readCurrent) lda n e pga) ∧
  (∀ (m : M2S) (lda n pga : Nat) (e : BookEntry) (s : State), goesOut s m false lda n e pga →
    ∃ u, exec (.memRdData m) s = .next (settle u) ∧ outstanding s u m .readShared lda n e pga) ∧
  (∀ (m : M2S) (lda n pga : Nat) (e : BookEntry) (s : State), goesOut s m false lda n e pga →
    ∃ u, exec (.memInv m) s = .next (settle u) ∧ outstanding s u m .readOwn lda n e pga) ∧
  (∀ (m : M2S) (lda n pga : Nat) (e : BookEntry) (s : State), goesOut s m false lda n e pga →
    ∃ u, exec (.memInvNt m) s = .next (settle u) ∧ outstanding s u m .invalidate lda n e pga) ∧
  (∀ (m : M2S) (lda n pga : Nat) (e : BookEntry) (s : State), goesOut s m false lda n e pga →
    if Config.dropSpec s.fresh = true then exec (.memSpecRd m) s = .next { s with fresh := s.fresh + 1 }
    else ∃ u, exec (.memSpecRd m) s = .next (settle u) ∧ outstanding s u m .readCurrent lda n e pga) ∧
  (∀ (m : M2S) (lda n pga : Nat) (e : BookEntry) (s : State), goesOut s m false lda n e pga →
    ∃ u, exec (.memClnEvct m) s = .next (settle u) ∧ outstanding s u m .cleanEvict lda n e pga) ∧
  (∀ (m : M2S) (data : Bytes) (poison : Bool) (lda n pga : Nat) (e : BookEntry) (s : State), goesOut s m true lda n e pga →
    s.ldg.proxies = [] → ∃ u, exec (.memWr m data poison) s = .next (settle u) ∧ outstanding s u m .write lda n e pga) ∧
  (∀ (m : M2S) (data : Bytes) (be : Nat) (poison : Bool) (lda n pga : Nat) (e : BookEntry) (s : State), goesOut s m true lda n e pga →
    s.ldg.proxies = [] → ∃ u, exec (.memWrPtl m data be poison) s = .next (settle u) ∧ outstanding s u m .write lda n e pga) ∧
  (∀ (m : M2S) (s : State), ldUp s m.port m.ld = true →
    ∃ t, exec (.unsupportedM2s m) s = .next t ∧ (.ndr m.port m.ld m.tag 0 (devLoad s m.port m.ld)) ∈ t.out ∧ t.mem = s.mem ∧ t.pga.book = s.pga.book)

/-- Decoders (R92, R93), a Global Persistent Flush (R81), a viral indication (R82; log 75), and the privileged view (R107). -/
def Obligations.DecodersAndAlertsRun : Prop :=
  (∀ (port ld : Nat) (b : Option Nat) (s : State), ldUp s port ld = true → tdiLocked s (ldKey port ld) = false →
    exec (.biDecoderProgram port ld b) s = .next (setLd (ldKey port ld) { ldOf s (ldKey port ld) with bi := b.map (· % 4096) } s)) ∧
  (∀ (port ld index : Nat) (d : DecoderArg) (s : State), ldUp s port ld = true → index < 8 → tdiLocked s (ldKey port ld) = false →
    (((tfind (ldOf s (ldKey port ld)).decoders index).getD {}).committed && ((tfind (ldOf s (ldKey port ld)).decoders index).getD {}).locked)
      = false →
    ∃ t y, exec (.hdmDecoderCommit port ld index d) s = .next t ∧ tfind (ldOf t (ldKey port ld)).decoders index = some y ∧
      y.base = d.base ∧ y.size = d.size ∧ y.dpa = d.dpa ∧ y.committed = (d.commit && decoderFits (ldOf s (ldKey port ld)) index d) ∧
      y.error = (d.commit && !decoderFits (ldOf s (ldKey port ld)) index d) ∧
      (ldOf t (ldKey port ld)).regions = (ldOf s (ldKey port ld)).regions ∧ t.mem = s.mem) ∧
  (∀ (port : Nat) (s : State), exec (.gpf port) s = .next s) ∧
  (∀ (port : Nat) (s : State), ∃ t, exec (.viral port) s = .next t ∧ t.mem = s.mem ∧ t.pga = s.pga ∧ t.ldg = s.ldg ∧ t.cle = s.cle ∧
    ∀ ld, ld < 16 → isSplit s port = false → port < 32 → ldUp s port ld = true →
      ((tfind (ldOf s (ldKey port ld)).logs 0).getD {}).records.length < 256 →
      ((tfind (ldOf t (ldKey port ld)).logs 0).getD {}).records.length =
        ((tfind (ldOf s (ldKey port ld)).logs 0).getD {}).records.length + 1) ∧
  (∀ (value : Nat) (s : State), privUp s = true →
    ∃ t, exec (.alertLatchClear value) s = .next t ∧ (∀ i, i < 4 → bitOf t.cxl.alerts i = (bitOf s.cxl.alerts i && !bitOf value i)) ∧
      t = { s with cxl := { s.cxl with alerts := t.cxl.alerts } }) ∧
  (∀ (value : Nat) (s : State), privUp s = true → bitOf value 0 = true →
    exec (.safeThrottle value) s = .next { s with wgh := { s.wgh with privEvent := true } })

/-- The general commands of a mailbox (R99, R101; layouts: log 72): each sends its return code and its payload, and the event log, the
policy or the timestamp is what the command leaves. -/
def Obligations.MailboxesRun : Prop :=
  (∀ (port ld : Nat) (s : State), mboxUp s port ld = true →
    ∃ t b, exec (.identify port ld) s = .next t ∧ mailed s t port ld 0 b ∧ b.length = 18 ∧ leAt b 2 2 = 0x4800 ∧ t.cxl = s.cxl ∧ t.mem = s.mem) ∧
  (∀ (port ld : Nat) (s : State), mboxUp s port ld = true →
    ∃ t, exec (.backgroundOperationStatus port ld) s = .next t ∧ mailed s t port ld 0 (zeros 8) ∧ t.cxl = s.cxl ∧ t.mem = s.mem) ∧
  (∀ (port ld log : Nat) (s : State), mboxUp s port ld = true → log < 5 →
    ∃ t b, exec (.getEventRecords port ld log) s = .next t ∧ mailed s t port ld 0 b ∧
      b.length = 32 + 128 * min 31 ((tfind (ldOf s (mboxKey port ld)).logs log).getD {}).records.length ∧ t.cxl = s.cxl ∧ t.mem = s.mem) ∧
  (∀ (port ld log : Nat) (hs : List Nat) (s : State), mboxUp s port ld = true → log < 5 →
    ∃ t, exec (.clearEventRecords port ld log true hs) s = .next t ∧ mailed s t port ld 0 [] ∧
      ((tfind (ldOf t (mboxKey port ld)).logs log).getD {}).records = [] ∧ ((tfind (ldOf t (mboxKey port ld)).logs log).getD {}).overflow = 0 ∧
      (∀ i, i ≠ log → tfind (ldOf t (mboxKey port ld)).logs i = tfind (ldOf s (mboxKey port ld)).logs i) ∧ t.mem = s.mem) ∧
  (∀ (port ld : Nat) (s : State), mboxUp s port ld = true →
    ∃ t, exec (.getEventInterruptPolicy port ld) s = .next t ∧ mailed s t port ld 0 (toLE 5 (ldOf s (mboxKey port ld)).policy) ∧
      t.cxl = s.cxl) ∧
  (∀ (port ld : Nat) (b : Bytes) (s : State), mboxUp s port ld = true → b.length = 4 →
    ∃ t, exec (.setEventInterruptPolicy port ld b) s = .next t ∧ mailed s t port ld 0 [] ∧
      (∀ i, i < 4 → bits (ldOf t (mboxKey port ld)).policy (8 * i) 8 = bits (leAt b i 1) 0 2) ∧
      bits (ldOf t (mboxKey port ld)).policy 32 8 = bits (ldOf s (mboxKey port ld)).policy 32 8) ∧
  (∀ (port ld : Nat) (s : State), mboxUp s port ld = true →
    ∃ t, exec (.getTimestamp port ld) s = .next t ∧ mailed s t port ld 0 (toLE 8 (ldTime s (ldOf s (mboxKey port ld)))) ∧ t.cxl = s.cxl) ∧
  (∀ (port ld stamp : Nat) (s : State), mboxUp s port ld = true →
    ∃ t, exec (.setTimestamp port ld stamp) s = .next t ∧ mailed s t port ld 0 [] ∧ (ldOf t (mboxKey port ld)).stampBase = stamp % 2 ^ 64 ∧
      (ldOf t (mboxKey port ld)).stampAt = s.now ∧ (ldOf t (mboxKey port ld)).logs = (ldOf s (mboxKey port ld)).logs) ∧
  (∀ (port ld : Nat) (s : State), mboxUp s port ld = true →
    ∃ t b, exec (.getSupportedLogs port ld) s = .next t ∧ mailed s t port ld 0 b ∧ leAt b 0 2 = 1 ∧ b.length = 28 ∧ t.cxl = s.cxl) ∧
  (∀ (port ld offset length : Nat) (s : State), mboxUp s port ld = true → offset + length ≤ (celBytes (isFm ld)).length →
    ∃ t, exec (.getLog port ld celUuid offset length) s = .next t ∧
      mailed s t port ld 0 (((celBytes (isFm ld)).drop offset).take length) ∧ t.cxl = s.cxl) ∧
  (∀ (port ld opcode : Nat) (s : State), mboxUp s port ld = true → isFm ld = false →
    ∃ t, exec (.unsupportedMailbox port ld opcode) s = .next t ∧ mailed s t port ld 3 [] ∧ t.cxl = s.cxl ∧ t.mem = s.mem)

/-- The memory-device commands of a mailbox (R95 to R100): identity, partition information, health, the poison list, poison set and cleared
by a write to the line's home, the regions, the active extents, the answer to an offered extent, and a release. -/
def Obligations.MemoryDeviceMailboxRuns : Prop :=
  (∀ (port ld : Nat) (s : State), ldUp s port ld = true → isFm ld = false →
    ∃ t b, exec (.identifyMemoryDevice port ld) s = .next t ∧ mailed s t port ld 0 b ∧ b.length = 69 ∧ t.cxl = s.cxl ∧ t.mem = s.mem) ∧
  (∀ (port ld : Nat) (s : State), ldUp s port ld = true → isFm ld = false →
    ∃ t, exec (.getPartitionInfo port ld) s = .next t ∧ mailed s t port ld 0 (zeros 32) ∧ t.cxl = s.cxl ∧ t.mem = s.mem) ∧
  (∀ (port ld : Nat) (s : State), ldUp s port ld = true → isFm ld = false →
    ∃ t b, exec (.getHealthInfo port ld) s = .next t ∧ mailed s t port ld 0 b ∧ b.length = 18 ∧ t.cxl = s.cxl ∧ t.mem = s.mem) ∧
  (∀ (port ld dpa length : Nat) (remote : List Nat) (s : State), ldUp s port ld = true → isFm ld = false →
    ∃ t b, exec (.getPoisonList port ld dpa length remote) s = .next t ∧ mailed s t port ld 0 b ∧
      b.length = 32 + 16 * min 4096 ((poisonLdas s port ld remote).filter fun a => decide (dpa ≤ a) && decide (a < dpa + length * 64)).length ∧
      t.cxl = s.cxl ∧ t.mem = s.mem) ∧
  (∀ (port ld dpa n pga tag : Nat) (e : BookEntry) (s : State), ldUp s port ld = true → isFm ld = false → rCxlPoisonInject s = 1 →
    decodeLda s port ld (dpa / 64 * 64) false true = some (n, e, pga) → e.isWin = false → e.partner = none → pgaCoord pga ≠ hereAt s →
    freeTag s false = some tag →
    ∃ u x r, exec (.injectPoison port ld dpa) s = .next (settle u) ∧ tfind u.mar.tags tag = some x ∧ x.dest = pgaCoord pga ∧
      x.use = .mem r ∧ r.kind = .write ∧ r.be = 0 ∧ r.poison = true ∧ u.mem = s.mem) ∧
  (∀ (port ld dpa n pga tag : Nat) (data : Bytes) (e : BookEntry) (s : State), ldUp s port ld = true → isFm ld = false →
    decodeLda s port ld (dpa / 64 * 64) false true = some (n, e, pga) → e.isWin = false → e.partner = none → pgaCoord pga ≠ hereAt s →
    freeTag s false = some tag →
    ∃ u x r, exec (.clearPoison port ld dpa data) s = .next (settle u) ∧ tfind u.mar.tags tag = some x ∧ x.dest = pgaCoord pga ∧
      x.use = .mem r ∧ r.kind = .engineWrite ∧ r.data = lineBytes data ∧ r.poison = false ∧ u.mem = s.mem) ∧
  (∀ (port ld count start : Nat) (s : State), ldUp s port ld = true → isFm ld = false →
    ∃ t b, exec (.getDynamicCapacityConfiguration port ld count start) s = .next t ∧ mailed s t port ld 0 b ∧
      leAt b 0 1 = ((List.range 8).filter fun r => (ldOf s (ldKey port ld)).regions.getD r 0 != 0).length ∧ t.cxl = s.cxl ∧ t.mem = s.mem) ∧
  (∀ (port ld count start : Nat) (s : State), ldUp s port ld = true → isFm ld = false →
    ∃ t b, exec (.getDynamicCapacityExtentList port ld count start) s = .next t ∧ mailed s t port ld 0 b ∧
      b.length = 16 + 40 * min count ((activeOf s port ld).length - start) ∧ t.pga = s.pga ∧ t.mem = s.mem) ∧
  (∀ (port ld n : Nat) (e : BookEntry) (rest : List (Nat × BookEntry)) (g : Grant) (s : State), ldUp s port ld = true → isFm ld = false →
    offersOf s port ld = (n, e) :: rest → tfind s.pga.grants n = some g → g.bases = [] → tsorted s.pga.book = true →
    tsorted s.pga.grants = true →
    ∃ t, exec (.addDynamicCapacityResponse port ld []) s = .next t ∧ tfind t.pga.book n = none ∧ tfind t.pga.grants n = none ∧
      linesKept s t) ∧
  (∀ (port ld : Nat) (s : State), ldUp s port ld = true → isFm ld = false → offersOf s port ld = [] →
    ∃ t, exec (.addDynamicCapacityResponse port ld []) s = .next t ∧ mailed s t port ld 0x1E [] ∧ t.pga = s.pga) ∧
  (∀ (port ld n : Nat) (e : BookEntry) (s : State), ldUp s port ld = true → isFm ld = false → activeOf s port ld = [(n, e)] →
    (bookOf s n).kind = 2 → (tfind s.pga.book n).isSome = true → revokeBusy s (bookOf s n) = false → (bookOf s n).ilv = false →
    pgaCoord (bookOf s n).target ≠ hereAt s →
    ∃ t, exec (.releaseDynamicCapacity port ld [(e.base, e.length)]) s = .next t ∧ (bookOf t n).state = 3 ∧
      (tfind t.pga.revokes n).isSome = true ∧ linesKept s t)

/-- Recalls and the conflict handshake (R88, R130 to R136; log 36, log 68): a host's answer ends its recall and the holder is removed; a recall
message makes the ingress node send the BISnp; a recall response ends the home's recall; a timeout removes the holder and poisons the line; a
conflict without a recall is acknowledged at once; a probe is answered with the order, and an answer lets the ingress node acknowledge. -/
def Obligations.RecallsRun : Prop :=
  (∀ (port ld bitag low : Nat) (r : Recall) (s : State), s.ldg.recalls = [(bitag, r)] → r.remote = false → r.due.isSome = true →
    holderPort r.holder = port → holderLd r.holder = ld → r.kind = 2 → r.best = 0 → r.owner = .nobody → r.blk = 1 → r.rides = none →
    s.ldg.queue = [] → s.ldg.birsps = [] → s.ring.waiting = [] →
    ∃ u, exec (.birsp port ld bitag 0 low) s = .next (settle u) ∧ u.ldg.recalls = [] ∧
      u.ldg.entries = (removeHolder r.line r.holder s).ldg.entries ∧ u.mem = s.mem) ∧
  (∀ (port ld bitag kind low : Nat) (s : State), tfind s.ldg.recalls bitag = none → tfind s.ldg.proxies bitag = none →
    exec (.birsp port ld bitag kind low) s = .next { s with ldg := { s.ldg with late := s.ldg.late + 1 } }) ∧
  (∀ (port ld bitag : Nat) (done : Bool) (s : State), ldUp s port ld = true → tfind s.ldg.recalls bitag = none → tfind s.ldg.proxies bitag = none →
    exec (.biconflict port ld bitag done) s = .next (emit (.ndr port ld bitag 3 (devLoad s port ld)) s)) ∧
  (∀ (p : Packet) (s : State), p.opcode = 0x0A → newHere s p = true → s.ldg.recalls = [] → s.ldg.proxies = [] →
    purging s (bits p.aux 2 5) (bits p.aux 7 4) p.src = false →
    ∃ t x, exec (.recallOp p) s = .next t ∧ tfind t.ldg.proxies s.ldg.nextId = some x ∧ x.home = p.src ∧ x.tag = p.tag ∧
      x.port = bits p.aux 2 5 ∧ x.ld = bits p.aux 7 4 ∧ x.due.isSome = true ∧
      t.out = .bisnp x.port x.ld ((ldOf s (ldKey x.port x.ld)).bi.getD 0) (bits p.aux 0 2) p.pga s.ldg.nextId 1 :: s.out ∧ t.mem = s.mem) ∧
  (∀ (p : Packet) (rid : Nat) (r : Recall) (x : TagRec) (s : State), p.opcode = 0x43 → malformedPacket p = false →
    openTagOf s p.tag = some x → x.use = .recallOp rid → s.ldg.recalls = [(rid, r)] → p.src = holderCoord r.holder → p.payload = [] →
    p.status = 0 → r.owner = .nobody → r.rides = none → s.ldg.queue = [] →
    ∃ u, exec (.recallRsp p) s = .next (settle u) ∧ u.ldg.recalls = [] ∧ openTagOf u p.tag = none ∧ u.mem = s.mem) ∧
  (∀ (rid due : Nat) (r : Recall) (s : State), s.ldg.recalls = [(rid, r)] → r.remote = false → r.due = some due → due ≤ s.now →
    s.ldg.birsps = [] → r.owner = .nobody → r.stop = false → r.rides = none → s.ldg.queue = [] → tsorted s.ldg.entries = true →
    ∃ u, exec (.recallTimeout rid) s = .next (settle u) ∧ u.ldg.recalls = [] ∧
      (∀ e, entryOf u r.line = some e → holds e r.holder = false) ∧ u.pga = s.pga) ∧
  (∀ (rid due : Nat) (r : Recall) (s : State), s.ldg.recalls = [(rid, r)] → r.remote = true → r.due = some due → due ≤ s.now →
    s.ldg.rsps = [] → r.owner = .nobody → r.stop = false → r.rides = none → s.ldg.queue = [] → tsorted s.ldg.entries = true →
    ∃ u, exec (.recallBackstopTimeout rid) s = .next (settle u) ∧ u.ldg.recalls = [] ∧
      (∀ e, entryOf u r.line = some e → holds e r.holder = false) ∧ u.pga = s.pga) ∧
  (∀ (pid due : Nat) (x : Proxy) (s : State), tfind s.ldg.proxies pid = some x → x.due = some due → due ≤ s.now →
    tsorted s.ldg.proxies = true →
    ∃ u, exec (.proxyRecallTimeout pid) s = .next (settle u) ∧ tfind u.ldg.proxies pid = none ∧ u.ldg.entries = s.ldg.entries ∧
      u.mem = s.mem) ∧
  (∀ (p : Packet) (rid : Nat) (r : Recall) (x : TagRec) (first done : Bool) (y : Txn) (s : State), p.opcode = 0x86 →
    malformedPacket p = false → openTagOf s p.tag = some x → x.use = .recallOp rid → tfind s.ldg.recalls rid = some r →
    ownerTxn s r.line r.holder = some (first, y) →
    exec (.probe p done) s = .next (sendBypass 0x87 p.src p.tag p.pga (packBits [(1, b2n first), (31, 0), (32, p.aux)]) [] s)) ∧
  (∀ (p : Packet) (rid : Nat) (r : Recall) (x : TagRec) (done : Bool) (s : State), p.opcode = 0x86 → malformedPacket p = false →
    openTagOf s p.tag = some x → x.use = .recallOp rid → tfind s.ldg.recalls rid = some r → ownerTxn s r.line r.holder = none →
    exec (.probe p done) s = .next (if done then sendBypass 0x87 p.src p.tag p.pga (packBits [(1, 1), (31, 0), (32, p.aux)]) [] s
      else { s with ldg := { s.ldg with recalls := tput s.ldg.recalls rid { r with conflict := true } } })) ∧
  (∀ (p : Packet) (pid : Nat) (x : Proxy) (s : State), p.opcode = 0x87 → malformedPacket p = false → s.ldg.proxies = [(pid, x)] →
    x.home = p.src → x.tag = p.tag → (x.port, x.ld, pid) ∈ s.cxl.probes → bitOf p.aux 0 = false →
    exec (.answer p) s = .next (emit (.ndr x.port x.ld pid 3 (devLoad s x.port x.ld))
      { s with cxl := { s.cxl with probes := s.cxl.probes.erase (x.port, x.ld, pid) } }))

/-- Acknowledgements, lockstep channels, lost sets and Clear Poison (R124, R125, R142 to R145, R149, R582, R596; log 69): an acknowledgement
or its timeout closes the transaction and unblocks its lines; a channel that disagrees is fenced with its alert, re-admitted by command or by
itself; a second disagreement stops the slice and starts node recovery; a scanned set unblocks; LDG_CLEAR_POISON is an engine write at the
home, or for a twinned range at both homes. -/
def Obligations.LedgerRuns : Prop :=
  (∀ (p : Packet) (id : Nat) (x : Txn) (s : State), p.opcode = 0x81 → malformedPacket p = false → ackTxn s p.src p.tag = some id →
    s.ldg.txns = [(id, x)] → s.ldg.queue = [] →
    ∃ u, exec (.ack p) s = .next (settle u) ∧ u.ldg.txns = [] ∧ (∀ e ∈ u.ldg.blocked, e.2 ≠ id) ∧ u.ldg.entries = s.ldg.entries ∧
      u.mem = s.mem) ∧
  (∀ (id : Nat) (x : Txn) (s : State), s.ldg.txns = [(id, x)] → s.ldg.queue = [] → x.phase = .acking → x.ackDue ≤ s.now →
    ∃ u, exec (.ackTimeout id) s = .next (settle u) ∧ u.ldg.txns = [] ∧ (∀ e ∈ u.ldg.blocked, e.2 ≠ id) ∧
      u.ldg.ackTimeouts = s.ldg.ackTimeouts + 1 ∧ u.mem = s.mem) ∧
  (∀ (slice channel : Nat) (s : State), slice < nStacks s → channel < 3 → (sliceRec s slice).fenced = [] →
    (sliceRec s slice).stopped = false →
    ∃ t, exec (.channelFenced slice channel) s = .next t ∧ (sliceRec t slice).fenced = [channel] ∧ bitOf t.cxl.alerts 1 = true ∧
      t.mem = s.mem ∧ t.ldg.entries = s.ldg.entries) ∧
  (∀ (q : Ask) (slice : Nat) (s : State), taken s q 1 = true → slice < nStacks s → (sliceRec s slice).fenced ≠ [] →
    mayReadmit (sliceRec s slice) = true → s.ring.waiting = [] →
    ∃ t, exec (.ldgChannelReadmit q slice 1) s = .next t ∧ (sliceRec t slice).fenced = [] ∧
      (sliceRec t slice).readmits = (sliceRec s slice).readmits + 1 ∧ answered t q stOk = true ∧ t.mem = s.mem) ∧
  (∀ (slice due : Nat) (s : State), (sliceRec s slice).autoDue = some due → due ≤ s.now → rLdgReadmitAuto s = 1 →
    (sliceRec s slice).stopped = false → mayReadmit (sliceRec s slice) = true → s.ring.waiting = [] →
    ∃ t, exec (.autoReadmit slice) s = .next t ∧ (sliceRec t slice).fenced = [] ∧
      (sliceRec t slice).readmits = (sliceRec s slice).readmits + 1 ∧ t.mem = s.mem) ∧
  (∀ (slice : Nat) (s : State), slice < nStacks s → (s.rst.nodeState = 1 ∨ s.rst.nodeState = 3) →
    ∃ t, exec (.sliceStop slice) s = .next t ∧ t.rst.nodeState = 2 ∧ t.rst.recovering = true ∧ t.rst.trigger = 3) ∧
  (∀ (slice set : Nat) (s : State), set ∈ (sliceRec s slice).scanning →
    ∃ u, exec (.ledgerScanDone slice set) s = .next (settle u) ∧ set ∉ (sliceRec u slice).scanning ∧
      u.ras.ledgerLost = s.ras.ledgerLost + 1) ∧
  (∀ (q : Ask) (pga n : Nat) (h : BookEntry) (s : State), taken s q 1 = true → pgaCoord pga = hereAt s →
    homeAt s (pgaDpa pga) = some (n, h) →
    ∃ v, exec (.ldgClearPoison q pga) s = .next (settle (if (ownPartner s pga).isSome then
        sendMem { kind := .engineWrite, who := .engine { kind := .clearPoison, a := q.sid, b := q.req }, part := h.part,
                  dpa := pgaDpa pga / 64 * 64, be := fullBE, data := zeros 64, op := 7 } (pga / 64 * 64) none false v
      else homeRequest { kind := .engineWrite, who := .engine { kind := .clearPoison, a := q.sid, b := q.req }, part := h.part,
                         dpa := pgaDpa pga / 64 * 64, be := fullBE, op := 4 } v)) ∧
      v.mem = s.mem ∧ v.pga = s.pga ∧ v.ldg = s.ldg ∧ v.car = s.car)

/-- The mode, fills, write-backs and commits (R150, R158, R159, R164 to R168): the next mode is set; a fill of a unit that holds nothing leaves
a clean frame, a fill of a sound unit brings its lines, poison flags with them; the end of a write-back releases its snapshot; above the high mark dirty frames start writing back; STAGED ends; a commit is
taken up, and completes with its count. -/
def Obligations.TieringRuns : Prop :=
  (∀ (q : Ask) (value : Nat) (s : State), taken s q 1 = true → value ≤ 1 → (∀ e ∈ s.pga.book, e.2.kind = 0) → tsorted s.regs = true →
    ∃ t, exec (.carModeNext q value) s = .next t ∧ tget 1 t.regs 0x380001 = value ∧ t.car.tiered = s.car.tiered ∧ t.mem = s.mem) ∧
  (∀ (block : Nat) (found : UnitRead) (f : Fill) (g : Frame) (s : State), tfind s.stk.fills block = some f → f.dropped = false →
    f.lun = none → (mapEntry s block).valid = false → frameOf s block = some g → g.state = 1 → s.ldg.owed = [] → s.car.commits = [] →
    tsorted s.stk.fills = true →
    ∃ u x, exec (.fillArrives block found) s = .next (afterFrames u) ∧ tfind u.stk.fills block = none ∧ frameOf u block = some x ∧
      x.state = (if g.dirty = [] then 2 else 3) ∧ x.dirty = g.dirty ∧ x.fillErr = false ∧ u.mem = s.mem) ∧
  (∀ (block lun : Nat) (found : UnitRead) (f : Fill) (g : Frame) (un : FlashUnit) (s : State), tfind s.stk.fills block = some f →
    f.dropped = false → f.lun = some lun → (mapEntry s block).valid = true → (mapEntry s block).phys ≠ lostUnit →
    onTarget s (mapEntry s block).phys = true → tfind s.stk.units (mapEntry s block).phys = some un → decodes s found = true →
    unitSound s un found f.part block = true → blockServes s block = true → frameOf s block = some g → g.state = 1 → g.dirty = [] → s.ldg.owed = [] →
    s.car.commits = [] → tsorted s.stk.fills = true →
    ∃ u x, exec (.fillArrives block found) s = .next (afterFrames (serveLun lun u)) ∧ tfind u.stk.fills block = none ∧
      frameOf u block = some x ∧ x.state = 2 ∧ x.fillErr = false ∧
      ∀ i, i < 1024 → lineMeta u (frameLine s block g + i) =
        { valid := true, poison := decide (i ∈ un.poison), epoch := (partOf s g.part).current, part := g.part,
          seed := (partOf s g.part).seedCur, line := block * 1024 + i }) ∧
  (∀ (block n : Nat) (p : Program) (f : Frame) (s : State), s.stk.programs = [(n, p)] → p.unit.kind = 0 → p.unit.logical = block →
    p.done = 1 → p.dropped = false → frameOf s block = some f → f.state = 4 → f.victim = false → s.car.commits = [] →
    ∃ u x, exec (.writeBackDone block) s = .next (afterFrames u) ∧ u.stk.programs = [] ∧ frameOf u block = some x ∧ x.snapshot = [] ∧
      x.state = (if f.dirty = [] then 2 else 3) ∧ u.mem = s.mem) ∧
  (∀ (b : Nat) (f : Frame) (place : Nat × Nat) (s : State), s.car.frames = [(b, f)] → f.state = 3 → f.pinned = false →
    rCarDirtyHigh s = 0 → rCarDirtyLow s = 0 → s.stk.freeReserve = false → s.stk.wbWait = [] → blockServes s b = true → writeBacks s < writeBackLimit s → openPlace s 0 = some place →
    ∃ t x, exec .dirtyHigh s = .next t ∧ frameOf t b = some x ∧ x.state = 4 ∧ x.snapshot = f.dirty ∧ x.dirty = []) ∧
  (∀ (block : Nat) (f : Frame) (s : State), frameOf s block = some f → f.staged = true →
    rCarStageHold s ≤ (s.now / 1000000 + 2 ^ 32 - f.stageTime) % 2 ^ 32 →
    exec (.stageHoldExpiry block) s = .next (settle (setFrame block { f with staged := false } s))) ∧
  (∀ (q : Ask) (pga length : Nat) (s : State), taken s q 1 = true → pga < 2 ^ 62 → pgaCoord pga = hereAt s →
    commitRefusal s (pgaDpa pga) (pgaDpa pga + length) = none → s.car.frames = [] →
    ∃ t c, exec (.carCommit q pga length 0) s = .next t ∧ tfind t.car.commits s.ldg.nextId = some c ∧ c.lo = pgaDpa pga ∧
      c.hi = pgaDpa pga + length ∧ c.blocks = [] ∧ c.again = [] ∧ c.recalling = [] ∧ c.ask = q ∧ t.mem = s.mem) ∧
  (∀ (id : Nat) (c : CommitOp) (s : State), tfind s.car.commits id = some c → c.recalling = [] → c.blocks = [] → c.again = [] →
    c.nasidom = true → tsorted s.car.commits = true → s.car.stats.length = 8 →
    ∃ t, exec (.commitComplete id) s = .next t ∧ tfind t.car.commits id = none ∧
      t.car.stats.getD 7 0 = s.car.stats.getD 7 0 + 1 ∧ t.mem = s.mem)

/-- Carter streams (R171 to R175, R182; log 52): a record is allocated, written, started, stopped, rewound and freed; a piece of its list
that arrives adds its segments; a stage request that was dropped is sent again. -/
def Obligations.StreamsRun : Prop :=
  (∀ (q : Ask) (n : Nat) (s : State), taken s q 1 = true → tfresh s.car.streams (s.car.streams.length + 1) 0 = some n → n < 4096 →
    ∃ t, exec (.carStreamAlloc q) s = .next t ∧ streamOf t n = some {} ∧ answered t q stOk = true ∧ t.mem = s.mem) ∧
  (∀ (q : Ask) (record : Bytes) (r : Stream) (s : State), taken s q 1 = true → streamOf s (selected s q 0x381001) = some r → r.state ≠ 2 →
    record.length = 64 → leAt record 24 8 % 65536 = 0 → 2 ^ 26 ≤ leAt record 24 8 → leAt record 24 8 ≤ 2 ^ 40 →
    ∃ t x, exec (.carStream q record) s = .next t ∧ streamOf t (selected s q 0x381001) = some x ∧ x.list = leAt record 8 8 ∧
      x.listCount = leAt record 16 8 ∧ x.lookahead = leAt record 24 8 ∧ x.state = r.state ∧ x.position = r.position ∧
      answered t q stOk = true) ∧
  (∀ (q : Ask) (r : Stream) (s : State), taken s q 1 = true → streamOf s (selected s q 0x381001) = some r → r.state ≠ 2 →
    s.car.tiered = true → r.source = 0 → pgaCoord (r.list / 64 * 64) ≠ hereAt s →
    ∃ t x, exec (.streamStart q) s = .next t ∧ streamOf t (selected s q 0x381001) = some x ∧ x.state = 2 ∧ x.stagedTo = r.position ∧
      x.haltCause = 0 ∧ answered t q stOk = true) ∧
  (∀ (q : Ask) (r : Stream) (s : State), taken s q 1 = true → streamOf s (selected s q 0x381001) = some r → r.state = 2 →
    ∃ t, exec (.streamStop q) s = .next t ∧ streamOf t (selected s q 0x381001) = some { r with state := 1, fetching := 0, retry := [] } ∧
      answered t q stOk = true) ∧
  (∀ (q : Ask) (n : Nat) (r : Stream) (s : State), taken s q 1 = true → n = selected s q 0x381001 → s.car.streams = [(n, r)] →
    s.car.stageQueue = [] → s.car.stageFills = [] → r.state ≠ 2 →
    ∃ t, exec (.streamRewind q) s = .next t ∧ streamOf t n = some { r with position := 0, stagedTo := 0 } ∧ answered t q stOk = true) ∧
  (∀ (q : Ask) (r : Stream) (s : State), taken s q 1 = true → streamOf s (selected s q 0x381001) = some r → r.state ≠ 2 →
    tsorted s.car.streams = true →
    ∃ t, exec (.streamFree q) s = .next t ∧ streamOf t (selected s q 0x381001) = none ∧ answered t q stOk = true) ∧
  (∀ (stream : Nat) (ref : EngRef) (rsp : MRsp) (x : Stream) (l : List (Nat × Nat)) (s : State), s.taken = [(ref, rsp)] →
    ref.kind = .segList → ref.a = stream → streamOf s stream = some x → x.state = 2 → x.fetching ≠ 0 → x.source = 0 → rsp.status = 0 →
    listEntries 258 (x.partial_ ++ (rsp.data.drop (ref.b % 64)).take ref.c) = some l →
    ∃ u, exec (.segmentListFetch stream) s = .next (runCarter carterFuel u) ∧ u.taken = [] ∧
      streamOf u stream = some { x with
        fetching := 0, segs := x.segs ++ l, fetched := x.fetched + ref.c,
        partial_ := (x.partial_ ++ (rsp.data.drop (ref.b % 64)).take ref.c).drop
          ((x.partial_ ++ (rsp.data.drop (ref.b % 64)).take ref.c).length / 16 * 16) } ∧ u.mem = s.mem) ∧
  (∀ (stream block line due : Nat) (x : Stream) (s : State), streamOf s stream = some x → x.state = 2 → x.retry = [(block, line, due)] →
    due ≤ s.now → s.car.stageOut < 16384 →
    ∃ u, exec (.stageRetry stream block) s = .next (runCarter carterFuel (sendStage stream block line x.part u)) ∧
      streamOf u stream = some { x with retry := [] } ∧ u.mem = s.mem)

/-- DRAM stacks (R189 to R199, R202, R207): a refresh moves on to the next bank; the refresh interval follows the temperature; a level
change ends at its level; a granted pause is recorded; a stack drains, after a level change that has begun (log 132), is released, retrains and keeps its data; the patrol rewrites a line that
decodes. -/
def Obligations.StacksRun : Prop :=
  (∀ (stack : Nat) (s : State), stack < nStacks s → inSelfRefresh s (stackOf s stack) = false → (stackOf s stack).refreshDue ≤ s.now →
    ∃ u, exec (.refreshDue stack) s = .next (settle u) ∧ (stackOf u stack).bank = ((stackOf s stack).bank + 1) % 32 ∧
      (stackOf u stack).refreshDue = s.now + (stackOf s stack).refresh / 32 ∧ linesKept s u) ∧
  (∀ (stack : Nat) (temp : Int) (s : State), stack < nStacks s →
    ∃ t, exec (.temperatureRead stack temp) s = .next t ∧ (stackOf t stack).temp = temp ∧
      (stackOf t stack).refresh = (if 95 ≤ temp then 975 else if 85 < temp then 1950 else 3900) ∧ t.mem.data = s.mem.data) ∧
  (∀ (stack k : Nat) (s : State), (stackOf s stack).changing = some k → (stackOf s stack).changeDue ≤ s.now →
    (stackOf s stack).pendingLevel = none →
    ∃ u, exec (.levelChangeDone stack) s = .next (settle u) ∧ (stackOf u stack).level = k ∧ (stackOf u stack).changing = none ∧
      (stackOf u stack).pauseDue = List.range 64 ∧ (stackOf u stack).marks = (stackOf s stack).marks ∧ linesKept s u) ∧
  (∀ (stack pc steps : Nat) (s : State), stack < nStacks s → pc < 64 → (stackOf s stack).changing = none →
    isDrained s (stackOf s stack) = false → pc ∈ (stackOf s stack).pauseDue → (pausedNow s (stackOf s stack)).length < rHbmPauseConcurrency s →
    ∃ t, exec (.retrainingPause stack pc steps) s = .next t ∧ tget 0 (stackOf t stack).pauseAt pc = s.now ∧
      tget 25 (stackOf t stack).pauseTemp pc = (stackOf s stack).temp ∧ t.mem.data = s.mem.data) ∧
  (∀ (q : Ask) (stack : Nat) (s : State), taken s q 1 = true → stack < 16 → stack < nStacks s → s.pga.book = [] →
    (stackOf s stack).changing = none →
    ∃ t, exec (.hbmStackDrain q stack) s = .next t ∧ (stackOf t stack).drained = true ∧ bgPaused t = true ∧ answered t q stOk = true ∧
      t.mem.data = s.mem.data) ∧
  (∀ (q : Ask) (stack k : Nat) (s : State), taken s q 1 = true → stack < 16 → stack < nStacks s → s.pga.book = [] →
    (stackOf s stack).changing = some k →
    ∃ t, exec (.hbmStackDrain q stack) s = .next t ∧ (stackOf t stack).drainAsks = (stackOf s stack).drainAsks ++ [q] ∧
      (stackOf t stack).drained = (stackOf s stack).drained ∧ (stackOf t stack).changing = some k ∧ linesKept s t) ∧
  (∀ (q : Ask) (stack : Nat) (s : State), taken s q 1 = true → stack < 16 → stack < nStacks s → (stackOf s stack).retraining = false →
    ∃ u t, exec (.hbmStackRelease q stack) s = .next t ∧ t = finish q (0x400800 + stack) stOk [] (settle u) ∧
      (stackOf u stack).drained = false ∧ linesKept s u) ∧
  (∀ (q : Ask) (stack : Nat) (s : State), taken s q 1 = true → stack < 16 → stack < nStacks s → isDrained s (stackOf s stack) = true →
    (stackOf s stack).retraining = false →
    ∃ t, exec (.hbmRetrainStack q stack 1) s = .next t ∧ (stackOf t stack).retraining = true ∧ inSelfRefresh t (stackOf t stack) = true ∧
      (stackOf t stack).ask = q ∧ t.mem.data = s.mem.data) ∧
  (∀ (stack : Nat) (s : State), (stackOf s stack).retraining = true →
    ∃ u t, exec (.retrainingDone stack) s = .next t ∧ t = finish (stackOf s stack).ask (0x400900 + stack) stOk [] (settle u) ∧
      (stackOf u stack).retraining = false ∧ (stackOf u stack).marks = (stackOf s stack).marks ∧
      (stackOf u stack).level = (stackOf s stack).level ∧ linesKept s u) ∧
  (∀ (stack line : Nat) (d : List (Nat × Nat)) (s : State), stack < nStacks s → lineStack s line = stack →
    lineInside s line = true → lineServes s line = true → tget 0 (stackOf s stack).scrubbed line ≠ scrubRound s → s.mem.damage = [(line, d)] → d ≠ [] →
    lineDecodes (tfind (stackOf s stack).marks (linePc s line)) d = true →
    ∃ t, exec (.patrolScrub stack line []) s = .next t ∧ t.mem.damage = [] ∧ tget 0 (stackOf t stack).scrubbed line = scrubRound s ∧
      t.mem.data = s.mem.data ∧ t.mem.info = s.mem.info)

/-- The Storekeeper (R224 to R242; log 8, log 86): a program that ends makes its unit the block's; a relocation moves it; garbage collection
takes up a group; an erased group is free; a suspended operation goes on; a journal record is durable; a checkpoint round starts and ends; a
failed target's units are lost; the patrol keeps the worst count; a format leaves nothing. -/
def Obligations.StorekeeperRuns : Prop :=
  (∀ (prog : Nat) (p : Program) (s : State), s.stk.programs = [(prog, p)] → p.unit.kind = 0 → p.done = 0 → p.started = true →
    p.dropped = false → (mapEntry s p.unit.logical).gen = p.unit.gen →
    ∃ u, exec (.programDone prog 0) s = .next (pumpFlash (lunEnded (unitLun s p.phys) u)) ∧ tfind u.stk.units p.phys = some p.unit ∧
      (mapEntry u p.unit.logical).phys = p.phys ∧ (mapEntry u p.unit.logical).valid = true ∧ tfind u.stk.live p.phys = some true ∧
      u.mem = s.mem) ∧
  (∀ (prog : Nat) (found : UnitRead) (p : Program) (s : State), s.stk.programs = [(prog, p)] → p.unit.kind ≠ 0 → p.done = 0 →
    p.started = true → decodes s found = true → unitSound s p.unit found p.unit.part p.unit.logical = true →
    (mapEntry s p.unit.logical).valid = true → (mapEntry s p.unit.logical).phys = p.src → (groupOf s (unitGroup s p.src)).state ≠ 3 →
    ∃ u, exec (.relocationDone prog 0 found) s = .next (pumpFlash (lunEnded (unitLun s p.phys) u)) ∧ tfind u.stk.units p.phys = some p.unit ∧
      (mapEntry u p.unit.logical).phys = p.phys ∧ (mapEntry u p.unit.logical).gen = (mapEntry s p.unit.logical).gen ∧ u.stk.programs = [] ∧
      u.mem = s.mem) ∧
  (∀ (g : Nat) (s : State), bgPaused s = false → s.car.tiered = true → s.stk.collecting = none → nextVictim s = some g →
    ∃ u, exec .garbageCollection s = .next (relocate g (relocKind u g) u) ∧ u.stk.collecting = some g ∧ (groupOf u g).state = 3 ∧ u.mem = s.mem) ∧
  (∀ (group : Nat) (o : LunOp) (s : State), tfind s.stk.lunOps (groupLun s group) = some o → o.kind = 1 → o.target = group →
    ∃ u, exec (.eraseDone group 0) s = .next (afterFrames (keepOpen (groupLun s group) (lunEnded (groupLun s group) (checkFree u)))) ∧ (groupOf u group).state = 0 ∧
      (groupOf u group).erases = (groupOf s group).erases + 1 ∧ (∀ e ∈ u.stk.units, unitGroup s e.1 ≠ group) ∧ u.mem = s.mem) ∧
  (∀ (lun : Nat) (o : LunOp) (s : State), tfind s.stk.lunOps lun = some o → o.suspended = true → readingOn s lun = false →
    ∃ t, exec (.operationResume lun) s = .next t ∧ tfind t.stk.lunOps lun = some { o with suspended := false, started := s.now } ∧
      t.out = .flash 4 lun o.target :: s.out ∧ t.mem = s.mem) ∧
  (∀ (seq : Nat) (j : Journal) (s : State), tfind s.stk.journal seq = some j → j.type = 2 → tsorted s.stk.journal = true →
    ∃ t, exec (.journalRecordDurable seq) s = .next t ∧ tfind t.stk.journal seq = none ∧ tfind t.stk.durable seq = some j ∧
      t.stk.map = s.stk.map ∧ t.mem = s.mem) ∧
  (∀ s : State, s.car.tiered = true → bgPaused s = false → s.stk.round = none → rStkCheckpointBytes s ≤ s.stk.placed →
    ∃ t r, exec .checkpointRoundStart s = .next t ∧ t.stk.round = some r ∧ r.seq = s.stk.seq ∧ r.map = s.stk.map ∧ t.stk.placed = 0 ∧
      t.stk.map = s.stk.map) ∧
  (∀ (r : Round) (s : State), s.stk.round = some r → bgPaused s = false →
    ∃ t, exec .checkpointRoundComplete s = .next t ∧ t.stk.round = none ∧ t.stk.rounds = s.stk.rounds + 1 ∧
      t.stk.last = some { r with journals := [] } ∧ (∀ a ∈ t.stk.anchors, a.2.roundSeq = r.seq) ∧ (∀ j ∈ t.stk.durable, r.seq ≤ j.1) ∧
      t.stk.map = s.stk.map) ∧
  (∀ (target : Nat) (s : State), (tfind s.stk.targets target).isSome = true → s.stk.programs = [] → s.stk.lunWait = [] →
    tsorted s.stk.targets = true →
    ∃ u, exec (.targetFailure target) s = .next (afterFrames (goOnCollecting u)) ∧ tfind u.stk.targets target = none ∧ target ∈ u.stk.failedTargets ∧
      (∀ e ∈ u.stk.units, unitTarget e.1 ≠ target) ∧
      (∀ b m, tfind s.stk.map b = some m → m.valid = true → m.phys ≠ lostUnit → unitTarget m.phys = target →
        (mapEntry u b).phys = lostUnit)) ∧
  (∀ (unit : Nat) (found : UnitRead) (s : State), bgPaused s = false → s.car.tiered = true → patrols s unit = true →
    tfind s.stk.units unit = none → tsorted (groupOf s (unitGroup s unit)).err = true →
    ∃ t, exec (.flashPatrol unit found) s = .next t ∧
      tget 0 (groupOf t (unitGroup s unit)).err (unitPart s unit) =
        max (tget 0 (groupOf s (unitGroup s unit)).err (unitPart s unit)) found.errors ∧
      tfind (groupOf t (unitGroup s unit)).patrolled (unitPart s unit) = some s.now ∧ t.mem = s.mem) ∧
  (∀ (q : Ask) (s : State), taken s q 1 = true → s.car.tiered = true → s.pga.book = [] → s.car.frames = [] →
    ∃ t, exec (.stkFormat q 1) s = .next t ∧ t.stk.formatted = true ∧ t.stk.map = [] ∧ t.stk.units = [] ∧ t.stk.rounds = s.stk.rounds ∧
      s.stk.seq ≤ t.stk.seq ∧ answered t q stOk = true)

/-- The Tally book (R250 to R264; log 55, log 70): host software enables ATS and PRI, and disables ATS, with which requests end; a completion records its piece and its request is gone;
a request without one fails; an invalidation reaches every engine and ends with their acknowledgements; a page response starts a
retranslation; a fault without one ends. -/
def Obligations.TallyRuns : Prop :=
  (∀ (port ld stu : Nat) (s : State), ldUp s port ld = true →
    exec (.atsEnable port ld true stu) s = .next { s with tlb := { s.tlb with
      ats := tset false s.tlb.ats (ldKey port ld) true, stu := tset 0 s.tlb.stu (ldKey port ld) stu } }) ∧
  (∀ (port ld stu id : Nat) (r : XReq) (s : State), ldUp s port ld = true → s.tlb.reqs = [(id, r)] → r.port = port → r.ld = ld →
    r.waiters = [] → r.fault = none → s.tlb.faults = [] → s.tlb.faultWait = [] → tsorted s.tlb.ats = true →
    ∃ u, exec (.atsEnable port ld false stu) s = .next (runClerk clerkFuel u) ∧ tget false u.tlb.ats (ldKey port ld) = false ∧
      u.tlb.reqs = [] ∧ u.tlb.faults = [] ∧ u.mem = s.mem) ∧
  (∀ (port ld allocation : Nat) (s : State), ldUp s port ld = true → s.tlb.faults = [] → s.tlb.faultWait = [] →
    tsorted s.tlb.pri = true → tsorted s.tlb.alloc = true →
    ∃ u, exec (.priEnable port ld allocation) s = .next (runClerk clerkFuel u) ∧ tget false u.tlb.pri (ldKey port ld) = true ∧
      tget 0 u.tlb.alloc (ldKey port ld) = min 256 allocation ∧ u.mem = s.mem) ∧
  (∀ (id addr perms n : Nat) (r : XReq) (s : State), tfind s.tlb.reqs id = some r → r.again = false → r.hit = [] → r.fault = none →
    r.waiters = [] → r.entry = some n → tsorted s.tlb.reqs = true →
    ∃ u e, exec (.translationCompletion id 0 addr grain perms) s = .next (runClerk clerkFuel u) ∧ tfind u.tlb.reqs id = none ∧
      tfind u.tlb.entries n = some e ∧ e.state = 2 ∧ e.ctx = r.ctx ∧ e.cva = r.piece * grain ∧ e.hpa = addr / grain * grain ∧
      e.read = bitOf perms 0 ∧ e.write = bitOf perms 1 ∧ u.mem = s.mem) ∧
  (∀ (id : Nat) (r : XReq) (s : State), tfind s.tlb.reqs id = some r → r.again = false → r.fault = none → r.due ≤ s.now →
    tsorted s.tlb.reqs = true →
    ∃ u, exec (.xlateTimeout id) s = .next (runClerk clerkFuel u) ∧ tfind u.tlb.reqs id = none ∧ u.mem = s.mem) ∧
  (∀ (port ld itag addr length : Nat) (pasid : Option Nat) (s : State), ldUp s port ld = true → s.tlb.invals.length < 64 →
    (s.tlb.invals.filter fun p => p.2.port == port && p.2.ld == ld).length < 32 → s.tlb.invalWait = [] →
    ∃ t iv, exec (.invalidateRequest port ld itag pasid addr length) s = .next t ∧ tfind t.tlb.invals s.tlb.nextId = some iv ∧
      iv.port = port ∧ iv.ld = ld ∧ iv.pasid = pasid ∧ iv.lo = addr ∧ iv.hi = addr + length ∧ iv.itag = some itag ∧
      iv.engines = List.range (nQuads s) ∧ t.mem = s.mem) ∧
  (∀ (q : Ask) (ctx cva length : Nat) (s : State), taken s q 1 = true → ctx < 4096 → (ctxOf s ctx).state ≠ 3 →
    s.tlb.invals.length < 64 →
    (s.tlb.invals.filter fun p => p.2.port == (ctxOf s ctx).port && p.2.ld == (ctxOf s ctx).ld).length < 32 → s.tlb.invalWait = [] →
    ∃ t iv, exec (.tlbInvalidate q ctx cva length) s = .next t ∧ tfind t.tlb.invals s.tlb.nextId = some iv ∧
      iv.port = (ctxOf s ctx).port ∧ iv.ld = (ctxOf s ctx).ld ∧ iv.pasid = some (ctxOf s ctx).pasid ∧ iv.lo = cva ∧
      iv.hi = cva + length ∧ iv.ask = some q ∧ t.mem = s.mem) ∧
  (∀ (id quad : Nat) (iv : Inval) (s : State), tfind s.tlb.invals id = some iv → iv.engines = [quad] →
    (∀ p ∈ s.cle.access, (p.2.quad == quad && accessUnder s iv p.2) = false) →
    exec (.engineInvalidateAck id quad) s = .next (runClerk clerkFuel (endInval id { iv with engines := [] } s))) ∧
  (∀ (id quad : Nat) (iv : Inval) (s : State), tfind s.tlb.invals id = some iv → (∃ x ∈ iv.engines, x ≠ quad) →
    (∀ p ∈ s.cle.access, (p.2.quad == quad && accessUnder s iv p.2) = false) →
    ∃ t, exec (.engineInvalidateAck id quad) s = .next t ∧
      tfind t.tlb.invals id = some { iv with engines := iv.engines.filter (· != quad) } ∧ t.tlb.entries = s.tlb.entries) ∧
  (∀ (index : Nat) (f : PFault) (s : State), tfind s.tlb.faults index = some f → f.retranslating = false →
    tsorted s.tlb.faults = true → (∀ p ∈ s.tlb.faults, p.1 ≠ index → p.2.resend = false) → s.tlb.faultWait = [] →
    ∃ t, exec (.pageGroupResponse index 0 f.pasid) s = .next t ∧
      tfind t.tlb.faults index = some { f with retranslating := true, resend := false } ∧
      t.out = .ats f.port f.ld 0 f.pasid (f.piece * grain) s.tlb.nextId :: s.out ∧ (tfind t.tlb.reqs s.tlb.nextId).isSome = true) ∧
  (∀ (index : Nat) (f : PFault) (s : State), tfind s.tlb.faults index = some f → f.retranslating = false → f.due ≤ s.now →
    s.tlb.faultWait = [] → tsorted s.tlb.faults = true →
    ∃ u, exec (.faultTimeout index) s = .next (runClerk clerkFuel u) ∧ tfind u.tlb.faults index = none ∧ u.mem = s.mem) ∧
  (∀ (index due : Nat) (f : PFault) (s : State), tfind s.tlb.faults index = some f → f.retranslating = false → f.downDue = some due →
    due ≤ s.now → s.tlb.faultWait = [] → tsorted s.tlb.faults = true →
    ∃ u, exec (.portDownFaultTimeout index) s = .next (runClerk clerkFuel u) ∧ tfind u.tlb.faults index = none ∧ u.mem = s.mem)

/-- Contexts (R104, R272 to R277, R635): assigned, written, bound, resumed, unbound, reset and released, with their doorbells. -/
def Obligations.ContextsRun : Prop :=
  (∀ (q : Ask) (part n : Nat) (s : State), taken s q 1 = true → n = selected s q 0x500200 → part ≤ 63 → (ctxOf s n).assigned = false →
    ∃ t, exec (.contextAssign q part) s = .next t ∧ ctxOf t n = { ctxOf s n with assigned := true, part := part } ∧
      answered t q stOk = true) ∧
  (∀ (q : Ask) (n : Nat) (s : State), taken s q 1 = true → n = selected s q 0x500200 → (ctxOf s n).state = 3 → (ctxOf s n).ranks = none →
    ∃ t, exec (.contextRelease q) s = .next t ∧ ctxOf t n = { ctxOf s n with assigned := false, part := 0 } ∧ answered t q stOk = true) ∧
  (∀ (q : Ask) (record : Bytes) (n : Nat) (s : State), taken s q 1 = true → n = selected s q 0x500200 → (ctxOf s n).state = 3 →
    (ctxOf s n).ranks = none → record.length = 64 → 0 < bits (leAt record 28 4) 0 7 → bits (leAt record 28 4) 0 7 ≤ 64 →
    ∃ t, exec (.cleContext q record) s = .next t ∧ (ctxOf t n).pasid = bits (leAt record 4 4) 0 20 ∧
      (ctxOf t n).port = bits (leAt record 4 4) 20 5 ∧ (ctxOf t n).ld = bits (leAt record 4 4) 25 4 ∧
      (ctxOf t n).sqBase = leAt record 8 8 ∧ (ctxOf t n).cqBase = leAt record 16 8 ∧ (ctxOf t n).jobLimit = bits (leAt record 28 4) 0 7 ∧
      (ctxOf t n).state = 3 ∧ (ctxOf t n).part = (ctxOf s n).part ∧ answered t q stOk = true) ∧
  (∀ (q : Ask) (n : Nat) (s : State), taken s q 1 = true → n = selected s q 0x500200 → (ctxOf s n).state = 3 →
    (ctxOf s n).waiting = none → (ctxOf s n).ranks = none → bindRefusal s (ctxOf s n) = 0 → bitOf (ctxOf s n).fabric 0 = false →
    ∃ t, exec (.bind q) s = .next t ∧ (ctxOf t n).state = 0 ∧ (ctxOf t n).sqHead = 0 ∧ (ctxOf t n).cqIndex = 0 ∧
      (ctxOf t n).phase = true ∧ (ctxOf t n).completed = 0 ∧ answered t q stOk = true) ∧
  (∀ (q : Ask) (n : Nat) (s : State), taken s q 1 = true → n = selected s q 0x500200 → (ctxOf s n).state ≠ 3 →
    (ctxOf s n).waiting = none →
    ∃ u, exec (.unbind q) s = .next (runQueues u) ∧ (ctxOf u n).waiting = some (2, q) ∧ (ctxOf u n).fetching = false ∧ u.mem = s.mem) ∧
  (∀ (q : Ask) (n : Nat) (s : State), taken s q 1 = true → n = selected s q 0x500200 → (ctxOf s n).state = 2 →
    (ctxOf s n).waiting = none →
    ∃ u, exec (.resume q) s = .next (runQueues u) ∧ (ctxOf u n).haltCode = 0 ∧
      (ctxOf u n).state = b2n (pendingSlots (ctxOf s n)) ∧ answered u q stOk = true) ∧
  (∀ (q : Ask) (n : Nat) (s : State), taken s q 1 = true → n = selected s q 0x500200 → (ctxOf s n).state ≠ 3 →
    (ctxOf s n).waiting = none →
    ∃ u, exec (.contextReset q) s = .next (runQueues u) ∧ (ctxOf u n).waiting = some (4, q) ∧ (ctxOf u n).records = [] ∧ u.mem = s.mem) ∧
  (∀ (q : Ask) (ctx : Nat) (s : State), (ctxOf (runQueues s) ctx).waiting = some (2, q) → (ctxOf (runQueues s) ctx).inval = 2 →
    jobsOf (runQueues s) ctx = [] → bitOf (ctxOf (runQueues s) ctx).fabric 0 = false →
    ∃ t, exec (.unbindComplete ctx) s = .next t ∧ (ctxOf t ctx).state = 3 ∧ (ctxOf t ctx).waiting = none ∧ (ctxOf t ctx).sqTail = 0) ∧
  (∀ (q : Ask) (ctx : Nat) (s : State), (ctxOf (runQueues s) ctx).waiting = some (4, q) → jobsOf (runQueues s) ctx = [] →
    (∀ p ∈ (runQueues s).cle.access, p.2.ctx = ctx → openCounter p.2 = false) →
    ∃ u, exec (.contextResetComplete ctx) s = .next (runQueues u) ∧ (ctxOf u ctx).state = 0 ∧ (ctxOf u ctx).waiting = none ∧
      (ctxOf u ctx).sqHead = 0 ∧ (ctxOf u ctx).sqTail = 0 ∧ (ctxOf u ctx).cqIndex = 0) ∧
  (∀ (port ld page value : Nat) (s : State), ldUp s port ld = true → pageLive s port ld page = true →
    value % 2 ^ 32 < 2 ^ (ctxOf s page).sqOrder →
    ∃ u, exec (.sqTail port ld page value true) s = .next (runQueues u) ∧ (ctxOf u page).sqTail = value % 2 ^ 32 ∧
      (ctxOf u page).sqHead = (ctxOf s page).sqHead ∧ u.mem = s.mem) ∧
  (∀ (port ld page value : Nat) (s : State), ldUp s port ld = true → pageLive s port ld page = true →
    exec (.cqHead port ld page value true) s = .next (runQueues (setCtx page { ctxOf s page with cqHead := value % 2 ^ 32 } s)))

/-- Jobs and chunks (R278, R281, R296 to R304): a descriptor that has been read becomes a job and frees its slot; a settled job completes; a
waiting chunk is issued under its job's generation; a quad with leave commits; a compare's result and a chunk's error settle it; a late chunk
is issued again, but no home operation, a lost one fails, and a lost counter update completes its job with COUNTER_ERR; keep-alives renew what this home holds open. -/
def Obligations.JobsRun : Prop :=
  (∀ (ctx : Nat) (d : Bytes) (s : State), (ctxOf (runQueues s) ctx).fetched = some (0, d) → (ctxOf (runQueues s) ctx).state = 1 →
    (ctxOf (runQueues s) ctx).waiting = none → (runQueues s).cle.jobs.length < 16384 →
    ∃ u x, exec (.descriptorFetch ctx) s = .next (runQueues (startJobs ctx u)) ∧ tfind u.cle.jobs (runQueues s).cle.nextJob = some x ∧
      x.ctx = ctx ∧ x.desc = d.take 64 ∧ x.slot = (ctxOf (runQueues s) ctx).sqHead ∧ x.checkErr = checkDescriptor d ∧
      (ctxOf u ctx).sqHead = ((ctxOf (runQueues s) ctx).sqHead + 1) % 2 ^ (ctxOf (runQueues s) ctx).sqOrder ∧
      (ctxOf u ctx).fetched = none) ∧
  (∀ (job : Nat) (x : Job) (s : State), tfind (runQueues s).cle.jobs job = some x → x.phase = 2 →
    (dCounter x.desc = false ∨ x.checkErr ≠ 0) →
    exec (.jobComplete job) s = .next (runQueues (jobCompletes job x (runQueues s)))) ∧
  (∀ (job : Nat) (x : Job) (s : State), tfind (runQueues s).cle.jobs job = some x → x.phase = 2 → dCounter x.desc = true →
    x.checkErr = 0 →
    ∃ u, exec (.jobComplete job) s = .next (runQueues u) ∧
      tfind u.cle.jobs job = some { x with phase := 3, counterSent := false, parked := false }) ∧
  (∀ (chunk quad : Nat) (c : Chunk) (x : Job) (s : State), tfind s.cle.chunks chunk = some c → tfind s.cle.jobs c.job = some x →
    c.state = 0 → x.phase = 1 → quadTakes s quad = true → (c.reissues = 0 ∨ c.quad ≠ quad) →
    ∃ u y, exec (.chunkIssue chunk quad 0) s = .next (runQueues u) ∧ tfind u.cle.chunks chunk = some y ∧ y.state = 1 ∧ y.quad = quad ∧
      y.gen = x.gen ∧ y.due = s.now + msec (rCleChunkTimeout s) ∧ u.mem = s.mem) ∧
  (∀ (chunk gen : Nat) (c : Chunk) (x : Job) (s : State), tfind (runQueues s).cle.chunks chunk = some c →
    tfind (runQueues s).cle.jobs c.job = some x → c.state = 1 → c.gen = gen → c.step = 2 → c.homeOp = false → c.faulting = false →
    dOp x.desc ≠ 3 →
    exec (.leaveRequest chunk gen) s = .next (runQueues (commitChunk chunk c x (runQueues s)))) ∧
  (∀ (chunk gen : Nat) (c : Chunk) (x : Job) (s : State), tfind (runQueues s).cle.chunks chunk = some c →
    tfind (runQueues s).cle.jobs c.job = some x → c.state = 1 → c.gen = gen → c.step = 2 → dOp x.desc = 3 →
    exec (.chunkResult chunk gen) s = .next (runQueues (settleChunk chunk { c with result :=
      (firstDiff c.lo (bufBytes c.buf (dDst x.desc + c.lo) c.len) (bufBytes c.buf (dSrc x.desc + c.lo) c.len)).getD noDiff } 0
      (runQueues s)))) ∧
  (∀ (chunk gen err : Nat) (c : Chunk) (s : State), tfind s.cle.chunks chunk = some c → c.state = 1 → c.gen = gen → err ≠ 0 →
    exec (.chunkError chunk gen err) s = .next (runQueues (chunkFails chunk c err s))) ∧
  (∀ (chunk gen err : Nat) (c : Chunk) (s : State), tfind s.cle.chunks chunk = some c → c.state ≠ 0 → c.gen ≠ gen → err ≠ 0 →
    exec (.chunkError chunk gen err) s = .next { s with cle := { s.cle with stale := s.cle.stale + 1 } }) ∧
  (∀ (chunk quad : Nat) (c : Chunk) (x : Job) (s : State), tfind s.cle.chunks chunk = some c → tfind s.cle.jobs c.job = some x →
    c.state = 1 → c.homeOp = false → c.faulting = false → c.due ≤ s.now → x.gen + 1 < 65535 → c.reissues < rCleReissueLimit s → nextQuad s c.quad = some quad →
    ∃ u y, exec (.chunkTimeout chunk) s = .next (runQueues u) ∧ tfind u.cle.chunks chunk = some y ∧ y.state = 1 ∧ y.gen = x.gen + 1 ∧
      y.quad = quad ∧ y.reissues = c.reissues + 1 ∧ u.mem = s.mem) ∧
  (∀ (chunk : Nat) (c : Chunk) (s : State), tfind s.cle.chunks chunk = some c → c.state = 1 → c.homeOp = true → c.faulting = false →
    c.due ≤ s.now → exec (.chunkTimeout chunk) s = .next (runQueues s)) ∧
  (∀ (chunk : Nat) (c : Chunk) (x : Job) (s : State), tfind s.cle.chunks chunk = some c → tfind s.cle.jobs c.job = some x →
    c.state = 2 → lateAccesses s chunk c ≠ [] → dOp x.desc ≠ 0x11 →
    exec (.lostTimeout chunk false) s = .next (runQueues (chunkFails chunk c 0x0040 s))) ∧
  (∀ (chunk : Nat) (c : Chunk) (x : Job) (s : State), tfind s.cle.chunks chunk = some c → tfind s.cle.jobs c.job = some x →
    c.state = 2 → lateAccesses s chunk c ≠ [] → dOp x.desc = 0x11 →
    ∃ u, exec (.lostTimeout chunk false) s = .next (runQueues (commitEnds chunk u)) ∧ u.mem = s.mem ∧ u.cle.jobs = s.cle.jobs ∧
      tfind u.cle.chunks chunk = some { c with homes := c.homes ++ (lateAccesses s chunk c).map fun p => (p.2.home, 0x0040) }) ∧
  (∀ (job : Nat) (x : Job) (s : State), tfind s.cle.jobs job = some x → x.phase = 3 → lateCounters s job ≠ [] →
    ∃ u, exec (.lostTimeout job true) s = .next (runQueues (jobCompletes job { x with counterErr := true } u)) ∧ u.mem = s.mem ∧
      u.cle.jobs = s.cle.jobs ∧ lateCounters u job = []) ∧
  (∀ (id k : Nat) (a : Access) (c : Chunk) (s : State), s.cle.access = [(id, a)] → a.home = hereAt s → a.chunk = some k →
    tfind s.cle.chunks k = some c → c.state = 2 → a.gen = c.gen →
    ∃ t y, exec .keepaliveSend s = .next t ∧ tfind t.cle.access id = some y ∧ y.lostDue = s.now + msec (rCleLostTimeout s) ∧ t.mem = s.mem)

/-- Windows (R311 to R335; log 55, log 56): a window is granted and bound; a contribution goes to the home; one that is not answered is
released, and its release sent again until it is confirmed; a rearm asks every binder, and ends with the last answer or the timer. -/
def Obligations.WindowsRun : Prop :=
  (∀ (q : Ask) (arg : Bytes) (a : GrantArg) (c lda n : Nat) (s : State), taken s q 1 = true → arg.length = 86 →
    grantArg s (arg.take 64) = some a → a.ways = 1 → a.members = [c] → c ≠ hereAt s → a.length = 0 → a.view = 0 →
    windowFormats (leAt arg 64 1) (leAt arg 65 1) = true → leAt arg 66 8 ≠ 0 → leAt arg 66 8 % 64 = 0 → leAt arg 66 8 ≤ 2 ^ 36 →
    leAt arg 74 4 ≠ 0 → leAt arg 78 8 % 8 = 0 → leAt arg 78 8 < 2 ^ 62 → inTorus s (pgaCoord (leAt arg 78 8)) = true →
    (tdiOf s (ldKey a.port a.ld)).part = a.part →
    lowestLda s a.port a.ld a.region (windowLength (leAt arg 64 1) (leAt arg 65 1) (leAt arg 66 8)) = some lda →
    tfresh s.pga.book (s.pga.book.length + 1) 0 = some n → n < 1048576 →
    ∃ t, exec (.winGrant q arg) s = .next t ∧ (bookOf t n).kind = 2 ∧ (bookOf t n).state = 1 ∧ (bookOf t n).isWin = true ∧
      (bookOf t n).base = lda ∧ (bookOf t n).length = windowLength (leAt arg 64 1) (leAt arg 65 1) (leAt arg 66 8) ∧
      (bookOf t n).part = a.part ∧ linesKept s t) ∧
  (∀ (q : Ask) (arg : Bytes) (n : Nat) (s : State), taken s q 1 = true → arg.length = 11 → leAt arg 0 8 < 2 ^ 62 →
    inTorus s (pgaCoord (leAt arg 0 8)) = true → pgaCoord (leAt arg 0 8) ≠ hereAt s → bits (leAt arg 8 2) 0 5 < 24 → leAt arg 8 2 < 4096 →
    leAt arg 10 1 < 4 → (tdiOf s (ldKey (bits (leAt arg 8 2) 0 5) (bits (leAt arg 8 2) 5 4))).part < 64 →
    tfresh s.pga.book (s.pga.book.length + 1) 0 = some n → n < 1048576 →
    ∃ t g, exec (.winBind q arg) s = .next t ∧ (bookOf t n).kind = 2 ∧ (bookOf t n).state = 1 ∧ (bookOf t n).isWin = true ∧
      (bookOf t n).target = leAt arg 0 8 ∧ tfind t.pga.grants n = some g ∧ g.bindOnly = true ∧ g.ask = q ∧ linesKept s t) ∧
  (∀ (p : Packet) (s : State), p.opcode = 0x08 → malformedPacket p = false →
    exec (.contrib p 0) s = .next (settle (twinned p (homeRequest (requestOf p)) s))) ∧
  (∀ (home seq : Nat) (c : Contrib) (s : State), s.win.out = [c] → c.home = home → c.seq = seq → c.released = false → c.due ≤ s.now →
    home ≠ hereAt s → s.win.waiting = [] → s.win.owed = [] → s.win.stats.length = 8 →
    ∃ t, exec (.contribTimeout home seq) s = .next t ∧
      t.win.out = [{ c with released := true, due := s.now + msec (rWinContribTimeout s) }] ∧
      t.win.stats.getD 5 0 = s.win.stats.getD 5 0 + 1 ∧ t.mem = s.mem) ∧
  (∀ (home seq : Nat) (c : Contrib) (s : State), s.win.out = [c] → c.home = home → c.seq = seq → c.released = true → c.due ≤ s.now →
    home ≠ hereAt s →
    ∃ t, exec (.releaseResend home seq) s = .next t ∧ t.win.out = [{ c with due := s.now + msec (rWinContribTimeout s) }] ∧
      t.win.recs = s.win.recs ∧ t.mem = s.mem) ∧
  (∀ (p : Packet) (s : State), p.opcode = 0x89 → malformedPacket p = false → bitOf p.aux 32 = false →
    exec (.release p) s =
      .next (sendBypass 0x89 p.src 0 0 (p.aux % 2 ^ 32 + 2 ^ 32) [] (markRelease p.src (p.aux % 2 ^ 32) s))) ∧
  (∀ (p : Packet) (c : Contrib) (s : State), p.opcode = 0x89 → malformedPacket p = false → bitOf p.aux 32 = true → s.win.out = [c] →
    c.home = p.src → c.seq = p.aux % 2 ^ 32 → c.released = true →
    exec (.release p) s =
      .next (ackOwed (pumpContribs 4096 (answer c.req { status := 3 } { s with win := { s.win with out := [] } })))) ∧
  (∀ (q : Ask) (expected pga n c : Nat) (h : BookEntry) (s : State), taken s q 1 = true → pga = selected s q 0x510100 →
    homeAt s (pgaDpa pga) = some (n, h) → pgaCoord pga = hereAt s → h.window = true → h.base = pgaDpa pga → expected < 2 ^ 32 →
    (winOf s n).state ≠ 3 → (winOf s n).binders = [c] → c ≠ hereAt s →
    ∃ u, exec (.winRearm q expected) s = .next (settle u) ∧ (winOf u n).state = 3 ∧ (winOf u n).awaited = [c] ∧
      (winOf u n).nextExpected = expected ∧ (winOf u n).ask = q ∧ u.mem = s.mem) ∧
  (∀ (p : Packet) (s : State), p.opcode = 0x8A → malformedPacket p = false → leAt p.payload 2 1 = 0 →
    exec (.generation p) s = .next (settle (genNoticed p.src p.pga (leAt p.payload 0 2) s))) ∧
  (∀ (p : Packet) (n : Nat) (h : BookEntry) (s : State), p.opcode = 0x8A → malformedPacket p = false → leAt p.payload 2 1 ≠ 0 →
    homeAt s (pgaDpa p.pga) = some (n, h) → h.window = true → leAt p.payload 0 2 = ((winOf s n).gen + 1) % 65536 →
    exec (.generation p) s = .next (settle (genAcked n p.src s))) ∧
  (∀ (entry : Nat) (s : State), (winOf s entry).state = 3 → (winOf s entry).rearmDue ≤ s.now → (winOf s entry).held = [] →
    firmwareHeld s = false →
    ∃ u, exec (.rearmTimeout entry) s = .next (settle u) ∧ (winOf u entry).state = 1 ∧
      (winOf u entry).gen = ((winOf s entry).gen + 1) % 65536 ∧ (winOf u entry).count = 0 ∧ (winOf u entry).awaited = [])

/-- The fabric's settings, its own engines and its failed-link table (R336 to R352, R360, R361, R393, R588): coordinates, ring sizes, ports
and routes are set; a packet is routed, re-injected, acknowledged at its waypoint, spilled and sent; a notice changes the table and is repeated;
a waiting request takes a tag, and a tag is free after its quarantine. -/
def Obligations.FabricRuns : Prop :=
  (∀ (q : Ask) (value : Nat) (s : State), taken s q 1 = true → value ≤ 4095 → ringsOff s = true → tsorted s.regs = true →
    ∃ t, exec (.marNodeCoord q value) s = .next t ∧ hereAt t = value ∧ linesKept s t) ∧
  (∀ (q : Ask) (value : Nat) (s : State), taken s q 1 = true → value ≤ 4095 → ringsOff s = true → tsorted s.regs = true →
    ∃ t, exec (.marRingSize q value) s = .next t ∧ tget 0 t.regs 0x100001 = value ∧ linesKept s t) ∧
  (∀ (q : Ask) (port value : Nat) (s : State), taken s q 1 = true → port < 7 → value ≤ 1 → tsorted s.regs = true →
    ∃ t, exec (.marPortEnable q port value) s = .next t ∧ bitOf (rMarPortEnable t) port = (value == 1) ∧ t.mem = s.mem) ∧
  (∀ (q : Ask) (value : Nat) (s : State), taken s q 1 = true → bits (value % 2 ^ 18) 1 2 ≠ 2 →
    ∃ t, exec (.marRoute q value) s = .next t ∧ tfind t.mar.route (selected s q 0x101000 % 4096) = some (value % 2 ^ 18) ∧
      t.mem = s.mem) ∧
  (∀ (q : Ask) (s : State), taken s q 1 = true →
    ∃ t, exec (.marRouteReset q 1) s = .next t ∧ t.mar.route = [] ∧ t.mar.routeSize = rMarRingSize s ∧ answered t q stOk = true ∧ t.mem = s.mem) ∧
  (∀ (p : Packet) (s : State), malformedPacket p = false →
    exec (.packetRoute none p 0) s = .next (inject p (packetClass p) s)) ∧
  (∀ (k : Nat) (p : Packet) (s : State), k < 7 → exec (.packetRoute (some k) p 0) s = .next (routeArrived k p s)) ∧
  (∀ (x : Transit) (s : State), s.mar.transit = [x] → s.mar.transitWait = [] → x.expires = none → x.atWpt = false →
    ∃ u, exec .transitReinject s = .next (routeWith (injectBehind 1) { x.pkt with dir := 0, dl := false } x.cls none true false false u) ∧
      u.mar.transit = [] ∧ u.mem = s.mem) ∧
  (∀ (p : Packet) (s : State), p.opcode = 0x8B → malformedPacket p = false → s.mar.legWait = [] →
    ∃ t, exec (.transitAck p) s = .next t ∧ firstLegs t p.src = firstLegs s p.src - b2n (decide ((p.src, p.tag) ∈ s.mar.firstLeg)) ∧ t.mem = s.mem) ∧
  (∀ (w : Packet × Nat) (port : Nat) (p : Packet) (enters : Bool) (s : State), s.mar.spill = [w] → s.mar.transit = [] → spillReady s w = true →
    routeHop s w.1 none true false = .send port p enters →
    ∃ t, exec .spillSend s = .next t ∧ t.mar.spill = [] ∧ t.mar.spillFull = false ∧ t.mem = s.mem) ∧
  (∀ (p : Packet) (s : State), p.opcode = 0x85 → malformedPacket p = false → leAt p.payload 7 1 = 0 → leAt p.payload 2 1 ≠ 1 →
    s.mar.failed.length < 64 → ∃ t, exec (.fault p) s = .next t ∧ leAt p.payload 0 2 ∈ t.mar.failed ∧ t.mem = s.mem) ∧
  (∀ (p : Packet) (s : State), p.opcode = 0x85 → malformedPacket p = false → leAt p.payload 7 1 = 0 → leAt p.payload 2 1 = 1 →
    ∃ t, exec (.fault p) s = .next t ∧ leAt p.payload 0 2 ∉ t.mar.failed ∧ t.mem = s.mem) ∧
  (∀ (r : Repeat) (s : State), s.mar.repeats = [r] → r.due ≤ s.now → 2 ≤ r.left →
    ∃ t, exec .faultNoticeRepeat s = .next t ∧ t.mar.repeats = [{ r with left := r.left - 1, due := r.due + msec 1 }] ∧ t.mem = s.mem) ∧
  (∀ (w : Waiting) (tag : Nat) (rest : List Waiting) (s : State), s.mar.waiting = w :: rest → freeTag s w.gen = some tag →
    ∃ t x, exec .tagAllocate s = .next t ∧ t.mar.waiting = rest ∧ tfind t.mar.tags tag = some x ∧ x.use = w.use ∧ x.isOpen = true ∧
      x.npk = w.npk ∧ t.mem = s.mem) ∧
  (∀ (tag : Nat) (r : TagRec) (s : State), tfind s.mar.tags tag = some r → r.isOpen = false → r.held = false → r.due ≤ s.now →
    tsorted s.mar.tags = true →
    ∃ t, exec (.tagQuarantineEnd tag) s = .next t ∧ tfind t.mar.tags tag = none ∧ t.mem = s.mem) ∧
  (∀ (tag id : Nat) (r : TagRec) (m : MReq) (h : HostReq) (s : State), openTagOf s tag = some r → r.due ≤ s.now → r.twin = none →
    r.use = .mem m → m.who = .host id → tfind s.cxl.reqs id = some h → tsorted s.cxl.reqs = true →
    ∃ u x, exec (.requestTimeout tag) s = .next (settle u) ∧ tfind u.mar.tags tag = some x ∧ x.isOpen = false ∧ x.held = true ∧
      tfind u.cxl.reqs id = none ∧ u.mem = s.mem) ∧
  (∀ (tag : Nat) (r : TagRec) (s : State), tfind s.mar.tags tag = some r → r.held = true → r.due ≤ s.now →
    exec (.tagHoldExpiry tag) s = .next (freeTagNow tag s))

/-- Operations that arrive from other nodes (R116, R167, R174, R291 to R294, R356, R361, R392, R427; log 77): a new request is entered in the
acceptance record and served as the memory request it spells; a chunk write is served once whole, and discarded when it stays in part. -/
def Obligations.RequestsArrive : Prop :=
  (∀ (c : Instr) (o : Nat) (p : Packet) (s : State),
    (c, o) ∈ [(.read p, 0x01), (.write p, 0x02), (.cleanEvict p, 0x04), (.atomic p, 0x05), (.append p, 0x06)] →
    p.opcode = o → newHere s p = true → twinRange s (pgaDpa p.pga) = none →
    ∃ u, exec c s = .next (settle (arriveRequest (requestOf p) u)) ∧ u = { s with lnk := { s.lnk with accept := u.lnk.accept } } ∧
      acceptEntry u p.src p.tag = acceptTime s + 2 ^ 14) ∧
  (∀ (p : Packet) (s : State), p.opcode = 0x07 → newHere s p = true → twinRange s (pgaDpa p.pga) = none →
    ∃ u, exec (.commit p) s = .next (settle (commitHere (.nodeEngine p.src p.tag) (pgaDpa p.pga) (leAt p.payload 0 8) p.partition
      (bitOf (leAt p.payload 8 8) 0) p.twin u)) ∧ u.mem = s.mem ∧ u.pga = s.pga ∧ u.car = s.car) ∧
  (∀ (p : Packet) (s : State), p.opcode = 0x09 → newHere s p = true → twinRange s (pgaDpa p.pga) = none →
    ∃ u, exec (.stage p) s = .next (stageFrom p true u) ∧ u.mem = s.mem ∧ u.pga = s.pga ∧ u.car = s.car) ∧
  (∀ (p : Packet) (s : State), p.opcode = 0x03 → newHere s p = true → bits p.aux 0 6 = 0 → bits p.aux 6 6 = 1 →
    tfind s.mar.chunks (p.src * 65536 + p.tag) = none →
    ∃ u x, exec (.chunkWrite p) s = .next (settle u) ∧ tfind u.mar.chunks (p.src * 65536 + p.tag) = some x ∧ x.got = [0] ∧ x.npk = 2 ∧
      x.parts = [(0, p)] ∧ u.mem = s.mem) ∧
  (∀ (p : Packet) (s : State), p.opcode = 0x03 → newHere s p = true → bits p.aux 0 6 = 0 → bits p.aux 6 6 = 0 →
    tfind s.mar.chunks (p.src * 65536 + p.tag) = none → twinRange s (pgaDpa p.pga) = none →
    ∃ u, exec (.chunkWrite p) s = .next (settle (arriveRequest (requestOf p) u)) ∧ u.mem = s.mem ∧ u.pga = s.pga ∧ u.ldg = s.ldg) ∧
  (∀ (src tag : Nat) (x : PartialOp) (s : State), tfind s.mar.chunks (src * 65536 + tag) = some x → x.due ≤ s.now →
    tsorted s.mar.chunks = true →
    ∃ t, exec (.chunkWriteDiscard src tag) s = .next t ∧ tfind t.mar.chunks (src * 65536 + tag) = none ∧ t.mem = s.mem) ∧
  (∀ (p : Packet) (s : State), p.opcode = 0x83 → malformedPacket p = false →
    exec (.count p) s = .next (settle (arriveRequest { kind := .engineWrite, who := .nodeEngine p.src p.tag, dpa := pgaDpa p.pga, part := p.partition, noRsp := true, data := atomicBody 0x08 15 (leAt p.payload 0 8) 0, op := 1 } s)))

/-- Answers that arrive (R44, R299, R360, R361, R393): DATA and DONE complete the host's request they answer and free its tag; a keep-alive
renews the chunk that waits; a response without a tag is counted. -/
def Obligations.ResponsesArrive : Prop :=
  (∀ (p : Packet) (id : Nat) (r : TagRec) (m : MReq) (h : HostReq) (s : State), p.opcode = 0x41 → malformedPacket p = false →
    tfind s.mar.tags p.tag = some r → r.isOpen = true → r.held = false → r.got = [] → r.data = [] → r.npk = 1 → r.twinned = false →
    r.use = .mem m → m.who = .host id → tfind s.cxl.reqs id = some h → tsorted s.cxl.reqs = true →
    ∃ u, exec (.data p) s = .next (settle u) ∧ tfind u.cxl.reqs id = none ∧ openTagOf u p.tag = none ∧ u.mem = s.mem) ∧
  (∀ (p : Packet) (id : Nat) (r : TagRec) (m : MReq) (h : HostReq) (s : State), p.opcode = 0x42 → malformedPacket p = false →
    tfind s.mar.tags p.tag = some r → r.isOpen = true → r.held = false → r.got = [] → r.twinned = false →
    r.use = .mem m → m.who = .host id → tfind s.cxl.reqs id = some h → tsorted s.cxl.reqs = true →
    ∃ u, exec (.done p) s = .next (settle u) ∧ tfind u.cxl.reqs id = none ∧ openTagOf u p.tag = none ∧ u.mem = s.mem) ∧
  (∀ (c : Instr) (p : Packet) (s : State), c = .data p ∧ p.opcode = 0x41 ∨ c = .done p ∧ p.opcode = 0x42 → malformedPacket p = false →
    tfind s.mar.tags p.tag = none → ∃ u, exec c s = .next (settle u) ∧ u = countStray s) ∧
  (∀ (p : Packet) (r : TagRec) (ref : EngRef) (a : Access) (s : State), p.opcode = 0x88 → malformedPacket p = false →
    openTagOf s p.tag = some r → r.use = .commit ref → tfind s.cle.access ref.a = some a →
    ∃ t, exec (.keepalive p) s = .next t ∧ t = { s with cle := { s.cle with access := t.cle.access } } ∧
      tfind t.cle.access ref.a = some { a with lostDue := s.now + msec (rCleLostTimeout s) })

/-- Links (R371 to R395): a flit with the expected number is taken, credits are taken over, and what arrives is reported; replays, losses,
training, offers and acceptances move a port between its states; expired transit packets go; the acceptance pass ends old entries. -/
def Obligations.LinksRun : Prop :=
  (∀ (port : Nat) (f : Flit) (s : State), port < 7 → takesFlits (linkOf s port) = true → badFlit f = false → f.ftype = 0 →
    f.seq = (linkOf s port).e →
    ∃ u, exec (.dataFlit port f) s = .next (goodArrives port f (applyCredit port f.cvc f.credit u)) ∧
      (linkOf u port).e = ((linkOf s port).e + 1) % 4096 ∧ (linkOf u port).unreported = (linkOf s port).unreported + 1 ∧
      (linkOf u port).nakPending = false ∧ u.mem = s.mem) ∧
  (∀ (port : Nat) (f : Flit) (s : State), port < 7 → takesFlits (linkOf s port) = true → badFlit f = false → f.ftype = 1 →
    (linkOf s port).totals.length = 5 →
    ∃ u, exec (.controlFlit port f) s = .next (goodArrives port f u) ∧
      (∀ v, v < 5 → (linkOf u port).totals.getD v 0 = leAt f.payload (2 * v) 2 % 4096) ∧ u.mem = s.mem) ∧
  (∀ (port : Nat) (s : State), port < 7 → takesFlits (linkOf s port) = true →
    (16 ≤ (linkOf s port).unreported ∨ (0 < (linkOf s port).unreported ∧ (linkOf s port).unreportedAt + 200 ≤ s.now) ∨
      (linkOf s port).lastSentAt + 200 ≤ s.now) →
    ∃ t, exec (.ackReport port) s = .next t ∧ t = sendControl port false s ∧ (linkOf t port).unreported = 0) ∧
  (∀ (port : Nat) (s : State), port < 7 → takesFlits (linkOf s port) = true → (linkOf s port).nakPending = true →
    (linkOf s port).nakDue ≤ s.now →
    ∃ t, exec (.nakResend port) s = .next t ∧ t = sendControl port true s ∧ (linkOf t port).nakDue = s.now + rLnkReplayTimeout s) ∧
  (∀ (port : Nat) (x : Sent) (s : State), port < 7 → (linkOf s port).state = 3 → (linkOf s port).replay = [x] →
    isAcked (linkOf s port) x = false → x.sentAt + rLnkReplayTimeout s ≤ s.now →
    exec (.replayTimeout port) s =
      .next (replayFrom port (setLink port { linkOf s port with stats := bump (linkOf s port).stats 6 1 } s))) ∧
  (∀ (port : Nat) (lost : Bool) (s : State), port < 7 → (linkOf s port).state = 3 →
    (lost = true ∨ (linkOf s port).lastGoodAt + rLnkDeadTime s ≤ s.now) →
    ∃ t, exec (.deadTime port lost) s = .next t ∧ (linkOf t port).state = 4 ∧ t.mem = s.mem) ∧
  (∀ (port polarity : Nat) (reversed : Bool) (s : State), port < 7 → (linkOf s port).state = 1 → polarity < 2 ^ 32 → s.rst.recovering = true →
    exec (.phyTrained port reversed polarity) s = .next (setLink port { linkOf s port with
      reversed := reversed, polarity := polarity, state := 5, phyLocked := true } s)) ∧
  (∀ (port polarity : Nat) (reversed : Bool) (s : State), port < 7 → (linkOf s port).state = 1 → polarity < 2 ^ 32 →
    s.rst.recovering = false →
    ∃ t, exec (.phyTrained port reversed polarity) s = .next t ∧ (linkOf t port).state = 2 ∧ (linkOf t port).phyLocked = true ∧
      (linkOf t port).reversed = reversed ∧ (linkOf t port).polarity = polarity ∧
      (linkOf t port).nonce = ((linkOf s port).nonce + 1) % 65536 ∧ t.mem = s.mem) ∧
  (∀ (port : Nat) (s : State), port < 7 → (linkOf s port).state = 1 →
    exec (.trainingFails port) s = .next (setLink port { linkOf s port with
      state := 4, phyLocked := false, retryDue := s.now + msec (rLnkRetryInterval s) } s)) ∧
  (∀ (port : Nat) (f : Flit) (s : State), port < 7 → (linkOf s port).state = 2 → badFlit f = false → f.ftype = 2 →
    leAt f.payload 5 1 = 1 → offerFits s port f = true → (linkOf s port).sendUp = false →
    s.rst.recovering = false →
    ∃ t, exec (.offer port f) s = .next t ∧ (linkOf t port).recvUp = true ∧ (linkOf t port).state = 2 ∧ t.mem = s.mem) ∧
  (∀ (port : Nat) (f : Flit) (s : State), port < 7 → (linkOf s port).state = 2 → badFlit f = false → f.ftype = 2 →
    leAt f.payload 5 1 = 2 → leAt f.payload 6 2 = (linkOf s port).nonce →
    ∃ t, exec (.accept port f) s = .next t ∧ (linkOf t port).sendUp = true ∧
      (linkOf t port).state = (if (linkOf s port).recvUp = true then 3 else 2)) ∧
  (∀ (port : Nat) (s : State), port < 7 → (linkOf s port).state = 2 → (linkOf s port).sendUp = false → (linkOf s port).offerDue ≤ s.now →
    ∃ t, exec (.offerResend port) s = .next t ∧ (linkOf t port).nonce = ((linkOf s port).nonce + 1) % 65536 ∧
      (linkOf t port).offerDue = s.now + 1000 ∧ t.mem = s.mem) ∧
  (∀ (port : Nat) (s : State), port < 7 → ((linkOf s port).state = 4 ∨ (linkOf s port).state = 6) → (linkOf s port).retryDue ≤ s.now →
    s.rst.recovering = false →
    ∃ t, exec (.lnkRetryInterval port) s = .next t ∧ (linkOf t port).state = (if (linkOf s port).phyLocked = true then 2 else 1) ∧
      t.mem = s.mem) ∧
  (∀ s : State, ∃ t, exec .lnkReinjectExpired s = .next t ∧
    (∀ x, x ∈ t.mar.transit ↔ x ∈ s.mar.transit ∧ ∀ e, x.expires = some e → s.now < e) ∧
    t.lnk.reinjectExpired = s.lnk.reinjectExpired + (s.mar.transit.length - t.mar.transit.length) ∧ t.mem = s.mem) ∧
  (∀ s : State, ∃ t, exec .acceptancePass s = .next t ∧
    (∀ e ∈ t.lnk.accept, bitOf e.2 14 = true → bitOf e.2 15 = true ∨ (acceptTime s + 16384 - bits e.2 0 14) % 16384 ≤ 8000) ∧
    t = { s with lnk := { s.lnk with accept := t.lnk.accept } })

/-- Twins (R397 to R427, R635; log 62 to 67): attach, detach and swap by command; heartbeats, and a partner that is lost; stamped events in
order, a body that never comes, notices between the twins, a resilver unit, and the two answers of a twinned request. -/
def Obligations.TwinsRun : Prop :=
  (∀ (q : Ask) (entry : Nat) (s : State), taken s q 1 = true → hasPartner s = true → (stampLink s).isSome = true →
    (tfind s.pga.book entry).isSome = true → (bookOf s entry).kind = 1 → (bookOf s entry).twin = 0 → (bookOf s entry).state = 2 →
    (bookOf s entry).window = false → s.twn.recs.length < 16384 →
    ∃ t x, exec (.twnAttach q entry 0 none) s = .next t ∧ (bookOf t entry).twin = 1 ∧ (bookOf t entry).target = rMarPairPartner s ∧
      twinOf t entry = some x ∧ x.role = 1 ∧ x.state = 1 ∧ x.full = true ∧ answered t q stOk = true ∧ linesKept s t) ∧
  (∀ (q : Ask) (entry answer : Nat) (f : FollowArg) (s : State), hasPartner s = true →
    exec (.twnAttach q entry answer (some f)) s = .next (attachHere f s)) ∧
  (∀ (q : Ask) (entry : Nat) (x : Twin) (s : State), taken s q 1 = true → twinOf s entry = some x → x.made = false →
    tfind s.twn.detach entry = none → tsorted s.twn.recs = true →
    ∃ t, exec (.twnDetach q entry 0) s = .next t ∧ twinOf t entry = none ∧ (bookOf t entry).twin = 0 ∧ answered t q stOk = true ∧
      linesKept s t) ∧
  (∀ (entry due : Nat) (q : Ask) (s : State), tfind s.twn.detach entry = some (q, due) → due ≤ s.now → twinOf s entry = none →
    firmwareHeld s = false → tsorted s.twn.detach = true →
    ∃ t, exec (.detachWaitExpiry entry) s = .next t ∧ tfind t.twn.detach entry = none ∧ t.mem = s.mem) ∧
  (∀ (q : Ask) (verify : Nat) (s : State), taken s q 1 = true → verify ≤ 1 → hasPartner s = true →
    twinsIn s 1 [0, 1, 3, 4, 5, 6] = [] → twinsIn s 1 [2] ≠ [] →
    ∃ u, exec (.twnSwap q verify) s = .next (trySwap u) ∧ u.twn.swap = some (q, verify) ∧ u.twn.swapped = false ∧ u.mem = s.mem) ∧
  (∀ s : State, rMarPairPartner s ≠ 0xFFFF → s.twn.hbDue ≤ s.now →
    ∃ t, exec .heartbeatSend s = .next t ∧ t.twn.hbDue = s.now + usec 5 ∧ t.mem = s.mem ∧ t.pga = s.pga) ∧
  (∀ (p : Packet) (s : State), p.opcode = 0x84 → malformedPacket p = false → p.src = rMarPairPartner s → s.twn.recs = [] →
    ∃ u, exec (.heartbeat p) s = .next (startDelta u) ∧ u.twn.named = true ∧ u.twn.seen = true ∧ u.twn.seenPair = s.now ∧ u.mem = s.mem) ∧
  (∀ s : State, stampLink s = none → s.twn.seen = true → s.twn.seenPair + usec (rTwnPartnerTimeout s) ≤ s.now → s.twn.recs = [] →
    ∃ t, exec .partnerTimeout s = .next t ∧ t.twn.seen = false ∧ t.twn.lost = s.twn.lost + 1 ∧ bitOf t.cxl.alerts 2 = true ∧
      t.mem = s.mem) ∧
  (∀ (p : Packet) (term : Nat) (s : State), p.opcode = 0x82 → malformedPacket p = false → p.src = rMarPairPartner s →
    term = bits (leAt p.payload 0 8) 42 16 →
    exec (.stamp p) s = .next (runEvents eventFuel (each (stampEvents p.payload) receiveEvent (swapEnds term (meetTerm term s))))) ∧
  (∀ (order due : Nat) (e : StampEv) (rest : List (StampEv × Nat)) (s : State), s.twn.pending = (e, due) :: rest → e.order = order →
    due ≤ s.now → (applyEvent e s).1 = false → e.kind = 0 → heldFor s.twn.heldReq e.src e.tag = none →
    ∃ u, exec (.bodyWaitTimeout order) s = .next (runEvents eventFuel u) ∧ u.twn.applied = (order + 1) % 2 ^ 40 ∧
      u.twn.pending = rest ∧ u.mem = s.mem) ∧
  (∀ (p : Packet) (h : Nat × Nat × Nat) (n : Nat) (b : BookEntry) (x : Twin) (s : State), p.opcode = 0x85 → leAt p.payload 7 1 = 2 →
    malformedPacket p = false → p.src = rMarPairPartner s → s.twn.history = [h] → h.1 = leAt p.payload 0 5 →
    twinRange s h.2.1 = some (n, b, x) →
    exec (.patch p) s = .next (twnCount 3 1 (markUnits n ((List.range h.2.2).map (· + h.2.1 / 64)) s))) ∧
  (∀ (p : Packet) (s : State), p.opcode = 0x85 → leAt p.payload 7 1 = 1 → malformedPacket p = false → p.src = rMarPairPartner s →
    exec (.staleReport p) s = .next (startDelta (each (twinsIn s 1 [1, 2, 5]) goSolo s))) ∧
  (∀ (p : Packet) (n : Nat) (b : BookEntry) (x : Twin) (s : State), p.opcode = 0x85 → leAt p.payload 7 1 = 3 →
    malformedPacket p = false → p.src = rMarPairPartner s → twinRange s (pgaDpa p.pga) = some (n, b, x) → x.role ≠ 2 →
    ∃ u, exec (.rejoinHistory p) s = .next (startDelta u) ∧ u.twn.partnerStale = true ∧ u.mem = s.mem) ∧
  (∀ (n k tag : Nat) (x : Twin) (s : State), twinsIn s 1 [1] = [] → s.twn.resilver = none → resilverNext s = some (n, k) →
    freeTag s false = some tag → twinOf s n = some x →
    ∃ u r l, exec .resilverUnit s = .next (sendUnit (openTxn r l u)) ∧ r.kind = .invalidate ∧ r.op = 5 ∧
      r.dpa = (bookOf s n).base + k * 32768 ∧ r.lines = 512 ∧ u.twn.resilver = some (n, k, tag) ∧ u.mem = s.mem) ∧
  (∀ (p : Packet) (s : State), p.opcode = 0x0B → bits p.aux 0 8 = 8 → newHere s p = true →
    ∃ u, exec (.resilverMeta p) s = .next (receiveUnit p 32 u) ∧ u = { s with lnk := { s.lnk with accept := u.lnk.accept } }) ∧
  (∀ (tag : Nat) (r : TagRec) (x : TwinRsp) (s : State), openTagOf s tag = some r → r.twin = some x → x.due ≤ s.now → x.passed = true →
    bits x.pkt.aux 14 2 = 0 →
    ∃ u, exec (.secondTimeout tag) s = .next (settle u) ∧ openTagOf u tag = none ∧ u.mem = s.mem) ∧
  (∀ (tag : Nat) (r : TagRec) (x : TwinRsp) (s : State), openTagOf s tag = some r → r.twin = some x → x.passed = false →
    bits x.pkt.aux 14 2 ≠ 0 → x.windowDue ≤ s.now → rTwnCompare s = 1 →
    exec (.compareWindowExpiry tag) s = .next (settle (useResponse r x.pkt (keepFirst tag { x with passed := true } s))))

/-- The weigh-house (R432 to R448): the first strict class with a ready head is served, then the second, then the weighted classes; refills,
wheel slots and gate lists; the bucket, overhead and gate settings; and the safe level is cleared. -/
def Obligations.WeighHouseRuns : Prop :=
  (∀ (sched : Nat) (s : State), sched < 47 → strictReady s sched 0 = true →
    exec (.schedulerSelect sched) s = .next (returnCredits (takeHead sched 0 s))) ∧
  (∀ (sched : Nat) (s : State), sched < 47 → strictReady s sched 0 = false → strictReady s sched 1 = true →
    exec (.schedulerSelect sched) s = .next (returnCredits (takeHead sched 1 s))) ∧
  (∀ (sched c : Nat) (x : Sched) (s : State), sched < 47 → strictReady s sched 0 = false → strictReady s sched 1 = false →
    weighLoop s sched 6 (schedOf s sched) = (some c, x) →
    exec (.schedulerSelect sched) s = .next (returnCredits (takeHead sched c (setSched sched x s)))) ∧
  (∀ s : State, ∃ t, exec .refill s = .next t ∧ (∀ e ∈ t.wgh.sched, s.now / 64 ≤ e.2.lastSlot) ∧
    (t.wgh.safeInForce = true ∨ t.wgh.sched.map (·.1) = s.wgh.sched.map (·.1)) ∧ t.mem = s.mem ∧ t.lnk = s.lnk ∧ t.mar = s.mar) ∧
  (∀ (sched cls slot : Nat) (s : State), (classOf (schedOf s sched) cls).wheel = some slot → slot ≤ s.now / 64 →
    (classOf (schedOf s sched) cls).queue = [] →
    exec (.wheelSlot sched cls) s = .next (setClass sched cls { classOf (schedOf s sched) cls with wheel := none } s)) ∧
  (∀ (sched : Nat) (g : List Nat × Nat) (s : State), (schedOf s sched).nextGates = some g → (schedOf s sched).nextAt ≤ s.now →
    ∃ t, exec (.gateEntry sched) s = .next t ∧ (schedOf t sched).gates = g.1 ∧ (schedOf t sched).gateBase = g.2 ∧
      (schedOf t sched).nextGates = none ∧ (schedOf t sched).cls = (schedOf s sched).cls) ∧
  (∀ (q : Ask) (cls value k : Nat) (s : State), taken s q 1 = true → k = selected s q 0x600000 → 2 ≤ cls → cls ≤ 7 → value ≤ 16777216 →
    longestPayload k + (classOf (schedOf s k) cls).nextOverhead ≤ value →
    ∃ t, exec (.wghBurst q cls value) s = .next t ∧
      classOf (schedOf t k) cls = { classOf (schedOf s k) cls with nextBurst := value } ∧ answered t q stOk = true) ∧
  (∀ (q : Ask) (cls value k : Nat) (s : State), taken s q 1 = true → k = selected s q 0x600000 → 2 ≤ cls → cls ≤ 7 → value ≤ 255 →
    longestPayload k + value ≤ (classOf (schedOf s k) cls).nextBurst →
    ∃ t, exec (.wghOverhead q cls value) s = .next t ∧
      classOf (schedOf t k) cls = { classOf (schedOf s k) cls with nextOverhead := value } ∧ answered t q stOk = true) ∧
  (∀ (q : Ask) (list : Bytes) (k : Nat) (s : State), taken s q 1 = true → k = selected s q 0x600000 → list.length = 257 →
    leAt list 0 1 ≤ 64 → (∀ e ∈ gateEntries list, bits e 0 16 ≠ 0) →
    ∃ t, exec (.wghGateList q list) s = .next t ∧ (schedOf t k).setGates = gateEntries list ∧
      (schedOf t k).nextGates = some (gateEntries list, (schedOf s k).setBase) ∧ (schedOf t k).gates = (gatesOf s (schedOf s k)).1 ∧
      answered t q stOk = true) ∧
  (∀ (q : Ask) (s : State), taken s q 1 = true →
    ∃ t, exec (.wghSafeClear q 1) s = .next t ∧ t.wgh.watchdogCause = false ∧ t.wgh.privCause = false ∧ t.wgh.clearEvent = true ∧
      answered t q stOk = true)

/-- Partitions (R451 to R474): a create, a rotation and a Sweep by command; a change of the key records that is durable takes effect; the
steps of a Sweep, which erases the groups of step t2 and frees the partition; a rekeyed line, and how far the DRAM pass has walked; the end of a rekey; the partition of a logical device, a tenant's credential and an attestation. -/
def Obligations.PartitionsRun : Prop :=
  (∀ (q : Ask) (part : Nat) (s : State), taken s q 1 = true → part < 64 → (partOf s part).state = 0 → (partOf s part).change = 0 →
    s.car.tiered = true → s.lck.changing = none →
    ∃ t, exec (.partitionCreate q part) s = .next t ∧ (partOf t part).change = 1 ∧ (partOf t part).ask = q ∧ (partOf t part).state = 0 ∧
      t.lck.changing = some (part * 8 + 1) ∧ t.fresh = s.fresh + 1 ∧ t.mem = s.mem) ∧
  (∀ (q : Ask) (part : Nat) (s : State), taken s q 1 = true → part < 64 → (partOf s part).state = 1 → (partOf s part).change = 0 →
    (partOf s part).current < 65535 → (∀ e ∈ s.pga.book, e.2.kind = 1 → e.2.part = part → e.2.state ≠ 4 ∧ e.2.state ≠ 5) →
    s.car.tiered = true → s.lck.changing = none →
    ∃ t, exec (.partitionRotate q part) s = .next t ∧ (partOf t part).change = 2 ∧ (partOf t part).ask = q ∧
      (partOf t part).current = (partOf s part).current ∧ t.lck.changing = some (part * 8 + 2) ∧ t.mem = s.mem) ∧
  (∀ (q : Ask) (part : Nat) (s : State), taken s q 1 = true → part < 64 → (partOf s part).state ≠ 0 → (partOf s part).state ≠ 3 →
    s.lck.tdis = [] → homesOf s part = [] → tsorted s.lck.tenants = true →
    ∃ t, exec (.partitionSweep q part) s = .next t ∧ (partOf t part).state = 3 ∧ (partOf t part).sweepStep = 1 ∧
      tfind t.lck.tenants part = none ∧ (∀ e ∈ t.sah.sessions, e.2.role = 2 → e.2.part ≠ part)) ∧
  (∀ (part : Nat) (s : State), s.lck.changing = some (part * 8 + 1) → s.lck.changeWait = [] → (partOf s part).state = 0 →
    (partOf s part).change = 1 →
    ∃ t, exec .keyRecordTableDurable s = .next t ∧ (partOf t part).state = 1 ∧ (partOf t part).current = 1 ∧
      (partOf t part).seedCur = (partOf s part).nextSeed ∧ t.lck.changing = none ∧ t.lck.standbyB = !s.lck.standbyB ∧ t.mem = s.mem) ∧
  (∀ (part : Nat) (s : State), s.lck.changing = some (part * 8 + 2) → s.lck.changeWait = [] → (partOf s part).state = 1 →
    (partOf s part).change = 2 →
    ∃ t, exec .keyRecordTableDurable s = .next t ∧ (partOf t part).state = 2 ∧
      (partOf t part).current = (partOf s part).current + 1 ∧ (partOf t part).previous = (partOf s part).current ∧
      (partOf t part).seedPrev = (partOf s part).seedCur ∧ (partOf t part).rotateTime = s.now ∧ t.mem = s.mem) ∧
  (∀ (part : Nat) (s : State), (partOf s part).state = 3 → firmwareHeld s = false → (partOf s part).sweepStep = 1 →
    (partOf s part).recalls = [] → homesOf s part = [] → s.car.frames = [] →
    ∃ t, exec (.sweepStepDone part) s = .next t ∧ (partOf t part).sweepStep = 2 ∧ (partOf t part).state = 3 ∧ t.mem = s.mem) ∧
  (∀ (part line n : Nat) (h : BookEntry) (s : State), (partOf s part).state = 2 → firmwareHeld s = false → (partOf s part).previous ≠ 0 →
    homeAt s (line * 64) = some (n, h) → h.part = part → s.car.tiered = false →
    (∀ d, dramLine s line = some d → lineServes s d = true) →
    ∃ t, exec (.rekeyWrite part line) s = .next t ∧ t.mem = (rekeyLine line line part (partOf s part) s).mem ∧
      (line % 1024 = 0 ∨ line = (partOf s part).walked → (partOf t part).walked = line + 1 ∧
        (partOf t part).rekeyLines = (partOf s part).rekeyLines + (if line % 1024 = 1023 then 65536 else 0)) ∧
      (line % 1024 ≠ 0 → line ≠ (partOf s part).walked → (partOf t part).rekeyLines = (partOf s part).rekeyLines) ∧
      (partOf t part).current = (partOf s part).current ∧ (partOf t part).previous = (partOf s part).previous) ∧
  (∀ (part : Nat) (s : State), (partOf s part).state = 3 → firmwareHeld s = false → (partOf s part).sweepStep = 5 →
    (partOf s part).groups = [] → homesOf s part = [] → tsorted s.lck.parts = true →
    ∃ t, exec (.sweepStepDone part) s = .next t ∧ (partOf t part).state = 0 ∧ (partOf t part).current = 0 ∧
      t.lck.stats = bump s.lck.stats 0 1 ∧ t.mem = s.mem) ∧
  (∀ (part : Nat) (s : State), (partOf s part).state = 2 → firmwareHeld s = false → rekeyed s part (partOf s part) = true →
    s.car.tiered = true →
    ∃ t, exec (.rekeyDone part) s = .next t ∧ (partOf t part).state = 1 ∧ (partOf t part).previous = 0 ∧
      (partOf t part).current = (partOf s part).current ∧ t.mem = s.mem) ∧
  (∀ (q : Ask) (port ld value : Nat) (s : State), taken s q 1 = true → port < 24 → ld < 16 → (value < 64 ∨ value = 255) →
    ldBound s port ld = false → (tdiOf s (ldKey port ld)).state = 0 →
    ∃ t, exec (.lckLdPartition q port ld value) s = .next t ∧ tdiOf t (ldKey port ld) = { tdiOf s (ldKey port ld) with part := value } ∧
      t.mem = s.mem) ∧
  (∀ (q : Ask) (part : Nat) (digest : Bytes) (s : State), taken s q 1 = true → part < 64 → digest.length = 64 →
    ∃ t, exec (.lckTenantCred q part digest) s = .next t ∧ tfind t.lck.tenants part = some digest ∧
      (∀ e ∈ t.sah.sessions, e.2.role = 2 → e.2.part = part → e.2.digest = digest)) ∧
  (∀ (q : Ask) (nonce : Bytes) (s : State), taken s q 1 = true → nonce.length = 32 →
    ∃ t b rest, exec (.lckAttest q nonce) s = .next t ∧ t.out = .nasidom q.sid q.req stOk b.length b :: rest ∧ b.take 32 = nonce ∧
      t.lck = s.lck ∧ t.mem = s.mem)

/-- SPDM on a logical device that is up and while the root of trust answers (R475 to R478; log 79): the exchange goes on step by step, sessions
open, answer and close, and long messages go in parts. -/
def Obligations.SpdmRuns : Prop :=
  (∀ (port ld : Nat) (s : State), ldUp s port ld = true → s.fw.rotBusy = none →
    ∃ t, exec (.getVersion port ld) s = .next t ∧ (tdiOf t (ldKey port ld)).spdm.stage = 1 ∧
      t.out = .spdm port ld 0 (packLE [(1, 2), (2, 0x1200), (2, 0x1300)]) :: s.out) ∧
  (∀ (port ld : Nat) (s : State), ldUp s port ld = true → s.fw.rotBusy = none → (tdiOf s (ldKey port ld)).spdm.stage = 1 →
    ∃ t b, exec (.getCapabilities port ld) s = .next t ∧ (tdiOf t (ldKey port ld)).spdm.stage = 2 ∧ t.out = .spdm port ld 0 b :: s.out) ∧
  (∀ (port ld : Nat) (s : State), ldUp s port ld = true → s.fw.rotBusy = none → (tdiOf s (ldKey port ld)).spdm.stage = 2 →
    ∃ t b, exec (.negotiateAlgorithms port ld) s = .next t ∧ (tdiOf t (ldKey port ld)).spdm.stage = 3 ∧
      t.out = .spdm port ld 0 b :: s.out) ∧
  (∀ (port ld : Nat) (s : State), ldUp s port ld = true → s.fw.rotBusy = none → 3 ≤ (tdiOf s (ldKey port ld)).spdm.stage →
    exec (.getDigests port ld) s = .next (emit (.spdm port ld 0 ([1] ++ toLE 64 (Config.digest 6 0))) s)) ∧
  (∀ (port ld offset length : Nat) (s : State), ldUp s port ld = true → s.fw.rotBusy = none → 3 ≤ (tdiOf s (ldKey port ld)).spdm.stage →
    offset ≤ certChain.length →
    ∃ t b, exec (.getCertificate port ld offset length) s = .next t ∧ t = spdmReply port ld 0 b s ∧
      b.drop 4 = (certChain.drop offset).take length) ∧
  (∀ (port ld : Nat) (nonce : Bytes) (s : State), ldUp s port ld = true → s.fw.rotBusy = none →
    3 ≤ (tdiOf s (ldKey port ld)).spdm.stage →
    ∃ u, exec (.challenge port ld 0 nonce) s = .next (spdmReply port ld 0 (toLE 32 (draw s) ++ signature nonce) u) ∧
      (tdiOf u (ldKey port ld)).spdm.stage = 4 ∧ u.fresh = s.fresh + 1 ∧ u.out = s.out) ∧
  (∀ (port ld index : Nat) (nonce : Bytes) (s : State), ldUp s port ld = true → s.fw.rotBusy = none →
    (tdiOf s (ldKey port ld)).spdm.stage = 4 → 1 ≤ index → index ≤ 5 →
    exec (.getMeasurements port ld index nonce) s =
      .next (spdmReply port ld 0 (measurement s index ++ signature (nonce ++ measurement s index)) s)) ∧
  (∀ (port ld : Nat) (random : Bytes) (s : State), ldUp s port ld = true → s.fw.rotBusy = none →
    (tdiOf s (ldKey port ld)).spdm.stage = 4 → (tdiOf s (ldKey port ld)).spdm.sessions.length < 2 →
    ∃ u, exec (.keyExchange port ld random) s =
        .next (spdmReply port ld 0 (toLE 4 (tdiOf s (ldKey port ld)).spdm.nextSession ++ toLE 32 (draw s) ++ signature random) u) ∧
      tfind (tdiOf u (ldKey port ld)).spdm.sessions (tdiOf s (ldKey port ld)).spdm.nextSession = some 1 ∧ u.fresh = s.fresh + 1) ∧
  (∀ (port ld session : Nat) (s : State), ldUp s port ld = true → s.fw.rotBusy = none →
    tfind (tdiOf s (ldKey port ld)).spdm.sessions session = some 1 →
    ∃ t, exec (.finish port ld session) s = .next t ∧ tfind (tdiOf t (ldKey port ld)).spdm.sessions session = some 2 ∧
      t.out = .spdm port ld 0 [] :: s.out) ∧
  (∀ (port ld session op : Nat) (s : State), ldUp s port ld = true → s.fw.rotBusy = none →
    tfind (tdiOf s (ldKey port ld)).spdm.sessions session = some 2 → 1 ≤ op → op ≤ 2 →
    ∃ t, exec (.keyUpdate port ld session op) s = .next t ∧
      (tdiOf t (ldKey port ld)).spdm.updates = (tdiOf s (ldKey port ld)).spdm.updates + 1 ∧ t.out = .spdm port ld 0 [] :: s.out) ∧
  (∀ (port ld session : Nat) (s : State), ldUp s port ld = true → s.fw.rotBusy = none →
    tfind (tdiOf s (ldKey port ld)).spdm.sessions session = some 2 →
    exec (.spdmHeartbeat port ld session) s = .next (emit (.spdm port ld 0 []) s)) ∧
  (∀ (port ld session : Nat) (s : State), ldUp s port ld = true → s.fw.rotBusy = none →
    tfind (tdiOf s (ldKey port ld)).spdm.sessions session = some 2 → tsorted (tdiOf s (ldKey port ld)).spdm.sessions = true →
    ∃ t, exec (.endSession port ld session) s = .next t ∧ tfind (tdiOf t (ldKey port ld)).spdm.sessions session = none ∧
      t.out = .spdm port ld 0 [] :: s.out) ∧
  (∀ (port ld : Nat) (part : Bytes) (s : State), ldUp s port ld = true → s.fw.rotBusy = none →
    ∃ t, exec (.chunkSend port ld 0 false part) s = .next t ∧ (tdiOf t (ldKey port ld)).spdm.chunk = part ∧
      (tdiOf t (ldKey port ld)).spdm.chunkSeq = 1 ∧ t.out = .spdm port ld 0 (toLE 2 0) :: s.out) ∧
  (∀ (port ld seq : Nat) (s : State), ldUp s port ld = true → s.fw.rotBusy = none → (tdiOf s (ldKey port ld)).spdm.large ≠ [] →
    (tdiOf s (ldKey port ld)).spdm.largeSeq = seq →
    ∃ t, exec (.chunkGet port ld seq) s = .next t ∧ t.out = .spdm port ld 0 ((tdiOf s (ldKey port ld)).spdm.large.take doeMost) :: s.out ∧
      (tdiOf t (ldKey port ld)).spdm.large = (tdiOf s (ldKey port ld)).spdm.large.drop doeMost ∧
      (tdiOf t (ldKey port ld)).spdm.largeSeq = seq + 1)

/-- IDE and TDISP in an established session (R475 to R480; log 79): keys are programmed and used and given up, an integrity failure and a
write to a locked register put a locked TDI in error, and a TDI is locked, reported, started and stopped. -/
def Obligations.TdispRuns : Prop :=
  (∀ (port ld session : Nat) (s : State), ldUp s port ld = true → s.fw.rotBusy = none →
    tfind (tdiOf s (ldKey port ld)).spdm.sessions session = some 2 →
    (∃ t b, exec (.query port ld session) s = .next t ∧ t = emit (.spdm port ld 0 b) s ∧ b.length = 3) ∧
    exec (.getTdispVersion port ld session) s = .next (emit (.spdm port ld 0 [1, 0x10]) s) ∧
    exec (.getTdispCapabilities port ld session) s = .next (emit (.spdm port ld 0 (toLE 4 0x7F)) s) ∧
    exec (.getDeviceInterfaceState port ld session) s = .next (emit (.spdm port ld 0 (toLE 1 (tdiOf s (ldKey port ld)).state)) s) ∧
    (∃ t, exec (.stopInterfaceRequest port ld session) s = .next t ∧ (tdiOf t (ldKey port ld)).state = 0 ∧
      (tdiOf t (ldKey port ld)).nonce = 0 ∧ t.out = .spdm port ld 0 [] :: s.out)) ∧
  (∀ (port ld session : Nat) (s : State), ldUp s port ld = true → s.fw.rotBusy = none →
    tfind (tdiOf s (ldKey port ld)).spdm.sessions session = some 2 →
    ∃ t, exec (.keyProg port ld session 1) s = .next t ∧ 1 ∈ (tdiOf t (ldKey port ld)).keyed ∧ t.out = .spdm port ld 0 [] :: s.out) ∧
  (∀ (port ld session : Nat) (s : State), ldUp s port ld = true → s.fw.rotBusy = none →
    tfind (tdiOf s (ldKey port ld)).spdm.sessions session = some 2 → 1 ∈ (tdiOf s (ldKey port ld)).keyed →
    ∃ t, exec (.kSetGo port ld session 1) s = .next t ∧ 1 ∈ (tdiOf t (ldKey port ld)).active ∧ t.out = .spdm port ld 0 [] :: s.out) ∧
  (∀ (port ld session : Nat) (s : State), ldUp s port ld = true → s.fw.rotBusy = none →
    tfind (tdiOf s (ldKey port ld)).spdm.sessions session = some 2 →
    ∃ t, exec (.kSetStop port ld session 1) s = .next t ∧ 1 ∉ (tdiOf t (ldKey port ld)).active ∧ 1 ∉ (tdiOf t (ldKey port ld)).keyed ∧
      (1 ∈ (tdiOf s (ldKey port ld)).active → tdiLocked s (ldKey port ld) = true → (tdiOf t (ldKey port ld)).state = 3) ∧ t.out = .spdm port ld 0 [] :: s.out) ∧
  (∀ (port ld : Nat) (s : State), ldUp s port ld = true → 1 ∈ (tdiOf s (ldKey port ld)).active →
    ∃ t, exec (.ideIntegrityFailure port ld 1) s = .next t ∧ 1 ∉ (tdiOf t (ldKey port ld)).active ∧
      (tdiOf t (ldKey port ld)).state = (if tdiLocked s (ldKey port ld) = true then 3 else (tdiOf s (ldKey port ld)).state)) ∧
  (∀ (port ld session : Nat) (s : State), ldUp s port ld = true → s.fw.rotBusy = none →
    tfind (tdiOf s (ldKey port ld)).spdm.sessions session = some 2 → (tdiOf s (ldKey port ld)).state = 0 → mayLock s port ld = true →
    ∃ t, exec (.lockInterfaceRequest port ld session) s = .next t ∧ (tdiOf t (ldKey port ld)).state = 1 ∧
      (tdiOf t (ldKey port ld)).nonce = draw s ∧ t.fresh = s.fresh + 1 ∧ t.out = .spdm port ld 0 (toLE 32 (draw s)) :: s.out) ∧
  (∀ (port ld session offset length : Nat) (s : State), ldUp s port ld = true → s.fw.rotBusy = none →
    tfind (tdiOf s (ldKey port ld)).spdm.sessions session = some 2 → tdiLocked s (ldKey port ld) = true →
    offset ≤ (interfaceReport s port ld).length →
    ∃ b, exec (.getDeviceInterfaceReport port ld session offset length) s = .next (spdmReply port ld 0 b s) ∧
      b.drop 4 = ((interfaceReport s port ld).drop offset).take length) ∧
  (∀ (port ld session : Nat) (s : State), ldUp s port ld = true → s.fw.rotBusy = none →
    tfind (tdiOf s (ldKey port ld)).spdm.sessions session = some 2 → (tdiOf s (ldKey port ld)).state = 1 →
    ∃ t, exec (.startInterfaceRequest port ld session (tdiOf s (ldKey port ld)).nonce) s = .next t ∧ (tdiOf t (ldKey port ld)).state = 2 ∧
      t.out = .spdm port ld 0 [] :: s.out) ∧
  (∀ (port ld : Nat) (s : State), ldUp s port ld = true → tdiLocked s (ldKey port ld) = true →
    ∃ t, exec (.lockedRegisterWrite port ld) s = .next t ∧ (tdiOf t (ldKey port ld)).state = 3 ∧ t.mem = s.mem)

/-- Interrupts (R485 to R503; log 40): a coalescing timer that is due and the end of a holdoff fire; an unmask sends a pending vector; the
global disable and the thresholds are set; a claim takes the source and an end of interrupt gives it back; a source is configured; the
oldest record in the writer's buffer is written under the next sequence number. -/
def Obligations.InterruptsRun : Prop :=
  (∀ (ctx : Nat) (c : Ctx) (since : Nat) (s : State), tfind s.cle.ctxs ctx = some c → c.timerAt = some since →
    since + usec c.timeThr ≤ s.now →
    ∃ t, exec (.coalesceTimer ctx) s = .next t ∧ tfind t.cle.ctxs ctx = some { c with n := 0, timerAt := none } ∧ t.mem = s.mem) ∧
  (∀ (port ld group due : Nat) (s : State), tfind (msixOf s (ldKey port ld)).heldUntil group = some due → due ≤ s.now →
    exec (.holdoffEnd port ld group) s = .next (releaseGroup (ldKey port ld) group s)) ∧
  (∀ (port ld vector : Nat) (entry : Option (Nat × Nat)) (s : State), vector < 2048 → tdiLocked s (ldKey port ld) = false →
    ∃ t, exec (.maskClear port ld vector entry) s = .next t ∧ vector ∈ (msixOf t (ldKey port ld)).unmasked ∧
      (∀ v ∈ (msixOf s (ldKey port ld)).unmasked, v ∈ (msixOf t (ldKey port ld)).unmasked) ∧
      (∀ e, entry = some e → tfind (msixOf t (ldKey port ld)).table vector = some (e.1 % 2 ^ 64, e.2 % 2 ^ 32)) ∧
      (vector ∉ (msixOf s (ldKey port ld)).pending → t.out = s.out) ∧ t.mem = s.mem) ∧
  (∀ (q : Ask) (value : Nat) (s : State), taken s q 1 = true → value ≤ 1 → tsorted s.regs = true →
    ∃ t, exec (.irqGlobalDisable q value) s = .next t ∧ rIrqGlobalDisable t = value ∧ answered t q stOk = true ∧ t.mem = s.mem) ∧
  (∀ (q : Ask) (count time : Nat) (c : Ctx) (s : State), taken s q 1 = true → tfind s.cle.ctxs (selected s q 0x500200) = some c →
    1 ≤ count → count ≤ 4095 → 1 ≤ time → time ≤ 65535 →
    ∃ t y, exec (.irqCqCoalesce q count time) s = .next t ∧ tfind t.cle.ctxs (selected s q 0x500200) = some y ∧ y.countThr = count ∧
      y.timeThr = time ∧ (c.n < count → c.timerAt = none → y.n = c.n) ∧ answered t q stOk = true) ∧
  (∀ (core src : Nat) (s : State), core < 4 → claimed (sicOf s core) core = some src →
    ∃ t, exec (.claim core) s = .next t ∧ t.out = .claim core src :: s.out ∧
      (sicOf t core).stack = (src, srcPriority (sicOf s core) src) :: (sicOf s core).stack ∧
      (src ≠ 1 → src ≠ 2 → src ∉ (sicOf t core).pending)) ∧
  (∀ (core : Nat) (s : State), core < 4 → claimed (sicOf s core) core = none →
    exec (.claim core) s = .next (emit (.claim core 0x100) s)) ∧
  (∀ (core source p : Nat) (rest : List (Nat × Nat)) (s : State), core < 4 → source < 256 → (sicOf s core).stack = (source, p) :: rest →
    exec (.eoi core source) s = .next (setSic core { sicOf s core with stack := rest } s)) ∧
  (∀ (core source top p : Nat) (rest : List (Nat × Nat)) (s : State), core < 4 → source < 256 → top ≠ source →
    (sicOf s core).stack = (top, p) :: rest →
    ∃ t, exec (.eoi core source) s = .next t ∧ (sicOf t core).stack = (top, p) :: rest ∧ (sicOf t core).faultEoi = source ∧
      (sicOf t core).faultTop = top ∧ 0 ∈ (sicOf t core).pending) ∧
  (∀ (core source value : Nat) (s : State), core < 4 → source < 256 → source ≠ 0 → bits value 0 4 ≠ 0 →
    tsorted (sicOf s core).config = true →
    ∃ t, exec (.sourceConfigWrite core source value) s = .next t ∧ tget 15 (sicOf t core).config source = bits value 0 7 ∧
      (sicOf t core).pending = (sicOf s core).pending ∧ (sicOf t core).stack = (sicOf s core).stack) ∧
  (∀ (e : Event) (rest : List Event) (s : State), s.evt.queue = e :: rest → s.evt.log.length < 1048576 →
    ∃ t, exec .eventWrite s = .next t ∧ t.evt.queue = rest ∧ t.evt.nextSeq = s.evt.nextSeq + 1 ∧
      t.evt.log = s.evt.log ++ [(s.evt.nextSeq, { e with seq := s.evt.nextSeq })] ∧ t.mem = s.mem)

/-- Frames and sessions (R508, R513 to R519; log 89): a frame that is damaged is counted and one for the management VLAN is kept; a released
bank gives the next; an overrun is cleared; a handshake with the warden's root opens a session, another is refused; an idle session is
closed. -/
def Obligations.SessionsRun : Prop :=
  (∀ (frame : Bytes) (s : State), s.rst.inReset = false → s.sah.ethStats.length = 8 →
    ∃ t, exec (.frameReceived frame false) s = .next t ∧ t.sah.ethStats.getD 0 0 = s.sah.ethStats.getD 0 0 + 1 ∧
      t.sah.ethStats.getD 1 0 = s.sah.ethStats.getD 1 0 + 1 ∧ t.sah.frames = s.sah.frames ∧ t.mem = s.mem) ∧
  (∀ (frame : Bytes) (s : State), s.rst.inReset = false → frame.length ≤ 9216 → rocePort frame = none →
    (etherType frame ≠ 0x8808 ∨ beAt frame (14 + tagLen frame) 2 ≠ 0x0101) → vlanOf frame = managementVlan s →
    addressedHere frame = true →
    ∃ t, exec (.frameReceived frame true) s = .next t ∧ t = toBuffer frame (ethCount 0 s)) ∧
  (∀ s : State, s.sah.held = true → s.sah.fillFrames ≠ 0 →
    ∃ t, exec .bankRelease s = .next t ∧ t.sah.held = true ∧ t.sah.heldBank = s.sah.frames ∧ t.sah.heldFrames = s.sah.fillFrames ∧
      t.sah.frames = [] ∧ t.sah.fillFrames = 0 ∧ t.sah.bankB = !s.sah.bankB ∧ t.evt = s.evt) ∧
  (∀ s : State, s.sah.held = true → s.sah.fillFrames = 0 →
    ∃ t, exec .bankRelease s = .next t ∧ t.sah.held = false ∧ t.sah.heldBank = [] ∧ t.sah.bankB = s.sah.bankB ∧
      ∀ core, core < 4 → 1 ∉ (sicOf t core).pending) ∧
  (∀ s : State, ∃ t, exec .overrun s = .next t ∧ t.sah.overrun = false ∧ t.sah.rxStats = s.sah.rxStats ∧
      ∀ core, core < 4 → 2 ∉ (sicOf t core).pending) ∧
  (∀ (cert : Cert) (s : State), s.sah.up = true → cert.valid = true → s.sah.anchor ≠ [] → cert.root = s.sah.anchor →
    s.sah.sessions.length < 32 →
    ∃ t x, exec (.dtlsHandshake cert) s = .next t ∧ t.out = .dtls s.sah.nextSession true :: s.out ∧
      sessionOf t s.sah.nextSession = some x ∧ x.role = 1 ∧ x.lastAt = s.now ∧ x.running = [] ∧ x.cache = [] ∧
      t.sah.nextSession = s.sah.nextSession + 1) ∧
  (∀ (cert : Cert) (s : State), s.sah.up = true → (cert.valid = false ∨ 32 ≤ s.sah.sessions.length) →
    ∃ t, exec (.dtlsHandshake cert) s = .next t ∧ t.out = .dtls 0 false :: s.out ∧ t.sah.sessions = s.sah.sessions) ∧
  (∀ (sid : Nat) (x : Session) (s : State), sessionOf s sid = some x → tsorted s.sah.sessions = true →
    x.lastAt + msec (1000 * rSahSessionIdle s) ≤ s.now →
    ∃ t, exec (.sessionIdleTimeout sid) s = .next t ∧ sessionOf t sid = none ∧ (∀ k ≠ sid, sessionOf t k = sessionOf s k) ∧
      t.out = s.out)

/-- Nasidom (R14, R520 to R530, R541; log 92): an index the dictionary does not have answers ABSENT; an entry is read with its value and written with
the value given, or its parts are staged; subscriptions are made, removed and acknowledged; the summary is read; what only the
warden may write or command is DENIED to a tenant and an observer; what is due is sent again. -/
def Obligations.NasidomRuns : Prop :=
  (∀ (q : Ask) (index sub offset role : Nat) (s : State), taken s q role = true → 1 ≤ role → role ≤ 3 → 0xB000 ≤ index → index < 65536 →
    ∃ t, exec (.nasidomRead q index sub offset) s = .next t ∧ answered t q stAbsent = true ∧ t.regs = s.regs ∧ t.mem = s.mem) ∧
  (∀ (q : Ask) (s : State), taken s q 1 = true →
    ∃ t rest, exec (.nasidomRead q 0x9001 0 0) s = .next t ∧
      t.out = .nasidom q.sid q.req stOk 4 (toLE 4 (rRasCeThreshold s)) :: rest ∧ t.regs = s.regs ∧ t.mem = s.mem) ∧
  (∀ (q : Ask) (value : Nat) (s : State), taken s q 1 = true → 1 ≤ value → value ≤ 1000000 → tsorted s.regs = true →
    (∀ x, sessionOf s q.sid = some x → x.staged = none) →
    ∃ t, exec (.nasidomWrite q 0x9001 0 0 true (toLE 4 value)) s = .next t ∧ rRasCeThreshold t = value ∧
      (∀ key, key ≠ 0x900100 → tfind t.regs key = tfind s.regs key) ∧ answered t q stOk = true ∧ t.mem = s.mem) ∧
  (∀ (q : Ask) (part : Bytes) (s : State), taken s q 1 = true → part.length ≤ 8192 →
    (∀ x, sessionOf s q.sid = some x → x.staged = none) →
    ∃ t y, exec (.nasidomWrite q 0x9001 0 0 false part) s = .next t ∧ sessionOf t q.sid = some y ∧ y.staged = some (0x900100, part) ∧
      t.regs = s.regs ∧ answered t q stOk = true ∧ t.mem = s.mem) ∧
  (∀ (q : Ask) (value : Nat) (s : State), taken s q 1 = true → value < 47 →
    (∀ x, sessionOf s q.sid = some x → x.staged = none) →
    ∃ t, exec (.nasidomWrite q 0x6000 0 0 true (toLE 1 value)) s = .next t ∧ selected t q 0x600000 = value ∧ answered t q stOk = true ∧
      t.regs = s.regs ∧ t.mem = s.mem) ∧
  (∀ (q : Ask) (slot low high severity start : Nat) (s : State), taken s q 1 = true → slot < 16 → severity < 4 → low < 65536 →
    high < 65536 → (∀ x, sessionOf s q.sid = some x → tfind x.subs slot = none) →
    ∃ u y, exec (.subscribeAdd q slot low high severity start) s = .next (pumpSub 65 q.sid slot u) ∧ sessionOf u q.sid = some y ∧
      tfind y.subs slot = some { low := low, high := high, minSev := severity, next := start } ∧
      (oldestSeq s ≤ start → answered u q stOk = true)) ∧
  (∀ (q : Ask) (slot : Nat) (s : State), taken s q 1 = true → slot < 16 →
    (∀ x, sessionOf s q.sid = some x → tsorted x.subs = true) →
    ∃ t y, exec (.subscribeRemove q slot) s = .next t ∧ sessionOf t q.sid = some y ∧ tfind y.subs slot = none ∧
      answered t q stOk = true) ∧
  (∀ (q : Ask) (slot seq : Nat) (x : Session) (u : Sub) (s : State), taken s q 1 = true → slot < 16 → sessionOf s q.sid = some x →
    tfind x.subs slot = some u →
    ∃ v y, exec (.subscribeAcknowledge q slot seq) s = .next (pumpSub 65 q.sid slot v) ∧ sessionOf v q.sid = some y ∧
      tfind y.subs slot = some { u with unacked := u.unacked.filter fun n => decide (seq < n.2.1) } ∧ answered v q stOk = true) ∧
  (∀ (q : Ask) (s : State), taken s q 1 = true →
    ∃ t y b rest, exec (.summary q) s = .next t ∧ t.out = .nasidom q.sid q.req stOk (List.length b) b :: rest ∧
      sessionOf t q.sid = some y ∧ y.dones = [] ∧ t.regs = s.regs ∧ t.mem = s.mem) ∧
  (∀ (q : Ask) (value role : Nat) (s : State), taken s q role = true → 2 ≤ role → role ≤ 3 →
    (∃ t, exec (.nasidomWrite q 0x9001 0 0 true (toLE 4 value)) s = .next t ∧ answered t q stDenied = true ∧
      t = { s with sah := t.sah, out := t.out } ∧ t.sah.stored = s.sah.stored) ∧
    (∃ t, exec (.tstColdReset q value) s = .next t ∧ answered t q stDenied = true ∧ t = { s with sah := t.sah, out := t.out })) ∧
  (∀ (sid : Nat) (x : Session) (d : Done) (s : State), sessionOf s sid = some x → x.subs = [] → x.dones = [d] → d.due ≤ s.now →
    ∃ t y, exec (.noticeResend sid) s = .next t ∧ sessionOf t sid = some y ∧ y.dones = [{ d with due := s.now + msec 200 }] ∧
      t.out = .notice sid 3 d.req d.entry d.status (packLE [(1, 3), (1, 0), (1, 0), (5, 0)] ++ d.result) :: s.out)

/-- RDMA and drains (R509 to R512; log 83, log 90): queue pairs and regions are opened and closed; a write and a read of one line of
another node go to its home; a request that a queue pair may not make answers REMOTE ACCESS ERROR; a drain reads its first packet and
counts what the far side acknowledges. -/
def Obligations.RdmaRuns : Prop :=
  (∀ (q : Ask) (addr qp mtu n : Nat) (s : State), taken s q 1 = true → 1024 ≤ mtu → mtu ≤ 4096 → tfresh s.sah.qps 4096 1 = some n →
    ∃ t, exec (.rdmaQpOpen q addr qp mtu) s = .next t ∧
      tfind t.sah.qps n = some { part := 0, remoteAddr := addr, remoteQp := qp, mtu := mtu } ∧ answered t q stOk = true) ∧
  (∀ (q : Ask) (qp : Nat) (p : Qp) (s : State), taken s q 1 = true → tfind s.sah.qps qp = some p → tsorted s.sah.qps = true →
    s.sah.drains = [] →
    ∃ t, exec (.rdmaQpClose q qp) s = .next t ∧ tfind t.sah.qps qp = none ∧ (∀ o ∈ t.sah.rdmaOps, o.2.qp ≠ qp) ∧
      answered t q stOk = true) ∧
  (∀ (q : Ask) (base length part n : Nat) (s : State), taken s q 1 = true → part < 64 → length ≠ 0 → length % 65536 = 0 →
    base + length ≤ 2 ^ 62 → tfresh s.sah.regions 4096 1 = some n →
    ∃ t, exec (.rdmaRegionRegister q base length part 3) s = .next t ∧
      tfind t.sah.regions n = some { base := base, length := length, part := part, read := true, write := true } ∧
      answered t q stOk = true) ∧
  (∀ (q : Ask) (rkey : Nat) (r : Region) (s : State), taken s q 1 = true → tfind s.sah.regions rkey = some r →
    tsorted s.sah.regions = true →
    ∃ t, exec (.rdmaRegionRemove q rkey) s = .next t ∧ tfind t.sah.regions rkey = none ∧ answered t q stOk = true) ∧
  (∀ (q : Ask) (pga length qp addr rkey n : Nat) (p : Qp) (s : State), taken s q 1 = true → tfind s.sah.qps qp = some p →
    p.error = false → length ≠ 0 → pga + length ≤ 2 ^ 62 → tfresh s.sah.drains 64 0 = some n → s.sah.rdmaStats.length = 5 →
    ∃ u, exec (.sahDrain q pga length qp addr rkey) s = .next (settle (drainRead n u)) ∧
      tfind u.sah.drains n =
        some { ask := q, pga := pga, length := length, qp := qp, addr := addr, rkey := rkey, part := p.part } ∧
      u.sah.rdmaStats.getD 4 0 = s.sah.rdmaStats.getD 4 0 + 1 ∧ u.mem = s.mem) ∧
  (∀ (qp rkey va : Nat) (data : Bytes) (p : Qp) (r : Region) (s : State), tfind s.sah.qps qp = some p →
    tfind s.sah.regions rkey = some r → rdmaAllowed p r va data.length false = true → rdmaWindow s (r.base + va) = false →
    data.length = 64 → 64 ≤ p.mtu → (r.base + va) % 64 = 0 → pgaCoord (r.base + va) ≠ hereAt s → rdmaPartner s (r.base + va) = none →
    ∃ u, exec (.rdmaWrite qp rkey va data) s = .next (settle u) ∧
      tfind u.sah.rdmaOps s.sah.nextOp = some { qp := qp, va := va, length := 64, left := 1 } ∧
      (∀ g, freeTag s false = some g → ∃ x m, tfind u.mar.tags g = some x ∧ x.isOpen = true ∧ x.dest = pgaCoord (r.base + va) ∧
        x.use = .mem m ∧ m.kind = .engineWrite ∧ m.data = data ∧ m.dpa = pgaDpa (r.base + va)) ∧ u.mem = s.mem) ∧
  (∀ (qp rkey va : Nat) (p : Qp) (r : Region) (s : State), tfind s.sah.qps qp = some p →
    tfind s.sah.regions rkey = some r → rdmaAllowed p r va 64 true = true → rdmaWindow s (r.base + va) = false →
    (r.base + va) % 64 = 0 → pgaCoord (r.base + va) ≠ hereAt s → rdmaPartner s (r.base + va) = none →
    ∃ u, exec (.rdmaRead qp rkey va 64) s = .next (settle u) ∧
      tfind u.sah.rdmaOps s.sah.nextOp = some { qp := qp, va := va, read := true, skip := 0, length := 64, left := 1 } ∧
      (∀ g, freeTag s false = some g → ∃ x m, tfind u.mar.tags g = some x ∧ x.isOpen = true ∧ x.dest = pgaCoord (r.base + va) ∧
        x.use = .mem m ∧ m.kind = .engineRead ∧ m.lines = 1 ∧ m.dpa = pgaDpa (r.base + va)) ∧ u.mem = s.mem) ∧
  (∀ (qp rkey va : Nat) (data : Bytes) (p : Qp) (r : Region) (s : State), tfind s.sah.qps qp = some p →
    tfind s.sah.regions rkey = some r → rdmaAllowed p r va data.length false = false → s.sah.rdmaStats.length = 5 →
    ∃ t, exec (.rdmaWrite qp rkey va data) s = .next t ∧ t.out = .rdma qp 3 va [] :: s.out ∧
      t.sah.rdmaStats.getD 3 0 = s.sah.rdmaStats.getD 3 0 + 1 ∧ t.mem = s.mem) ∧
  (∀ (drain bytes : Nat) (d : Drain) (s : State), tfind s.sah.drains drain = some d → min d.sent (d.acked + bytes) < d.length →
    exec (.drainAcknowledged drain bytes true) s = .next (settle (drainRead drain
      { s with sah := { s.sah with drains := tput s.sah.drains drain { d with acked := min d.sent (d.acked + bytes) } } }))) ∧
  (∀ (drain bytes : Nat) (d : Drain) (s : State), tfind s.sah.drains drain = some d → tsorted s.sah.drains = true →
    d.length ≤ min d.sent (d.acked + bytes) →
    ∃ t, exec (.drainAcknowledged drain bytes true) s = .next t ∧ tfind t.sah.drains drain = none ∧ t.mem = s.mem)

/-- The control loop and the stored values (R533 to R535, R543, R544, R551, R552; log 50, log 82): the readings of a tick are taken; a trip at
120 degrees resets the node; the oldest stored write is kept and answered; alerts are cleared; a host declares what it speaks; the wall clock
is set. -/
def Obligations.ControllerRuns : Prop :=
  (∀ (power : Nat) (temps : List Int) (s : State), bitOf s.sah.coresUp 1 = true →
    ∃ t, exec (.loopTick power temps) s = .next t ∧ t.sah.power = power ∧ t.sah.ticks = s.sah.ticks + 1 ∧
      t.sah.isOver = (decide (rSahPowerCap s < power) || decide (tempOf (rSahTjTarget s) < hottest temps)) ∧
      t.wgh.loopRuns = s.wgh.loopRuns + 1 ∧ t.mem.data = s.mem.data) ∧
  (∀ (temps : List Int) (s : State), (∃ x ∈ temps, (120 : Int) ≤ x) →
    ∃ t, exec (.thermalCompare temps) s = .next t ∧ t.sah.tripped = true ∧ t.rst.thermtripN = false ∧ t.rst.faultN = false ∧
      t.rst.inReset = true ∧ t.mem = State.reset.mem ∧ t.store = s.store ∧ t.stk.map = (keptFlash s).map) ∧
  (∀ (temps : List Int) (s : State), (∃ x ∈ temps, (105 : Int) ≤ x) → (∀ x ∈ temps, x < 120) →
    ∃ t, exec (.thermalCompare temps) s = .next t ∧ bitOf t.cxl.alerts 0 = true ∧ t.mem = s.mem) ∧
  (∀ (w : StoredWrite) (rest : List StoredWrite) (s : State), s.sah.stored = w :: rest → s.fw.waiting = none → w.key = 0x881002 →
    ∃ t, exec .storedWriteComplete s = .next t ∧ t.sah.stored = rest ∧ tfind t.store (storeKey w.key w.sel) = some w.value ∧
      t.regs = s.regs ∧ t.mem = s.mem) ∧
  (∀ (q : Ask) (value : Nat) (s : State), taken s q 1 = true → value ≤ 255 →
    ∃ t, exec (.sahAlertClear q value) s = .next t ∧
      (∀ i, i < 4 → bitOf t.cxl.alerts i = (bitOf s.cxl.alerts i && !bitOf value i)) ∧ answered t q stOk = true ∧ t.mem = s.mem) ∧
  (∀ (q : Ask) (major minor : Nat) (name : Bytes) (s : State), taken s q 1 = true → major ≤ 255 → minor ≤ 255 → name.length ≤ 255 →
    ∃ t y, exec (.fwHostDeclare q major minor name) s = .next t ∧ sessionOf t q.sid = some y ∧
      y.declared = some (major, minor, if compatible s major minor then 0 else 1) ∧
      answered t q (if compatible s major minor then stOk else stIncompatible) = true) ∧
  (∀ (q : Ask) (value : Nat) (s : State), taken s q 1 = true → value < 2 ^ 64 →
    ∃ t, exec (.sahWallTime q value) s = .next t ∧ t.sah.wall = value ∧ t.sah.wallAt = s.now ∧ answered t q stOk = true)

/-- Firmware (R561 to R570, R601; log 91, log 93): a part is staged; an image is verified; a trial is begun by activation, and ended by a commit or
a revert; the minimum version is burnt; Sahtin restarts by command, when a watchdog fires, and when the handoff timer expires, and answers
again at its end; the root of trust restarts on its own; an uncorrectable error in a core's memory stops that core. While the firmware does not run, the
timers of the lending book leave the state and the answers of other nodes are kept in order; its restart goes on with them (R568, R634). -/
def Obligations.FirmwareRuns : Prop :=
  (∀ (q : Ask) (data : Bytes) (s : State), taken s q 1 = true → stagingBusy s = false → data.length ≤ 65535 →
    rFwStageOffset s + data.length ≤ 33554432 → tsorted s.regs = true →
    ∃ t, exec (.fwStageData q data) s = .next t ∧ rFwStageOffset t = rFwStageOffset s + data.length ∧ t.fw.ready = false ∧
      (slotOf t (otherSlot s)).state = 2 ∧
      (tsorted (slotOf s (otherSlot s)).bytes = true → ∀ i, i < data.length →
        tget 0 (slotOf t (otherSlot s)).bytes (rFwStageOffset s + i) = data.getD i 0) ∧ answered t q stOk = true) ∧
  (∀ (q : Ask) (s : State), taken s q 1 = true → imageValid s (slotOf s (otherSlot s)) = true →
    ∃ t, exec (.fwUpdateVerify q) s = .next t ∧ t.fw.ready = true ∧
      slotOf t (otherSlot s) = { slotOf s (otherSlot s) with state := 3 } ∧ answered t q stOk = true) ∧
  (∀ (q : Ask) (s : State), taken s q 1 = true → imageValid s (slotOf s (otherSlot s)) = false →
    ∃ t, exec (.fwUpdateVerify q) s = .next t ∧ t.fw.ready = false ∧
      slotOf t (otherSlot s) = { slotOf s (otherSlot s) with state := 2 } ∧ answered t q stBadValue = true) ∧
  (∀ (q : Ask) (s : State), taken s q 1 = true → s.fw.ready = true → s.fw.waiting = none → s.sah.stored ≠ [] →
    ∃ t, exec (.fwUpdateActivate q) s = .next t ∧ t.fw.waiting = some q ∧ t.sah.stored = s.sah.stored) ∧
  (∀ (q : Ask) (s : State), taken s q 1 = true → s.fw.trial = true →
    ∃ t, exec (.fwUpdateCommit q) s = .next t ∧ t.fw.trial = false ∧ t.fw.active = s.fw.active ∧ t.fuses = s.fuses ∧
      answered t q stOk = true) ∧
  (∀ (q : Ask) (s : State), taken s q 1 = true → s.fw.trial = true →
    ∃ t, exec (.fwUpdateRevert q) s = .next t ∧ t.fw.update = 3 ∧ t.fw.restartDue = s.now + msec 800 ∧ t.sah.up = false ∧
      t.sah.sessions = [] ∧ t.fw.handoff.reason = 4 ∧ t.mem = s.mem) ∧
  (∀ (q : Ask) (s : State), taken s q 1 = true → s.fw.trial = true →
    ∃ t, exec (.fwUpdateCommitSvn q) s = .next t ∧ t.fw.trial = false ∧ t.fuses = max s.fuses (fwSvn s) ∧ answered t q stOk = true) ∧
  (∀ (q : Ask) (s : State), taken s q 1 = true →
    ∃ t, exec (.fwRestart q 1) s = .next t ∧ t.fw.update = 2 ∧ t.fw.restartDue = s.now + msec 150 ∧
      t.fw.handoffDue = some (s.now + msec 520) ∧ t.fw.handoff.reason = 3 ∧ t.sah.up = false ∧ t.sah.sessions = [] ∧
      t.fw.running = s.fw.running ∧ t.mem = s.mem) ∧
  (∀ (core due : Nat) (s : State), tfind s.fw.kickDue core = some due → s.fw.wdSuspended = false → due ≤ s.now → s.fw.trial = false →
    s.fw.firings.length < 7 →
    ∃ t, exec (.watchdog core) s = .next t ∧ t.fw.update = 4 ∧ t.fw.restartDue = s.now + msec 200 ∧ t.fw.stopped = s.fw.stopped ∧
      t.fw.lastCore = core ∧ t.fw.wdRestarts = s.fw.wdRestarts + 1 ∧ bitOf t.cxl.alerts 3 = true ∧ t.sah.up = false ∧ t.mem = s.mem) ∧
  (∀ (due : Nat) (s : State), s.fw.handoffDue = some due → due ≤ s.now →
    ∃ t, exec .handoffTimerExpiry s = .next t ∧ t.fw.update = (if s.fw.trial && s.fw.update == 2 then 3 else 4) ∧
      t.fw.restartDue = s.now + msec 800 ∧ t.fw.handoffDue = none ∧ t.fw.handoff.reason = 4 ∧ t.sah.up = false ∧ t.mem = s.mem) ∧
  (∀ (core : Nat) (s : State), core < 4 → s.fw.wdSuspended = false → bitOf s.sah.coresUp core = true →
    ∃ t, exec (.watchdogKick core) s = .next t ∧ tfind t.fw.kickDue core = some (s.now + msec 100) ∧
      (∀ c ≠ core, tfind t.fw.kickDue c = tfind s.fw.kickDue c) ∧ t.sah = s.sah) ∧
  (∀ s : State, s.fw.update = 2 → s.fw.restartDue ≤ s.now →
    ∃ u, exec .sahtinRestartDone s = .next (goOn u) ∧ u.fw.update = 0 ∧ u.sah.up = true ∧ u.sah.restarts = s.sah.restarts + 1 ∧
      u.sah.coresUp = 0x1F ∧ u.fw.wdSuspended = false ∧ u.fw.running = s.fw.running ∧ u.fw.journal = s.fw.journal ∧ u.mem = s.mem) ∧
  (∀ (entry : Nat) (s : State), firmwareHeld s = true →
    exec (.reserveTimeout entry) s = .next s ∧ exec (.dcAcceptTimeout entry) s = .next s ∧ exec (.dcReleaseTimeout entry) s = .next s ∧
      exec (.revokeRecallResend entry) s = .next s ∧ exec (.revokeComplete entry) s = .next s ∧ exec (.migrateCopyDone entry) s = .next s ∧
      exec (.drainWindowExpiry entry) s = .next s ∧ exec (.grantClearDone entry) s = .next s ∧ exec (.rearmTimeout entry) s = .next s ∧
      exec (.detachWaitExpiry entry) s = .next s) ∧
  (∀ (n st base : Nat) (m : Migrate) (s : State), firmwareHeld s = true → tfind s.pga.migrates n = some m →
    migrateReserved n st base s = journal (.migrateReserve n st base) s ∧ migrateHandedOver n s = journal (.handover n) s ∧
      migrationLost n st s = journal (.lost n st) s ∧ migrateAdvance n s = s) ∧
  (∀ s : State, bitOf s.sah.coresUp 4 = true → s.fw.rotBusy = none →
    ∃ t, exec .rootOfTrustWatchdog s = .next t ∧ t.fw.rotBusy = some (s.now + msec 50) ∧ bitOf t.sah.coresUp 4 = false ∧
      t.sah.sessions = s.sah.sessions ∧ t.mem = s.mem) ∧
  (∀ (due : Nat) (s : State), s.fw.rotBusy = some due → due ≤ s.now →
    ∃ t, exec .rootOfTrustRestartDone s = .next t ∧ t.fw.rotBusy = none ∧ bitOf t.sah.coresUp 4 = true ∧ t.mem = s.mem) ∧
  (∀ (core place : Nat) (s : State), core < 4 → bitOf s.sah.coresUp core = true → 1 ≤ place → place ≤ 3 →
    ∃ t, exec (.sahtinUeTrap core place) s = .next t ∧ core ∈ t.fw.stopCore ∧ bitOf t.sah.coresUp core = false ∧ t.mem = s.mem)

/-- Cold start (R575 to R581, R616 to R621; log 84, log 86, log 87): the steps from a low reset pin to service, in the order the spec gives; a step that
fails ends in the fault state; power and clock. -/
def Obligations.ColdStartRuns : Prop :=
  (∀ (width : Nat) (s : State), 1000 ≤ width →
    ∃ t, exec (.nodeResetNAssert width) s = .next t ∧ t.rst.resetN = false ∧ t.rst.inReset = true ∧ t.rst.nodeState = 0 ∧
      t.rst.ready = false ∧ t.mem = State.reset.mem ∧ t.regs = State.reset.regs ∧ t.store = s.store ∧ t.fuses = s.fuses ∧
      t.sah.sessions = [] ∧ t.pending = s.pending ∧ t.evt.log = [] ∧ t.evt.summary = [] ∧ t.ldg.entries = [] ∧ t.car.frames = [] ∧
      t.sah.wall = 0 ∧ t.tlb = State.reset.tlb ∧ (∀ k, (schedOf t k).throttle = 100)) ∧
  (∀ s : State, s.rst.resetN = false → s.rst.vddAux = true → s.sah.tripped = false → s.rst.pllLocked = true → s.rst.inReset = true →
    (∃ v, chooseImage { s with rst := { s.rst with resetN := true } } = some v) → drivesPins s.jtag.opcode = false →
    ∃ t, exec .nodeResetNRelease s = .next t ∧ t.rst.resetN = true ∧ t.rst.inReset = false ∧ t.rst.step = 2 ∧ t.rst.faultN = true ∧
      t.sah.coldBoots = s.sah.coldBoots + 1) ∧
  (∀ s : State, s.rst.pllLocked = true →
    ∃ t, exec .rootPllLockLoss s = .next t ∧ t.rst.pllLocked = false ∧ t.rst.faultN = false ∧ t.rst.inReset = true ∧
      t.mem = State.reset.mem ∧ t.store = s.store) ∧
  (∀ s : State, s.rst.pllLocked = false →
    exec .rootPllRelock s = .next (startBoot { s with rst := { s.rst with pllLocked := true, faultN := true } })) ∧
  (∀ (stack : Nat) (repaired marks : List (Nat × Nat)) (s : State), s.rst.step = 2 → stack < nStacks s →
    (∀ k, k < nStacks s → k ≠ stack → (stackOf s k).trained = true) →
    ∃ t, exec (.coldTrainingDone stack true repaired marks) s = .next t ∧ (stackOf t stack).trained = true ∧ t.rst.step = 3 ∧
      t.rst.nodeState = s.rst.nodeState) ∧
  (∀ (stack : Nat) (repaired marks : List (Nat × Nat)) (s : State), s.rst.step = 2 → stack < nStacks s →
    ∃ t, exec (.coldTrainingDone stack false repaired marks) s = .next t ∧ t.rst.nodeState = 4 ∧ t.rst.faultN = false ∧ t.rst.ready = false) ∧
  (∀ (repaired : List Nat) (s : State), s.rst.step = 3 → s.rst.nodeState = 0 → s.car.tiered = false →
    tget 1 s.store 0x380001 = 0 →
    ∃ t, exec (.memoryBistDone repaired [] [] 0) s = .next t ∧ t.rst.checker = 0 ∧ t.rst.nodeState = 1 ∧ t.rst.ready = true ∧
      t.sah.up = true) ∧
  (∀ (repaired failed : List Nat) (marks : List (Nat × Nat)) (checker : Nat) (s : State), s.rst.step = 3 → s.rst.nodeState = 0 → checker ≠ 0 →
    ∃ t, exec (.memoryBistDone repaired marks failed checker) s = .next t ∧ t.rst.checker = checker ∧ t.rst.nodeState = 4 ∧
      t.rst.faultN = false ∧ t.rst.ready = false) ∧
  (∀ (found : List (Nat × TargetPage)) (s : State), s.rst.step = 5 → s.rst.nodeState = 0 → s.car.tiered = true →
    s.stk.formatted = false → s.pga.book = [] → (findTargets found s).stk.targets ≠ [] →
    ∃ t, exec (.mapLoadDone found [] []) s = .next t ∧ t.rst.nodeState = 1 ∧ t.rst.ready = true ∧ t.rst.step = 8 ∧ t.stk.formatted = true ∧
      t.pga.book = [] ∧ t.mem = s.mem) ∧
  (∀ (found : List (Nat × TargetPage)) (lost torn : List Nat) (s : State), s.rst.step = 5 → s.rst.nodeState = 0 → s.car.tiered = true →
    (findTargets found s).stk.targets = [] →
    ∃ t, exec (.mapLoadDone found lost torn) s = .next t ∧ t.rst.nodeState = 4 ∧ t.rst.ready = false ∧ t.sah.up = true) ∧
  (∀ s : State, s.rst.holdEnd ≤ s.now →
    exec .startUpHoldEnd s = .next { s with rst := { s.rst with holdEnd := 0 } }) ∧
  (∀ s : State, ∃ t, exec .vddAuxFall s = .next t ∧ t.rst.vddAux = false ∧ t.rst.resetN = false ∧ t.rst.inReset = true ∧
      t.jtag = State.reset.jtag ∧ t.store = s.store ∧ t.fuses = s.fuses ∧ t.mem = State.reset.mem) ∧
  (∀ s : State, s.rst.vddAux = false →
    ∃ t, exec .vddAuxRise s = .next t ∧ t.rst.vddAux = true ∧ t.rst.resetN = false ∧ t.rst.faultN = true ∧ t.rst.ready = false ∧
      t.mem = s.mem)

/-- Node recovery and slice reset (R574, R582 to R586, R622; log 71, log 88): what hangs is counted and begins the recovery of a node in service; the end
of a recovery is service again; a hung quad resets its slice and its chunks are issued again; the window of corrected
errors ends and its counts start again (R595). -/
def Obligations.RecoveryRuns : Prop :=
  (∀ (width : Nat) (s : State), s.rst.resetN = true → s.rst.recoverN = true → 1000 ≤ width → (s.rst.nodeState = 1 ∨ s.rst.nodeState = 3) →
    (∀ f ∈ s.car.frames, f.2.state ≠ 1) →
    ∃ t, exec (.nodeRecoverN true width) s = .next t ∧ t.rst.nodeState = 2 ∧ t.rst.trigger = 9 ∧ t.rst.lastRecovery = s.now ∧
      t.rst.recovering = true ∧ t.sah.up = false ∧ t.sah.sessions = [] ∧ t.mem.data = s.mem.data) ∧
  (∀ (quad : Nat) (s : State), quad < nQuads s →
    (∀ c ∈ s.cle.chunks, c.2.quad ≠ quad) → tsorted s.tlb.near = true →
    ∃ u, exec (.quadHang quad) s = .next (settle u) ∧ u.rst.sliceResets = s.rst.sliceResets + 1 ∧ tfind u.tlb.near quad = none ∧
      tfind u.cle.inReset quad = some (s.now + usec 50) ∧
      u.rst.detectors = bump s.rst.detectors 0 1 ∧ u.mem = s.mem) ∧
  (∀ (stack pc : Nat) (s : State), stack < nStacks s → pc < 64 → s.rst.nodeState = 1 → (stackOf s stack).changing = none →
    inSelfRefresh s (stackOf s stack) = false → pc ∉ pausedNow s (stackOf s stack) → (∀ f ∈ s.car.frames, f.2.state ≠ 1) →
    ∃ t, exec (.stackControllerHang stack pc) s = .next t ∧ t.rst.nodeState = 2 ∧ t.rst.trigger = 1 ∧
      t.rst.detectors = bump s.rst.detectors 1 1 ∧ t.mem.data = s.mem.data) ∧
  (∀ (stop : Nat) (s : State), stop < 2 ^ 16 → s.rst.nodeState = 1 → (∀ f ∈ s.car.frames, f.2.state ≠ 1) →
    ∃ t, exec (.ringStopHang stop) s = .next t ∧ t.rst.nodeState = 2 ∧ t.rst.trigger = 2 ∧ t.rst.detectors = bump s.rst.detectors 2 1 ∧
      t.mem.data = s.mem.data) ∧
  (∀ (untrained programmed : List Nat) (s : State), s.rst.recovering = true → (reloadCritical s).1 = none → s.ras.nodeEvents = [] →
    s.lnk.ports = [] → s.pga.grants = [] →
    s.pga.revokes = [] → s.pga.migrates = [] → s.win.out = [] → s.cxl.ports = [] →
    ∃ u, exec (.nodeRecoveryEnd true untrained programmed) s = .next (afterFrames u) ∧ u.rst.nodeState = 1 ∧ u.rst.ready = true ∧ u.rst.recovering = false ∧
      u.sah.up = true ∧ u.sah.recoveries = s.sah.recoveries + 1 ∧ u.pga = s.pga ∧ u.mem.data = s.mem.data) ∧
  (∀ (trained : Bool) (untrained programmed : List Nat) (s : State), s.rst.recovering = true →
    (trained = false ∨ (reloadCritical s).1 ≠ none) →
    ∃ t, exec (.nodeRecoveryEnd trained untrained programmed) s = .next t ∧ t.rst.nodeState = 4 ∧ t.rst.faultN = false ∧
      t.rst.ready = false ∧ t.rst.recovering = false ∧ linesKept s t) ∧
  (∀ s : State, s.ras.windowStart + msec (1000 * rRasCeWindow s) ≤ s.now →
    exec .ceWindowEnd s = .next { s with ras := { s.ras with window := [], windowStart := s.now } })

/-- The warden's tests (R589, R590, R592): recovery, cold reset and slice reset by command; a self test of a drained stack clears it and reports;
a port is held out of service and given back; margins and channels are tested. -/
def Obligations.TestsRun : Prop :=
  (∀ (q : Ask) (s : State), taken s q 1 = true → s.rst.nodeState = 1 → (∀ f ∈ s.car.frames, f.2.state ≠ 1) →
    ∃ t, exec (.tstNodeRecover q 1) s = .next t ∧ t.rst.nodeState = 2 ∧ t.rst.trigger = 8 ∧ t.mem.data = s.mem.data) ∧
  (∀ (q : Ask) (s : State), taken s q 1 = true → s.rst.resetN = true →
    ∃ u, exec (.tstColdReset q 1) s = .next (startBoot u) ∧ u.rst.inReset = true ∧ u.mem = State.reset.mem ∧ u.store = s.store ∧
      answered u q stOk = true) ∧
  (∀ (q : Ask) (quad : Nat) (s : State), taken s q 1 = true → quad < nQuads s →
    ∃ u, exec (.tstSliceReset q quad) s = .next (finish q 0xA00100 stOk [] (sliceReset quad u)) ∧ u.mem = s.mem ∧ u.cle = s.cle) ∧
  (∀ (q : Ask) (stack : Nat) (s : State), taken s q 1 = true → stack < nStacks s → isDrained s (stackOf s stack) = true →
    ∃ t, exec (.tstStackBist q stack 1 0) s = .next t ∧ t.mem = (zeroStack stack s).mem ∧ answered t q stOk = true) ∧
  (∀ (q : Ask) (stack : Nat) (s : State), taken s q 1 = true → stack < nStacks s → isDrained s (stackOf s stack) = false →
    ∃ t, exec (.tstStackBist q stack 1 0) s = .next t ∧ t.mem = s.mem ∧ answered t q stNotDrained = true) ∧
  (∀ (q : Ask) (quad : Nat) (passed : Bool) (s : State), taken s q 1 = true → quad < nQuads s → isDrained s (stackOf s (quad / 64)) = true →
    ∃ t, exec (.tstQuadBist q quad passed) s = .next t ∧ t.mem = s.mem ∧ answered t q stOk = true) ∧
  (∀ (q : Ask) (port : Nat) (s : State), taken s q 1 = true → port < 24 → portExists s port = true → isSplit s port = false →
    (∀ ld, ld < 16 → ldBound s port ld = false) →
    ∃ t, exec (.tstCxlHold q port) s = .next t ∧ (portOf t port).state = 0 ∧ (portOf t port).held = true ∧ answered t q stOk = true) ∧
  (∀ (q : Ask) (port : Nat) (s : State), taken s q 1 = true → port < 24 → portExists s port = true → isSplit s port = false →
    ∃ t, exec (.tstCxlHoldRelease q port) s = .next t ∧ (portOf t port).held = false ∧
      ((portOf s port).state = 0 → (portOf s port).perst = false → s.rst.nodeState = 1 → (portOf t port).state = 1) ∧
      answered t q stOk = true) ∧
  (∀ (q : Ask) (port failures : Nat) (s : State), taken s q 1 = true → port < 24 → portExists s port = true →
    (portOf s port).held = true →
    ∃ t, exec (.tstCxlMargin q port 1 failures) s = .next t ∧ t.cxl = s.cxl ∧ t.mem = s.mem ∧ answered t q stOk = true) ∧
  (∀ (q : Ask) (port failures : Nat) (s : State), taken s q 1 = true → port < 7 → bitOf (rMarPortEnable s) port = false →
    ∃ t, exec (.tstLinkMargin q port 1 failures) s = .next t ∧ t.lnk = s.lnk ∧ t.mem = s.mem ∧ answered t q stOk = true) ∧
  (∀ (q : Ask) (channel failures : Nat) (s : State), taken s q 1 = true → channel < 64 →
    (s.car.tiered = false ∨ tget 0 s.stk.chanState channel ≠ 1) →
    ∃ t, exec (.tstNandChannel q channel 1 failures) s = .next t ∧ t.stk = s.stk ∧ t.mem = s.mem ∧ answered t q stOk = true)

/-- Boundary scan (R627 to R632): in the compliance condition each instruction scans its register and drives the pins as its rule says;
outside it EXTEST, CLAMP, HIGHZ and the pulse instructions act as BYPASS. -/
def Obligations.BoundaryScanRuns : Prop :=
  (∀ (shift sampled : Nat) (s : State), s.rst.vddAux = true → s.rst.resetN = false → shift < 2 ^ boundaryLength s →
    sampled < 2 ^ boundaryLength s →
    ∃ t, exec (.extest shift sampled) s = .next t ∧ t.out = .tdo sampled :: .tdo 1 :: s.out ∧ t.jtag.opcode = 0 ∧
      t.jtag.driven = some shift ∧ t.jtag.boundary = shift ∧ t.mem = s.mem ∧ t.rst = s.rst) ∧
  (∀ (shift sampled : Nat) (s : State), s.rst.vddAux = true → shift < 2 ^ boundaryLength s → sampled < 2 ^ boundaryLength s →
    ∃ t, exec (.samplePreload shift sampled) s = .next t ∧ t.out = .tdo sampled :: .tdo 1 :: s.out ∧ t.jtag.opcode = 1 ∧
      t.jtag.driven = none ∧ t.jtag.latched = shift ∧ t.mem = s.mem ∧ t.rst = s.rst) ∧
  (∀ s : State, s.rst.vddAux = true →
    ∃ t, exec .idcode s = .next t ∧ t.out = .tdo 0x14800987 :: .tdo 1 :: s.out ∧ t.jtag.opcode = 2 ∧ t.jtag.driven = none ∧
      t.mem = s.mem ∧ t.rst = s.rst) ∧
  (∀ s : State, s.rst.vddAux = true →
    ∃ t, exec .usercode s = .next t ∧ t.out = .tdo (s.asm.hbmStacks + 256 * s.asm.dies) :: .tdo 1 :: s.out ∧ t.jtag.opcode = 3 ∧
      t.jtag.driven = none ∧ t.mem = s.mem ∧ t.rst = s.rst) ∧
  (∀ s : State, s.rst.vddAux = true → s.rst.resetN = false →
    ∃ t, exec .clamp s = .next t ∧ t.jtag.driven = some s.jtag.latched ∧ t.jtag.opcode = 4 ∧ t.jtag.latched = s.jtag.latched ∧
      t.jtag.highz = false ∧ t.mem = s.mem ∧ t.rst = s.rst) ∧
  (∀ s : State, s.rst.vddAux = true → s.rst.resetN = false →
    ∃ t, exec .highz s = .next t ∧ t.jtag.driven = none ∧ t.jtag.highz = true ∧ t.jtag.opcode = 5 ∧ t.mem = s.mem ∧ t.rst = s.rst) ∧
  (∀ (shift idles : Nat) (s : State), s.rst.vddAux = true → s.rst.resetN = false → shift < 2 ^ boundaryLength s →
    ∃ t, exec (.extestPulse shift idles) s = .next t ∧ t.jtag.driven = some shift ∧ t.jtag.pulses = s.jtag.pulses + idles ∧
      t.jtag.opcode = 6 ∧ t.mem = s.mem ∧ t.rst = s.rst) ∧
  (∀ (shift ticks : Nat) (s : State), s.rst.vddAux = true → s.rst.resetN = false → shift < 2 ^ boundaryLength s →
    ∃ t, exec (.extestTrain shift ticks) s = .next t ∧ t.jtag.driven = some shift ∧ t.jtag.toggles = s.jtag.toggles + ticks ∧
      t.jtag.opcode = 7 ∧ t.mem = s.mem ∧ t.rst = s.rst) ∧
  (∀ (opcode : Nat) (s : State), s.rst.vddAux = true → 8 ≤ opcode → opcode < 256 →
    ∃ t, exec (.bypass opcode) s = .next t ∧ t.jtag.opcode = 0xFF ∧ t.jtag.driven = none ∧ t.jtag.highz = false ∧
      t.out = .tdo 0 :: .tdo 1 :: s.out ∧ t.mem = s.mem ∧ t.rst = s.rst) ∧
  (∀ (shift sampled : Nat) (s : State), s.rst.vddAux = true → s.rst.resetN = true →
    ∃ t, exec (.extest shift sampled) s = .next t ∧ t.jtag.opcode = 0xFF ∧ t.jtag.driven = none ∧ t.jtag.boundary = s.jtag.boundary)

namespace Sys2Proof.Claims

/-- The commands that may change a byte of DRAM: accesses at a home, what lets one that waited go on, clears, fills,
Sweeps, cold resets, and the end of a restart of Sahtin, which goes on with the lending book's commands. -/
def mayStoreBytes : Instr → Bool
  | .rootPllLockLoss | .pgaGrant .. | .reserveTimeout .. | .grantClearDone .. | .dcAcceptTimeout .. | .pgaRevokeForced .. |
    .revokeRecallResend .. | .revokeComplete .. | .pgaMigrate .. | .migrateCopyDone .. | .pgaRebind .. | .drainWindowExpiry .. |
    .reserve .. | .unreference .. | .rebindNotice .. | .windowBind .. | .migrateReserve .. | .migrateRelease .. | .revokeRecall .. |
    .perstAssert .. | .cxlPortReset .. | .cxlLinkDown .. | .purgeResend .. | .purgeWaitTimeout .. | .memRd .. | .memRdData .. | .memInv
    .. | .memInvNt .. | .memSpecRd .. | .memClnEvct .. | .memWr .. | .memWrPtl .. | .birsp .. | .injectPoison .. | .clearPoison .. |
    .addDynamicCapacityResponse .. | .releaseDynamicCapacity .. | .sqTail .. | .cqHead .. | .recallTimeout .. | .proxyRecallTimeout .. |
    .recallBackstopTimeout .. | .ackTimeout .. | .ldgChannelReadmit .. | .autoReadmit .. | .sliceStop .. | .ldgClearPoison .. |
    .ledgerScanDone .. | .fillArrives .. | .writeBackDone .. | .carCommit .. | .streamStart .. | .streamRewind .. | .segmentListFetch ..
    | .stageRetry .. | .levelChangeDone .. | .hbmStackRelease .. | .eraseDone .. | .journalRecordDurable .. | .targetFailure .. |
    .stkFormat .. | .atsEnable .. | .translationCompletion .. | .xlateTimeout .. | .engineInvalidateAck .. | .pageGroupResponse .. | .faultTimeout .. |
    .portDownFaultTimeout .. | .priEnable .. | .bind .. | .unbind .. | .resume .. | .contextReset .. | .unbindComplete .. |
    .contextResetComplete .. | .descriptorFetch .. | .chunkIssue .. | .leaveRequest .. | .chunkResult .. | .chunkError .. |
    .chunkTimeout .. | .lostTimeout .. | .jobComplete .. | .chunkWrite .. | .atomic .. | .append .. | .commit .. | .winGrant .. |
    .winBind .. | .contrib .. | .contribTimeout .. | .release .. | .winRearm .. | .generation .. | .rearmTimeout .. | .packetRoute .. |
    .tagAllocate | .read .. | .write .. | .cleanEvict .. | .stage .. | .recallOp .. | .recallRsp .. | .data .. | .done .. | .ack .. |
    .count .. | .twnDetach .. | .heartbeat .. | .partnerTimeout | .stamp .. | .bodyWaitTimeout .. | .staleReport .. | .resilverUnit |
    .resilverMeta .. | .secondTimeout .. | .compareWindowExpiry .. | .partitionSweep .. | .rekeyWrite .. | .sweepStepDone .. | .sahDrain
    .. | .rdmaWrite .. | .rdmaRead .. | .drainAcknowledged .. | .thermalCompare .. | .nodeResetNAssert .. | .mapLoadDone .. | .nodeRecoverN
    .. | .nodeRecoveryEnd .. | .tstNodeRecover .. | .tstColdReset .. | .tstSliceReset .. | .tstStackBist .. | .tstCxlHold .. | .quadHang
    .. | .stackControllerHang .. | .ringStopHang .. | .requestTimeout .. | .vddAuxFall | .detachWaitExpiry ..
    | .stageHoldExpiry .. | .refreshDue .. | .retrainingDone .. | .sahtinRestartDone => true
  | _ => false

/-- The commands after which the node may be in cold reset. -/
def isCold : Instr → Bool
  | .rootPllLockLoss | .thermalCompare .. | .nodeResetNAssert .. | .tstColdReset .. | .vddAuxFall => true
  | _ => false

/-- The commands that may change a value of the dictionary that software writes. -/
def setsRegister : Instr → Bool
  | .carModeNext .. | .irqGlobalDisable .. | .marNodeCoord .. | .marRingSize .. | .marPortEnable .. | .fwStageData .. | .nasidomWrite ..
    | .memoryBistDone .. => true
  | _ => false

/-- The test access port. -/
def isScan : Instr → Bool
  | .extest .. | .samplePreload .. | .idcode | .usercode | .clamp | .highz | .extestPulse .. | .extestTrain .. | .bypass .. => true
  | _ => false

/-- SPDM, TDISP and IDE commands of a logical device. -/
def isAdmission : Instr → Bool
  | .getVersion .. | .getCapabilities .. | .negotiateAlgorithms .. | .getDigests .. | .getCertificate .. | .challenge .. |
    .getMeasurements .. | .keyExchange .. | .finish .. | .keyUpdate .. | .spdmHeartbeat .. | .endSession .. | .chunkSend .. | .chunkGet
    .. | .query .. | .keyProg .. | .kSetGo .. | .kSetStop .. | .getTdispVersion .. | .getTdispCapabilities .. | .lockInterfaceRequest ..
    | .getDeviceInterfaceReport .. | .getDeviceInterfaceState .. | .startInterfaceRequest .. | .stopInterfaceRequest .. |
    .lockedRegisterWrite .. => true
  | _ => false

/-- Nasidom commands that change nothing but sessions and what a session owns. -/
def isSession : Instr → Bool
  | .dtlsHandshake .. | .sessionIdleTimeout .. | .nasidomRead .. | .subscribeAdd .. | .subscribeRemove .. | .subscribeAcknowledge .. |
    .summary .. | .noticeResend .. | .rdmaQpOpen .. | .rdmaQpClose .. | .rdmaRegionRegister .. | .rdmaRegionRemove .. | .fwHostDeclare
    .. | .lckAttest .. | .sahWallTime .. => true
  | _ => false

/-- Firmware commands and the root of trust. -/
def isFirmware : Instr → Bool
  | .fwStageData .. | .fwUpdateVerify .. | .fwUpdateActivate .. | .fwUpdateCommit .. | .fwUpdateRevert .. | .fwUpdateCommitSvn .. |
    .fwRestart .. | .watchdogKick .. | .rootOfTrustWatchdog | .rootOfTrustRestartDone | .sahtinUeTrap .. => true
  | _ => false

/-- Link, tag, scheduler and twin stream commands that move or drop packets. -/
def isLink : Instr → Bool
  | .accept .. | .acceptancePass | .ackReport .. | .chunkWriteDiscard .. | .controlFlit .. | .dataFlit .. | .deadTime .. | .fault .. |
    .faultNoticeRepeat | .heartbeatSend | .lnkReinjectExpired | .lnkRetryInterval .. | .nakResend .. | .offer .. | .offerResend .. |
    .patch .. | .phyTrained .. | .rejoinHistory .. | .replayTimeout .. | .spillSend | .tagHoldExpiry .. | .tagQuarantineEnd .. |
    .trainingFails .. | .transitAck .. | .transitReinject | .schedulerSelect .. | .refill | .wheelSlot .. | .gateEntry .. |
    .safeThrottle .. => true
  | _ => false

/-- Storekeeper commands that touch flash records only. -/
def isFlash : Instr → Bool
  | .checkpointRoundStart | .checkpointRoundComplete | .garbageCollection | .operationResume .. | .programDone .. | .dirtyHigh |
    .flashPatrol .. | .relocationDone .. => true
  | _ => false

end Sys2Proof.Claims

/-- What every command leaves alone: the queue of commands and the assembly always; node time but at a cold reset; the fuses but at
FW_UPDATE 5 (R565), where they never fall; the configuration store but when a stored write completes (R543), routes are reset or a Sweep
deletes a tenant's credential (R479); the test
access port but at its own instructions, at the end of a reset and at a loss of VDD_AUX (R632); the dictionary's written values but at the
commands that write them. -/
def Obligations.WholeMachineFrame : Prop :=
  ∀ (c : Instr) (s t : State), exec c s = .next t →
    t.pending = s.pending ∧ t.asm = s.asm ∧ (isCold c = false → t.now = s.now) ∧ s.fuses ≤ t.fuses ∧
    ((∀ q, c ≠ .fwUpdateCommitSvn q) → t.fuses = s.fuses) ∧
    (c ≠ .storedWriteComplete → ((∀ q p, c ≠ .partitionSweep q p) → t.storeBlobs = s.storeBlobs) ∧
      ((∀ q v, c ≠ .marRouteReset q v) → t.store = s.store)) ∧
    (isScan c = false → c ≠ .nodeResetNRelease → c ≠ .vddAuxFall → t.jtag = s.jtag) ∧
    (setsRegister c = false → isCold c = false → t.regs = s.regs)

/-- Every byte of DRAM is unchanged by a command that is not one of those that may store. -/
def Obligations.MemoryBytesFrame : Prop :=
  ∀ (c : Instr) (s t : State), mayStoreBytes c = false → exec c s = .next t → t.mem.data = s.mem.data

/-- The frames of boundary scan (R627) and of SPDM, TDISP and IDE commands: only the test access port and its output change; only the security
state of the logical device, the partition's counts, the log and what is sent may change, and no key epoch, seed or credential. -/
def Obligations.AttachmentFrame : Prop :=
  (∀ (c : Instr) (s t : State), isScan c = true → exec c s = .next t → t = { s with jtag := t.jtag, out := t.out }) ∧
  (∀ (c : Instr) (s t : State), isAdmission c = true → exec c s = .next t →
    t = { s with lck := t.lck, evt := t.evt, out := t.out, fresh := t.fresh } ∧ t.lck.table = s.lck.table ∧
    t.lck.tenants = s.lck.tenants ∧ ∀ p, (partOf t p).current = (partOf s p).current ∧ (partOf t p).previous = (partOf s p).previous ∧
      (partOf t p).seedCur = (partOf s p).seedCur ∧ (partOf t p).seedPrev = (partOf s p).seedPrev)

/-- The frames of session commands and of firmware commands: the datapath, memory, the lending book and the fabric are unchanged. -/
def Obligations.ManagementFrame : Prop :=
  (∀ (c : Instr) (s t : State), isSession c = true → exec c s = .next t →
    t = { s with sah := t.sah, out := t.out, fresh := t.fresh }) ∧
  (∀ (c : Instr) (s t : State), isFirmware c = true → exec c s = .next t →
    t = { s with sah := t.sah, fw := t.fw, rst := t.rst, ras := t.ras, evt := t.evt, regs := t.regs, fuses := t.fuses, out := t.out })

/-- The frames of the link layer, which may write the critical word of the book's generation (R55) and no line of memory, let a purge that
was due leave (R111) and return credits of the ring (R126), and of the Storekeeper's own records and the reads of a swap's VERIFY, which
count what they read of DRAM and change no line of it. -/
def Obligations.EngineFrame : Prop :=
  (∀ (c : Instr) (s t : State), isLink c = true → exec c s = .next t →
    t = { s with mem := t.mem, mar := t.mar, lnk := t.lnk, wgh := t.wgh, twn := t.twn, pga := t.pga, evt := t.evt, out := t.out
                 cxl := { s.cxl with purgeDue := t.cxl.purgeDue }, ring := t.ring } ∧
      linesKept s t) ∧
  (∀ (c : Instr) (s t : State), isFlash c = true → exec c s = .next t →
    t = { s with mem := t.mem, stk := t.stk, car := t.car, lck := t.lck, evt := t.evt, ras := t.ras, out := t.out
                 twn := { s.twn with verifying := t.twn.verifying } } ∧ linesKept s t)

namespace Sys2Proof.Claims

/-- The priority of an internal source (R494): 0 for source 0, else the low four bits of its configuration word, whose default is 15. -/
def priority (s : State) (core src : Nat) : Nat := if src = 0 then 0 else tget 15 (sicOf s core).config src % 16

/-- Whether an internal source may interrupt a core (R494, R495): pending, enabled, targets it, and of a priority below the top of its
stack. -/
def mayTake (s : State) (core src : Nat) : Prop :=
  src ∈ (sicOf s core).pending ∧
  (src = 0 ∨ (tget 15 (sicOf s core).config src / 64 % 2 = 1 ∧ tget 15 (sicOf s core).config src / 16 % 4 = core)) ∧
  ((sicOf s core).stack = [] ∨ ∃ top rest, (sicOf s core).stack = top :: rest ∧ priority s core src < top.2)

/-- Every core's stack of claimed sources is strictly ordered by priority, the most urgent on top, and every priority is below 16. -/
def stacksOrdered (s : State) : Prop :=
  ∀ core, (sicOf s core).stack.Pairwise (fun a b => a.2 < b.2) ∧ ∀ e ∈ (sicOf s core).stack, e.2 < 16

/-- A partition's current key is held: it has an epoch and a seed, and the epoch is not lost (R459, R597). -/
def keyHeld (s : State) (p : Nat) : Prop :=
  (partOf s p).current ≠ 0 ∧ (partOf s p).seedCur ≠ 0 ∧ (p, (partOf s p).current) ∉ s.ras.lostKeys

end Sys2Proof.Claims

/-- R14: an index in the unassigned and reserved ranges has no entry, and a READ or a WRITE of an index without an entry is refused with the
status ABSENT and changes no value. -/
def Obligations.AbsentIndexRefused : Prop :=
  (∀ index sub : Nat, 0xB000 ≤ index → index < 65536 → dictFind index sub = none) ∧
  (∀ (q : Ask) (index sub offset role : Nat) (s : State), taken s q role = true → 1 ≤ role → role ≤ 3 → dictFind index sub = none →
    ∃ t, exec (.nasidomRead q index sub offset) s = .next t ∧ answered t q stAbsent = true ∧
      t = { s with sah := t.sah, out := t.out }) ∧
  (∀ (q : Ask) (index sub offset role : Nat) (last : Bool) (part : Bytes) (s : State), taken s q role = true → 1 ≤ role → role ≤ 3 →
    dictFind index sub = none →
    ∃ t, exec (.nasidomWrite q index sub offset last part) s = .next t ∧ answered t q stAbsent = true ∧
      t = { s with sah := t.sah, out := t.out } ∧ t.sah.stored = s.sah.stored)

/-- R629: IDCODE reads 0x14800987, whose fields are version 1, part number 0x4800, manufacturer 0x4C3 and 1; USERCODE holds the stack count in
bits 7:0, the die count in bits 15:8 and 0 above. -/
def Obligations.IdentityCodes : Prop :=
  ∀ s : State, s.rst.vddAux = true → Inv s →
    (∃ t v, exec .idcode s = .next t ∧ t.out = .tdo v :: .tdo 1 :: s.out ∧ v = 0x14800987 ∧ bits v 28 4 = 1 ∧ bits v 12 16 = 0x4800 ∧
      bits v 1 11 = 0x4C3 ∧ bits v 0 1 = 1) ∧
    (∃ t v, exec .usercode s = .next t ∧ t.out = .tdo v :: .tdo 1 :: s.out ∧ bits v 0 8 = s.asm.hbmStacks ∧ bits v 8 8 = s.asm.dies ∧
      bits v 16 16 = 0 ∧ v < 2 ^ 32)

/-- R496: an end of interrupt pops the stack if its top names the source; else the stack stays, the source and the top entry are recorded, and
source 0 is asserted; a mismatch with source 0 on top halts the core, until the watchdog fires. -/
def Obligations.EndOfInterrupt : Prop :=
  (∀ (core source p : Nat) (rest : List (Nat × Nat)) (s : State), core < 4 → source < 256 → (sicOf s core).stack = (source, p) :: rest →
    exec (.eoi core source) s = .next (setSic core { sicOf s core with stack := rest } s)) ∧
  (∀ (core source : Nat) (s : State), core < 4 → source < 256 → (sicOf s core).stack = [] →
    ∃ t, exec (.eoi core source) s = .next t ∧ (sicOf t core).stack = [] ∧ (sicOf t core).faultEoi = source ∧
      0 ∈ (sicOf t core).pending ∧ (sicOf t core).halted = (sicOf s core).halted) ∧
  (∀ (core source top p : Nat) (rest : List (Nat × Nat)) (s : State), core < 4 → source < 256 → top ≠ source →
    (sicOf s core).stack = (top, p) :: rest →
    ∃ t, exec (.eoi core source) s = .next t ∧ (sicOf t core).stack = (top, p) :: rest ∧ (sicOf t core).faultEoi = source ∧
      (sicOf t core).faultTop = top ∧ 0 ∈ (sicOf t core).pending ∧
      (sicOf t core).halted = ((sicOf s core).halted || decide (top = 0))) ∧
  (∀ (core due : Nat) (s : State), tfind s.fw.kickDue core = some due → s.fw.wdSuspended = false → due ≤ s.now →
    ∃ t, exec (.watchdog core) s = .next t ∧ ∀ c, (sicOf t c).halted = false)

/-- R495: a read of CLAIM returns the source of the highest priority that may interrupt the core, the lowest number at a tie, and pushes it
with its priority; where no source may interrupt, it returns 0x100 and pushes nothing. -/
def Obligations.ClaimTakesHighest : Prop :=
  (∀ (core : Nat) (s : State), core < 4 → (∃ src, mayTake s core src) →
    ∃ src t, mayTake s core src ∧
      (∀ o, mayTake s core o → priority s core src < priority s core o ∨ (priority s core src = priority s core o ∧ src ≤ o)) ∧
      exec (.claim core) s = .next t ∧ t.out = .claim core src :: s.out ∧
      (sicOf t core).stack = (src, priority s core src) :: (sicOf s core).stack) ∧
  (∀ (core : Nat) (s : State), core < 4 → (∀ src, ¬ mayTake s core src) →
    ∃ t, exec (.claim core) s = .next t ∧ t.out = .claim core 0x100 :: s.out ∧ t.evt = s.evt)

/-- Only a higher priority preempts, so a core's stack never holds more than 16 entries: the order of the stacks holds after reset, every
step keeps it, and it bounds them (the text after R495). -/
def Obligations.ClaimStacksBounded : Prop :=
  stacksOrdered State.reset ∧ (∀ s t : State, stacksOrdered s → step s = .next t → stacksOrdered t) ∧
  (∀ (s : State) (core : Nat), stacksOrdered s → (sicOf s core).stack.length ≤ 16)

/-- R622: NODE_RECOVER_N low for 1 µs starts a node recovery of a node in service; a shorter pulse is ignored; the pin must return high before
it acts again; it is ignored while NODE_RESET_N is low; NODE_RESET_N low for 1 µs starts a cold reset, a shorter pulse does not, and whatever
else is commanded the reset holds until the pin rises. -/
def Obligations.RecoverPin : Prop :=
  (∀ (width : Nat) (s : State), s.rst.resetN = true → s.rst.recoverN = true → 1000 ≤ width → s.rst.nodeState = 1 →
    ∃ t, exec (.nodeRecoverN true width) s = .next t ∧ t.rst.nodeState = 2 ∧ t.rst.recovering = true ∧ t.rst.recoverN = false) ∧
  (∀ (width : Nat) (s : State), width < 1000 → exec (.nodeRecoverN true width) s = .next s) ∧
  (∀ (width : Nat) (s : State), s.rst.recoverN = false → exec (.nodeRecoverN true width) s = .next s) ∧
  (∀ (width : Nat) (s : State), exec (.nodeRecoverN false width) s = .next { s with rst := { s.rst with recoverN := true } }) ∧
  (∀ (width : Nat) (s : State), s.rst.resetN = false → exec (.nodeRecoverN true width) s = .next s) ∧
  (∀ (width : Nat) (s : State), 1000 ≤ width →
    ∃ t, exec (.nodeResetNAssert width) s = .next t ∧ t.rst.inReset = true ∧ t.rst.resetN = false) ∧
  (∀ (width : Nat) (s : State), width < 1000 → exec (.nodeResetNAssert width) s = .next s) ∧
  (∀ (c : Instr) (s t : State), s.rst.inReset = true → s.rst.resetN = false → c ≠ .nodeResetNRelease → exec c s = .next t →
    t.rst.inReset = true ∧ t.rst.resetN = false)

/-- R632: when NODE_RESET_N rises while an instruction that drives pins is loaded (EXTEST, CLAMP, HIGHZ, EXTEST_PULSE or EXTEST_TRAIN), the
instruction register changes to BYPASS, the pins return to their reset state and the cold boot begins. -/
def Obligations.ScanEndsAtReset : Prop :=
  (∀ opcode : Nat, drivesPins opcode = true ↔ opcode ∈ [0x00, 0x04, 0x05, 0x06, 0x07]) ∧
  (∀ s : State, s.rst.resetN = false → s.rst.vddAux = true → s.jtag.opcode ∈ [0x00, 0x04, 0x05, 0x06, 0x07] →
    ∃ t, exec .nodeResetNRelease s = .next t ∧ t.jtag = { s.jtag with opcode := 0xFF, driven := none, highz := false } ∧
      t.rst.resetN = true ∧
      (s.sah.tripped = false → s.rst.pllLocked = true → s.rst.inReset = true → (chooseImage s).isSome = true →
        t.rst.step = 2 ∧ t.rst.inReset = false))

/-- R51: block b of a DRAM address lies on stack b mod n, its piece p on pseudo-channel (p + b div n) mod 64 and there at (b div n) × 1,024; and
no two addresses share a place. -/
def Obligations.AddressMap : Prop :=
  (∀ (a : Nat) (s : State), lineStack s (a / 64) = a / 65536 % nStacks s ∧
    linePc s (a / 64) = (a / 1024 % 64 + a / 65536 / nStacks s) % 64 ∧
    (lineRow s (a / 64) * 32 + lineBank s (a / 64)) * 1024 = a / 65536 / nStacks s * 1024) ∧
  (∀ (a b : Nat) (s : State), nStacks s ≠ 0 → lineStack s (a / 64) = lineStack s (b / 64) → linePc s (a / 64) = linePc s (b / 64) →
    lineRow s (a / 64) = lineRow s (b / 64) → lineBank s (a / 64) = lineBank s (b / 64) → a % 1024 = b % 1024 → a = b)

/-- R94: an address in a decoder's range belongs to the logical device of the decoder's position and gives the DPA of the formula; the worked
example; and no two addresses give one DPA. -/
def Obligations.DecoderArithmetic : Prop :=
  (∀ (d : Decoder) (h : Nat), d.committed = true → d.base ≤ h → h < d.base + d.size → 1 ≤ d.ways → 1 ≤ d.gran →
    hdmHit d h = if (h - d.base) / d.gran % d.ways = d.pos then
      some (d.dpa + (h - d.base) / (d.gran * d.ways) * d.gran + (h - d.base) % d.gran) else none) ∧
  hdmHit { committed := true, base := 0x002000000000, size := 2 * 2 ^ 40, ways := 2, gran := 4096, pos := 1, dpa := 0x100000000000 }
    0x00211A469540 = some 0x10008D234540 ∧
  (∀ (d : Decoder) (h h' x : Nat), 1 ≤ d.ways → 1 ≤ d.gran → hdmHit d h = some x → hdmHit d h' = some x → h = h')

/-- R60: a line whose valid bit is clear reads as zeros, whatever the partition and its keys; a partial store to it merges with zeros, is
written under the current epoch and sets the valid bit. -/
def Obligations.UnwrittenLineReadsZero : Prop :=
  ∀ (l part dpaLine : Nat) (s : State), (lineMeta s l).valid = false → (lineMeta s l).poison = false →
    lineDecodes (tfind (stackOf s (lineStack s l)).marks (linePc s l)) ((tfind s.mem.damage l).getD []) = true →
    (readLine l part dpaLine s).1 = ⟨zeros 64, 0⟩ ∧
    (Memory.wf s.mem = true → ∀ (data : Bytes) (be requester : Nat), data.length = 64 →
      rawLine (mergeLine l part dpaLine data be false requester s) l = mergeBytes (zeros 64) data be ∧
      lineMeta (mergeLine l part dpaLine data be false requester s) l =
        { valid := true, poison := false, epoch := (partOf s part).current, part := part, seed := (partOf s part).seedCur,
          line := dpaLine })

/-- A line that a partition wrote reads back to it as written, fails its integrity check for every other partition, and no other line changes
(R203, R205). -/
def Obligations.WrittenLineReadsBack : Prop :=
  ∀ (l part dpaLine : Nat) (data : Bytes) (s : State), Memory.wf s.mem = true → keyHeld s part → data.length = 64 →
    (readLine l part dpaLine (writeLine l part dpaLine data false s)).1 = ⟨data, 0⟩ ∧
    (∀ other, other ≠ part → (readLine l other dpaLine (writeLine l part dpaLine data false s)).1 = ⟨[], 3⟩) ∧
    (∀ k, k ≠ l → rawLine (writeLine l part dpaLine data false s) k = rawLine s k ∧
      lineMeta (writeLine l part dpaLine data false s) k = lineMeta s k) ∧
    Memory.wf (writeLine l part dpaLine data false s).mem = true

/-- The frame of a request at its home in flat mode, for every kind of request: a byte outside the stored lines that the request names, scale
lines included, is unchanged, and a read changes no byte at all. -/
def Obligations.AppliedRequestFrame : Prop :=
  ∀ (entry : Nat) (h : BookEntry) (x : Txn) (s : State), s.car.tiered = false → tsorted s.mem.data = true → 1 ≤ x.req.lines → x.req.view < 10 →
    x.lines = reqLines h x.req →
    (∀ a, a / 64 ∉ x.lines → tget 0 (applyRequest entry h x s).2.mem.data a = tget 0 s.mem.data a) ∧
    (x.req.kind ≠ .write → x.req.kind ≠ .engineWrite → (applyRequest entry h x s).2.mem.data = s.mem.data)
end

