-- ==== Sys2Proof/Laws/Table.lean ====
section
/-! SUPPORT. Laws of tables: reading after writing, and the canonical form, which every operation keeps. -/
namespace Sys2Proof.Machine

variable {α : Type}

/-- A lower bound of a rising table may be lowered. -/
theorem trising_le {lo lo' : Nat} {t : Tbl α} (h : trising lo t = true) (hl : lo' ≤ lo) : trising lo' t = true := by
  cases t with
  | nil => rfl
  | cons p t => obtain ⟨j, a⟩ := p; simp only [trising, Bool.and_eq_true, decide_eq_true_eq] at *; exact ⟨by omega, h.2⟩

/-- A key below a rising table is not listed. -/
theorem tfind_below {lo k : Nat} {t : Tbl α} (h : trising lo t = true) (hk : k < lo) : tfind t k = none := by
  induction t generalizing lo with
  | nil => rfl
  | cons p t ih =>
    obtain ⟨j, a⟩ := p
    simp only [trising, Bool.and_eq_true, decide_eq_true_eq] at h
    simp only [tfind]
    rw [if_neg (by omega)]
    exact ih h.2 (by omega)

@[simp] theorem tfind_tput_same (t : Tbl α) (k : Nat) (v : α) : tfind (tput t k v) k = some v := by
  induction t with
  | nil => simp [tput, tfind]
  | cons p t ih =>
    obtain ⟨j, a⟩ := p
    simp only [tput]
    split
    · simp [tfind]
    · split
      · simp [tfind]
      · next h1 h2 => simp only [tfind]; rw [if_neg (by omega)]; exact ih

theorem tfind_tput_other {t : Tbl α} {k j : Nat} {v : α} (h : j ≠ k) : tfind (tput t k v) j = tfind t j := by
  induction t with
  | nil => simp [tput, tfind, h.symm]
  | cons p t ih =>
    obtain ⟨i, a⟩ := p
    simp only [tput]
    split
    · simp [tfind, h.symm]
    · split
      · next h2 => subst h2; simp [tfind, h.symm]
      · simp only [tfind]; split
        · rfl
        · exact ih

theorem trising_tput {lo k : Nat} {t : Tbl α} {v : α} (h : trising lo t = true) (hk : lo ≤ k) : trising lo (tput t k v) = true := by
  induction t generalizing lo with
  | nil => simp [tput, trising, hk]
  | cons p t ih =>
    obtain ⟨j, a⟩ := p
    simp only [trising, Bool.and_eq_true, decide_eq_true_eq] at h
    simp only [tput]
    split
    · simp only [trising, Bool.and_eq_true, decide_eq_true_eq]; exact ⟨hk, by omega, h.2⟩
    · split
      · next h2 => subst h2; simp only [trising, Bool.and_eq_true, decide_eq_true_eq]; exact ⟨hk, h.2⟩
      · simp only [trising, Bool.and_eq_true, decide_eq_true_eq]; exact ⟨h.1, ih h.2 (by omega)⟩

theorem trising_tdel {lo k : Nat} {t : Tbl α} (h : trising lo t = true) : trising lo (tdel t k) = true := by
  induction t generalizing lo with
  | nil => rfl
  | cons p t ih =>
    obtain ⟨j, a⟩ := p
    simp only [trising, Bool.and_eq_true, decide_eq_true_eq] at h
    simp only [tdel]
    split
    · exact trising_le h.2 (by omega)
    · simp only [trising, Bool.and_eq_true, decide_eq_true_eq]; exact ⟨h.1, ih h.2⟩

theorem trising_filter {lo : Nat} {t : Tbl α} {p : Nat × α → Bool} (h : trising lo t = true) : trising lo (t.filter p) = true := by
  induction t generalizing lo with
  | nil => rfl
  | cons e t ih =>
    obtain ⟨j, a⟩ := e
    simp only [trising, Bool.and_eq_true, decide_eq_true_eq] at h
    simp only [List.filter_cons]
    split
    · simp only [trising, Bool.and_eq_true, decide_eq_true_eq]; exact ⟨h.1, ih h.2⟩
    · exact trising_le (ih h.2) (by omega)

theorem tsorted_tput {t : Tbl α} {k : Nat} {v : α} (h : tsorted t = true) : tsorted (tput t k v) = true :=
  trising_tput h (Nat.zero_le k)

theorem tsorted_tdel {t : Tbl α} {k : Nat} (h : tsorted t = true) : tsorted (tdel t k) = true := trising_tdel h

theorem tsorted_filter {t : Tbl α} {p : Nat × α → Bool} (h : tsorted t = true) : tsorted (t.filter p) = true := trising_filter h

theorem mem_tput {t : Tbl α} {k : Nat} {v : α} {e : Nat × α} (h : e ∈ tput t k v) : e = (k, v) ∨ e ∈ t := by
  induction t with
  | nil => simpa [tput] using h
  | cons p t ih =>
    obtain ⟨j, a⟩ := p
    simp only [tput] at h
    split at h
    · simpa using h
    · split at h
      · rcases List.mem_cons.1 h with h | h
        · exact .inl h
        · exact .inr (List.mem_cons_of_mem _ h)
      · rcases List.mem_cons.1 h with h | h
        · exact .inr (h ▸ List.mem_cons_self)
        · exact (ih h).imp id (List.mem_cons_of_mem _)

theorem mem_tdel {t : Tbl α} {k : Nat} {e : Nat × α} (h : e ∈ tdel t k) : e ∈ t := by
  induction t with
  | nil => exact h
  | cons p t ih =>
    obtain ⟨j, a⟩ := p
    simp only [tdel] at h
    split at h
    · exact List.mem_cons_of_mem _ h
    · rcases List.mem_cons.1 h with h | h
      · exact h ▸ List.mem_cons_self
      · exact List.mem_cons_of_mem _ (ih h)

theorem tfind_tdel_same {t : Tbl α} {k : Nat} (h : tsorted t = true) : tfind (tdel t k) k = none := by
  unfold tsorted at h
  generalize 0 = lo at h
  induction t generalizing lo with
  | nil => rfl
  | cons p t ih =>
    obtain ⟨j, a⟩ := p
    simp only [trising, Bool.and_eq_true, decide_eq_true_eq] at h
    simp only [tdel]
    split
    · next hj => exact tfind_below h.2 (by omega)
    · next hj => simp only [tfind]; rw [if_neg hj]; exact ih _ h.2

theorem tfind_tdel_other {t : Tbl α} {k j : Nat} (h : j ≠ k) : tfind (tdel t k) j = tfind t j := by
  induction t with
  | nil => rfl
  | cons p t ih =>
    obtain ⟨i, a⟩ := p
    simp only [tdel]
    split
    · next hi => simp only [tfind]; rw [if_neg (by omega)]
    · simp only [tfind]; split
      · rfl
      · exact ih

section Values
variable [DecidableEq α] {d : α}

theorem tcanon_tsorted {t : Tbl α} (h : tcanon d t = true) : tsorted t = true := by
  simp only [tcanon, Bool.and_eq_true] at h; exact h.1

/-- Reading a value back. -/
theorem tget_tset_same {t : Tbl α} {k : Nat} {v : α} (h : tsorted t = true) : tget d (tset d t k v) k = v := by
  unfold tget tset
  split
  · next hv => rw [tfind_tdel_same h]; simp [hv]
  · simp

/-- Writing one key leaves the others. -/
theorem tget_tset_other {t : Tbl α} {k j : Nat} {v : α} (h : j ≠ k) : tget d (tset d t k v) j = tget d t j := by
  unfold tget tset
  split
  · rw [tfind_tdel_other h]
  · rw [tfind_tput_other h]

/-- A write keeps the canonical form. -/
theorem tcanon_tset {t : Tbl α} {k : Nat} {v : α} (h : tcanon d t = true) : tcanon d (tset d t k v) = true := by
  simp only [tcanon, Bool.and_eq_true, List.all_eq_true, decide_eq_true_eq] at *
  unfold tset
  split
  · exact ⟨tsorted_tdel h.1, fun e he => h.2 e (mem_tdel he)⟩
  · next hv =>
    refine ⟨tsorted_tput h.1, fun e he => ?_⟩
    rcases mem_tput he with rfl | he
    · exact hv
    · exact h.2 e he

theorem tcanon_filter {t : Tbl α} {p : Nat × α → Bool} (h : tcanon d t = true) : tcanon d (t.filter p) = true := by
  simp only [tcanon, Bool.and_eq_true, List.all_eq_true, decide_eq_true_eq] at *
  exact ⟨tsorted_filter h.1, fun e he => h.2 e (List.mem_filter.1 he).1⟩

end Values

end Sys2Proof.Machine
end

