-- ==== Sys2Proof/Laws/Memory.lean ====
section
/-! SUPPORT. Every operation on DRAM keeps its canonical form, and a byte reads back what was written to it. -/
namespace Sys2Proof.Machine

/-- The parts of the canonical form. -/
theorem memory_wf_iff {m : Mem} : Memory.wf m = true ↔ tcanon 0 m.data = true ∧ tcanon {} m.info = true ∧ tsorted m.damage = true := by
  simp [Memory.wf, and_assoc]

/-- One DRAM byte. -/
theorem byte_putByte_same {a : Nat} {b : Byte} {s : State} (h : Memory.wf s.mem = true) : tget 0 (putByte a b s).mem.data a = b :=
  tget_tset_same (tcanon_tsorted (memory_wf_iff.1 h).1)

theorem byte_putByte_other {a c : Nat} {b : Byte} {s : State} (h : c ≠ a) :
    tget 0 (putByte a b s).mem.data c = tget 0 s.mem.data c := tget_tset_other h

theorem putByte_wf {a : Nat} {b : Byte} {s : State} (h : Memory.wf s.mem = true) : Memory.wf (putByte a b s).mem = true := by
  rw [memory_wf_iff] at *; exact ⟨tcanon_tset h.1, h.2.1, h.2.2⟩

theorem putBytes_wf {a : Nat} {bs : Bytes} {s : State} (h : Memory.wf s.mem = true) : Memory.wf (putBytes a bs s).mem = true := by
  induction bs generalizing a s with
  | nil => exact h
  | cons b bs ih => exact ih (putByte_wf h)

/-- A byte outside a written range reads as before. -/
theorem byte_putBytes_other {a c : Nat} {bs : Bytes} {s : State} (h : c < a ∨ a + bs.length ≤ c) :
    tget 0 (putBytes a bs s).mem.data c = tget 0 s.mem.data c := by
  induction bs generalizing a s with
  | nil => rfl
  | cons b bs ih =>
    simp only [List.length_cons] at h
    simp only [putBytes]
    rw [ih (by omega), byte_putByte_other (by omega)]

theorem setMeta_wf {l : Nat} {m : LineMeta} {s : State} (h : Memory.wf s.mem = true) : Memory.wf (setMeta l m s).mem = true := by
  rw [memory_wf_iff] at *; exact ⟨h.1, tcanon_tset h.2.1, h.2.2⟩

theorem clearRange_wf {lo hi : Nat} {s : State} (h : Memory.wf s.mem = true) : Memory.wf (clearRange lo hi s).mem = true := by
  rw [memory_wf_iff] at *; exact ⟨tcanon_filter h.1, tcanon_filter h.2.1, tsorted_filter h.2.2⟩

theorem wipeFrame_wf {b : Nat} {f : Frame} {s : State} (h : Memory.wf s.mem = true) : Memory.wf (wipeFrame b f s).mem = true := by
  rw [memory_wf_iff] at *; exact ⟨tcanon_filter h.1, tcanon_filter h.2.1, tsorted_filter h.2.2⟩

theorem zeroStack_wf {k : Nat} {s : State} (h : Memory.wf s.mem = true) : Memory.wf (zeroStack k s).mem = true := by
  rw [memory_wf_iff] at *; exact ⟨tcanon_filter h.1, tcanon_filter h.2.1, tsorted_filter h.2.2⟩

/-- Memory lists nothing after reset. -/
theorem reset_memory_wf : Memory.wf State.reset.mem = true := rfl

end Sys2Proof.Machine
end

