-- ==== Sys2Proof/Laws/State.lean ====
section
/-! SUPPORT. What each named update of State leaves alone: one lemma per field per update. -/
namespace Sys2Proof.Machine

variable (s : State)


@[simp] theorem emit_pending (e : Emit) : (emit e s).pending = s.pending := rfl
@[simp] theorem emit_now (e : Emit) : (emit e s).now = s.now := rfl
@[simp] theorem emit_fresh (e : Emit) : (emit e s).fresh = s.fresh := rfl
@[simp] theorem emit_asm (e : Emit) : (emit e s).asm = s.asm := rfl
@[simp] theorem emit_regs (e : Emit) : (emit e s).regs = s.regs := rfl
@[simp] theorem emit_store (e : Emit) : (emit e s).store = s.store := rfl
@[simp] theorem emit_storeBlobs (e : Emit) : (emit e s).storeBlobs = s.storeBlobs := rfl
@[simp] theorem emit_fuses (e : Emit) : (emit e s).fuses = s.fuses := rfl
@[simp] theorem emit_taken (e : Emit) : (emit e s).taken = s.taken := rfl
@[simp] theorem emit_ring (e : Emit) : (emit e s).ring = s.ring := rfl
@[simp] theorem emit_pga (e : Emit) : (emit e s).pga = s.pga := rfl
@[simp] theorem emit_cxl (e : Emit) : (emit e s).cxl = s.cxl := rfl
@[simp] theorem emit_ldg (e : Emit) : (emit e s).ldg = s.ldg := rfl
@[simp] theorem emit_car (e : Emit) : (emit e s).car = s.car := rfl
@[simp] theorem emit_mem (e : Emit) : (emit e s).mem = s.mem := rfl
@[simp] theorem emit_stk (e : Emit) : (emit e s).stk = s.stk := rfl
@[simp] theorem emit_tlb (e : Emit) : (emit e s).tlb = s.tlb := rfl
@[simp] theorem emit_cle (e : Emit) : (emit e s).cle = s.cle := rfl
@[simp] theorem emit_win (e : Emit) : (emit e s).win = s.win := rfl
@[simp] theorem emit_mar (e : Emit) : (emit e s).mar = s.mar := rfl
@[simp] theorem emit_lnk (e : Emit) : (emit e s).lnk = s.lnk := rfl
@[simp] theorem emit_twn (e : Emit) : (emit e s).twn = s.twn := rfl
@[simp] theorem emit_wgh (e : Emit) : (emit e s).wgh = s.wgh := rfl
@[simp] theorem emit_lck (e : Emit) : (emit e s).lck = s.lck := rfl
@[simp] theorem emit_msix (e : Emit) : (emit e s).msix = s.msix := rfl
@[simp] theorem emit_evt (e : Emit) : (emit e s).evt = s.evt := rfl
@[simp] theorem emit_sah (e : Emit) : (emit e s).sah = s.sah := rfl
@[simp] theorem emit_fw (e : Emit) : (emit e s).fw = s.fw := rfl
@[simp] theorem emit_rst (e : Emit) : (emit e s).rst = s.rst := rfl
@[simp] theorem emit_ras (e : Emit) : (emit e s).ras = s.ras := rfl
@[simp] theorem emit_jtag (e : Emit) : (emit e s).jtag = s.jtag := rfl

@[simp] theorem drawn_pending : (drawn s).pending = s.pending := rfl
@[simp] theorem drawn_out : (drawn s).out = s.out := rfl
@[simp] theorem drawn_now : (drawn s).now = s.now := rfl
@[simp] theorem drawn_asm : (drawn s).asm = s.asm := rfl
@[simp] theorem drawn_regs : (drawn s).regs = s.regs := rfl
@[simp] theorem drawn_store : (drawn s).store = s.store := rfl
@[simp] theorem drawn_storeBlobs : (drawn s).storeBlobs = s.storeBlobs := rfl
@[simp] theorem drawn_fuses : (drawn s).fuses = s.fuses := rfl
@[simp] theorem drawn_taken : (drawn s).taken = s.taken := rfl
@[simp] theorem drawn_ring : (drawn s).ring = s.ring := rfl
@[simp] theorem drawn_pga : (drawn s).pga = s.pga := rfl
@[simp] theorem drawn_cxl : (drawn s).cxl = s.cxl := rfl
@[simp] theorem drawn_ldg : (drawn s).ldg = s.ldg := rfl
@[simp] theorem drawn_car : (drawn s).car = s.car := rfl
@[simp] theorem drawn_mem : (drawn s).mem = s.mem := rfl
@[simp] theorem drawn_stk : (drawn s).stk = s.stk := rfl
@[simp] theorem drawn_tlb : (drawn s).tlb = s.tlb := rfl
@[simp] theorem drawn_cle : (drawn s).cle = s.cle := rfl
@[simp] theorem drawn_win : (drawn s).win = s.win := rfl
@[simp] theorem drawn_mar : (drawn s).mar = s.mar := rfl
@[simp] theorem drawn_lnk : (drawn s).lnk = s.lnk := rfl
@[simp] theorem drawn_twn : (drawn s).twn = s.twn := rfl
@[simp] theorem drawn_wgh : (drawn s).wgh = s.wgh := rfl
@[simp] theorem drawn_lck : (drawn s).lck = s.lck := rfl
@[simp] theorem drawn_msix : (drawn s).msix = s.msix := rfl
@[simp] theorem drawn_evt : (drawn s).evt = s.evt := rfl
@[simp] theorem drawn_sah : (drawn s).sah = s.sah := rfl
@[simp] theorem drawn_fw : (drawn s).fw = s.fw := rfl
@[simp] theorem drawn_rst : (drawn s).rst = s.rst := rfl
@[simp] theorem drawn_ras : (drawn s).ras = s.ras := rfl
@[simp] theorem drawn_jtag : (drawn s).jtag = s.jtag := rfl

@[simp] theorem setReg_pending (k d v : Nat) : (setReg k d v s).pending = s.pending := rfl
@[simp] theorem setReg_out (k d v : Nat) : (setReg k d v s).out = s.out := rfl
@[simp] theorem setReg_now (k d v : Nat) : (setReg k d v s).now = s.now := rfl
@[simp] theorem setReg_fresh (k d v : Nat) : (setReg k d v s).fresh = s.fresh := rfl
@[simp] theorem setReg_asm (k d v : Nat) : (setReg k d v s).asm = s.asm := rfl
@[simp] theorem setReg_store (k d v : Nat) : (setReg k d v s).store = s.store := rfl
@[simp] theorem setReg_storeBlobs (k d v : Nat) : (setReg k d v s).storeBlobs = s.storeBlobs := rfl
@[simp] theorem setReg_fuses (k d v : Nat) : (setReg k d v s).fuses = s.fuses := rfl
@[simp] theorem setReg_taken (k d v : Nat) : (setReg k d v s).taken = s.taken := rfl
@[simp] theorem setReg_ring (k d v : Nat) : (setReg k d v s).ring = s.ring := rfl
@[simp] theorem setReg_pga (k d v : Nat) : (setReg k d v s).pga = s.pga := rfl
@[simp] theorem setReg_cxl (k d v : Nat) : (setReg k d v s).cxl = s.cxl := rfl
@[simp] theorem setReg_ldg (k d v : Nat) : (setReg k d v s).ldg = s.ldg := rfl
@[simp] theorem setReg_car (k d v : Nat) : (setReg k d v s).car = s.car := rfl
@[simp] theorem setReg_mem (k d v : Nat) : (setReg k d v s).mem = s.mem := rfl
@[simp] theorem setReg_stk (k d v : Nat) : (setReg k d v s).stk = s.stk := rfl
@[simp] theorem setReg_tlb (k d v : Nat) : (setReg k d v s).tlb = s.tlb := rfl
@[simp] theorem setReg_cle (k d v : Nat) : (setReg k d v s).cle = s.cle := rfl
@[simp] theorem setReg_win (k d v : Nat) : (setReg k d v s).win = s.win := rfl
@[simp] theorem setReg_mar (k d v : Nat) : (setReg k d v s).mar = s.mar := rfl
@[simp] theorem setReg_lnk (k d v : Nat) : (setReg k d v s).lnk = s.lnk := rfl
@[simp] theorem setReg_twn (k d v : Nat) : (setReg k d v s).twn = s.twn := rfl
@[simp] theorem setReg_wgh (k d v : Nat) : (setReg k d v s).wgh = s.wgh := rfl
@[simp] theorem setReg_lck (k d v : Nat) : (setReg k d v s).lck = s.lck := rfl
@[simp] theorem setReg_msix (k d v : Nat) : (setReg k d v s).msix = s.msix := rfl
@[simp] theorem setReg_evt (k d v : Nat) : (setReg k d v s).evt = s.evt := rfl
@[simp] theorem setReg_sah (k d v : Nat) : (setReg k d v s).sah = s.sah := rfl
@[simp] theorem setReg_fw (k d v : Nat) : (setReg k d v s).fw = s.fw := rfl
@[simp] theorem setReg_rst (k d v : Nat) : (setReg k d v s).rst = s.rst := rfl
@[simp] theorem setReg_ras (k d v : Nat) : (setReg k d v s).ras = s.ras := rfl
@[simp] theorem setReg_jtag (k d v : Nat) : (setReg k d v s).jtag = s.jtag := rfl

@[simp] theorem setSession_pending (n : Nat) (x : Session) : (setSession n x s).pending = s.pending := rfl
@[simp] theorem setSession_out (n : Nat) (x : Session) : (setSession n x s).out = s.out := rfl
@[simp] theorem setSession_now (n : Nat) (x : Session) : (setSession n x s).now = s.now := rfl
@[simp] theorem setSession_fresh (n : Nat) (x : Session) : (setSession n x s).fresh = s.fresh := rfl
@[simp] theorem setSession_asm (n : Nat) (x : Session) : (setSession n x s).asm = s.asm := rfl
@[simp] theorem setSession_regs (n : Nat) (x : Session) : (setSession n x s).regs = s.regs := rfl
@[simp] theorem setSession_store (n : Nat) (x : Session) : (setSession n x s).store = s.store := rfl
@[simp] theorem setSession_storeBlobs (n : Nat) (x : Session) : (setSession n x s).storeBlobs = s.storeBlobs := rfl
@[simp] theorem setSession_fuses (n : Nat) (x : Session) : (setSession n x s).fuses = s.fuses := rfl
@[simp] theorem setSession_taken (n : Nat) (x : Session) : (setSession n x s).taken = s.taken := rfl
@[simp] theorem setSession_ring (n : Nat) (x : Session) : (setSession n x s).ring = s.ring := rfl
@[simp] theorem setSession_pga (n : Nat) (x : Session) : (setSession n x s).pga = s.pga := rfl
@[simp] theorem setSession_cxl (n : Nat) (x : Session) : (setSession n x s).cxl = s.cxl := rfl
@[simp] theorem setSession_ldg (n : Nat) (x : Session) : (setSession n x s).ldg = s.ldg := rfl
@[simp] theorem setSession_car (n : Nat) (x : Session) : (setSession n x s).car = s.car := rfl
@[simp] theorem setSession_mem (n : Nat) (x : Session) : (setSession n x s).mem = s.mem := rfl
@[simp] theorem setSession_stk (n : Nat) (x : Session) : (setSession n x s).stk = s.stk := rfl
@[simp] theorem setSession_tlb (n : Nat) (x : Session) : (setSession n x s).tlb = s.tlb := rfl
@[simp] theorem setSession_cle (n : Nat) (x : Session) : (setSession n x s).cle = s.cle := rfl
@[simp] theorem setSession_win (n : Nat) (x : Session) : (setSession n x s).win = s.win := rfl
@[simp] theorem setSession_mar (n : Nat) (x : Session) : (setSession n x s).mar = s.mar := rfl
@[simp] theorem setSession_lnk (n : Nat) (x : Session) : (setSession n x s).lnk = s.lnk := rfl
@[simp] theorem setSession_twn (n : Nat) (x : Session) : (setSession n x s).twn = s.twn := rfl
@[simp] theorem setSession_wgh (n : Nat) (x : Session) : (setSession n x s).wgh = s.wgh := rfl
@[simp] theorem setSession_lck (n : Nat) (x : Session) : (setSession n x s).lck = s.lck := rfl
@[simp] theorem setSession_msix (n : Nat) (x : Session) : (setSession n x s).msix = s.msix := rfl
@[simp] theorem setSession_evt (n : Nat) (x : Session) : (setSession n x s).evt = s.evt := rfl
@[simp] theorem setSession_fw (n : Nat) (x : Session) : (setSession n x s).fw = s.fw := rfl
@[simp] theorem setSession_rst (n : Nat) (x : Session) : (setSession n x s).rst = s.rst := rfl
@[simp] theorem setSession_ras (n : Nat) (x : Session) : (setSession n x s).ras = s.ras := rfl
@[simp] theorem setSession_jtag (n : Nat) (x : Session) : (setSession n x s).jtag = s.jtag := rfl

@[simp] theorem setStatus_pending (k v : Nat) : (setStatus k v s).pending = s.pending := rfl
@[simp] theorem setStatus_out (k v : Nat) : (setStatus k v s).out = s.out := rfl
@[simp] theorem setStatus_now (k v : Nat) : (setStatus k v s).now = s.now := rfl
@[simp] theorem setStatus_fresh (k v : Nat) : (setStatus k v s).fresh = s.fresh := rfl
@[simp] theorem setStatus_asm (k v : Nat) : (setStatus k v s).asm = s.asm := rfl
@[simp] theorem setStatus_regs (k v : Nat) : (setStatus k v s).regs = s.regs := rfl
@[simp] theorem setStatus_store (k v : Nat) : (setStatus k v s).store = s.store := rfl
@[simp] theorem setStatus_storeBlobs (k v : Nat) : (setStatus k v s).storeBlobs = s.storeBlobs := rfl
@[simp] theorem setStatus_fuses (k v : Nat) : (setStatus k v s).fuses = s.fuses := rfl
@[simp] theorem setStatus_taken (k v : Nat) : (setStatus k v s).taken = s.taken := rfl
@[simp] theorem setStatus_ring (k v : Nat) : (setStatus k v s).ring = s.ring := rfl
@[simp] theorem setStatus_pga (k v : Nat) : (setStatus k v s).pga = s.pga := rfl
@[simp] theorem setStatus_cxl (k v : Nat) : (setStatus k v s).cxl = s.cxl := rfl
@[simp] theorem setStatus_ldg (k v : Nat) : (setStatus k v s).ldg = s.ldg := rfl
@[simp] theorem setStatus_car (k v : Nat) : (setStatus k v s).car = s.car := rfl
@[simp] theorem setStatus_mem (k v : Nat) : (setStatus k v s).mem = s.mem := rfl
@[simp] theorem setStatus_stk (k v : Nat) : (setStatus k v s).stk = s.stk := rfl
@[simp] theorem setStatus_tlb (k v : Nat) : (setStatus k v s).tlb = s.tlb := rfl
@[simp] theorem setStatus_cle (k v : Nat) : (setStatus k v s).cle = s.cle := rfl
@[simp] theorem setStatus_win (k v : Nat) : (setStatus k v s).win = s.win := rfl
@[simp] theorem setStatus_mar (k v : Nat) : (setStatus k v s).mar = s.mar := rfl
@[simp] theorem setStatus_lnk (k v : Nat) : (setStatus k v s).lnk = s.lnk := rfl
@[simp] theorem setStatus_twn (k v : Nat) : (setStatus k v s).twn = s.twn := rfl
@[simp] theorem setStatus_wgh (k v : Nat) : (setStatus k v s).wgh = s.wgh := rfl
@[simp] theorem setStatus_lck (k v : Nat) : (setStatus k v s).lck = s.lck := rfl
@[simp] theorem setStatus_msix (k v : Nat) : (setStatus k v s).msix = s.msix := rfl
@[simp] theorem setStatus_evt (k v : Nat) : (setStatus k v s).evt = s.evt := rfl
@[simp] theorem setStatus_fw (k v : Nat) : (setStatus k v s).fw = s.fw := rfl
@[simp] theorem setStatus_rst (k v : Nat) : (setStatus k v s).rst = s.rst := rfl
@[simp] theorem setStatus_ras (k v : Nat) : (setStatus k v s).ras = s.ras := rfl
@[simp] theorem setStatus_jtag (k v : Nat) : (setStatus k v s).jtag = s.jtag := rfl

@[simp] theorem setPort_pending (k : Nat) (x : Port) : (setPort k x s).pending = s.pending := rfl
@[simp] theorem setPort_out (k : Nat) (x : Port) : (setPort k x s).out = s.out := rfl
@[simp] theorem setPort_now (k : Nat) (x : Port) : (setPort k x s).now = s.now := rfl
@[simp] theorem setPort_fresh (k : Nat) (x : Port) : (setPort k x s).fresh = s.fresh := rfl
@[simp] theorem setPort_asm (k : Nat) (x : Port) : (setPort k x s).asm = s.asm := rfl
@[simp] theorem setPort_regs (k : Nat) (x : Port) : (setPort k x s).regs = s.regs := rfl
@[simp] theorem setPort_store (k : Nat) (x : Port) : (setPort k x s).store = s.store := rfl
@[simp] theorem setPort_storeBlobs (k : Nat) (x : Port) : (setPort k x s).storeBlobs = s.storeBlobs := rfl
@[simp] theorem setPort_fuses (k : Nat) (x : Port) : (setPort k x s).fuses = s.fuses := rfl
@[simp] theorem setPort_taken (k : Nat) (x : Port) : (setPort k x s).taken = s.taken := rfl
@[simp] theorem setPort_ring (k : Nat) (x : Port) : (setPort k x s).ring = s.ring := rfl
@[simp] theorem setPort_pga (k : Nat) (x : Port) : (setPort k x s).pga = s.pga := rfl
@[simp] theorem setPort_ldg (k : Nat) (x : Port) : (setPort k x s).ldg = s.ldg := rfl
@[simp] theorem setPort_car (k : Nat) (x : Port) : (setPort k x s).car = s.car := rfl
@[simp] theorem setPort_mem (k : Nat) (x : Port) : (setPort k x s).mem = s.mem := rfl
@[simp] theorem setPort_stk (k : Nat) (x : Port) : (setPort k x s).stk = s.stk := rfl
@[simp] theorem setPort_tlb (k : Nat) (x : Port) : (setPort k x s).tlb = s.tlb := rfl
@[simp] theorem setPort_cle (k : Nat) (x : Port) : (setPort k x s).cle = s.cle := rfl
@[simp] theorem setPort_win (k : Nat) (x : Port) : (setPort k x s).win = s.win := rfl
@[simp] theorem setPort_mar (k : Nat) (x : Port) : (setPort k x s).mar = s.mar := rfl
@[simp] theorem setPort_lnk (k : Nat) (x : Port) : (setPort k x s).lnk = s.lnk := rfl
@[simp] theorem setPort_twn (k : Nat) (x : Port) : (setPort k x s).twn = s.twn := rfl
@[simp] theorem setPort_wgh (k : Nat) (x : Port) : (setPort k x s).wgh = s.wgh := rfl
@[simp] theorem setPort_lck (k : Nat) (x : Port) : (setPort k x s).lck = s.lck := rfl
@[simp] theorem setPort_msix (k : Nat) (x : Port) : (setPort k x s).msix = s.msix := rfl
@[simp] theorem setPort_evt (k : Nat) (x : Port) : (setPort k x s).evt = s.evt := rfl
@[simp] theorem setPort_sah (k : Nat) (x : Port) : (setPort k x s).sah = s.sah := rfl
@[simp] theorem setPort_fw (k : Nat) (x : Port) : (setPort k x s).fw = s.fw := rfl
@[simp] theorem setPort_rst (k : Nat) (x : Port) : (setPort k x s).rst = s.rst := rfl
@[simp] theorem setPort_ras (k : Nat) (x : Port) : (setPort k x s).ras = s.ras := rfl
@[simp] theorem setPort_jtag (k : Nat) (x : Port) : (setPort k x s).jtag = s.jtag := rfl

@[simp] theorem setLd_pending (k : Nat) (x : Ld) : (setLd k x s).pending = s.pending := rfl
@[simp] theorem setLd_out (k : Nat) (x : Ld) : (setLd k x s).out = s.out := rfl
@[simp] theorem setLd_now (k : Nat) (x : Ld) : (setLd k x s).now = s.now := rfl
@[simp] theorem setLd_fresh (k : Nat) (x : Ld) : (setLd k x s).fresh = s.fresh := rfl
@[simp] theorem setLd_asm (k : Nat) (x : Ld) : (setLd k x s).asm = s.asm := rfl
@[simp] theorem setLd_regs (k : Nat) (x : Ld) : (setLd k x s).regs = s.regs := rfl
@[simp] theorem setLd_store (k : Nat) (x : Ld) : (setLd k x s).store = s.store := rfl
@[simp] theorem setLd_storeBlobs (k : Nat) (x : Ld) : (setLd k x s).storeBlobs = s.storeBlobs := rfl
@[simp] theorem setLd_fuses (k : Nat) (x : Ld) : (setLd k x s).fuses = s.fuses := rfl
@[simp] theorem setLd_taken (k : Nat) (x : Ld) : (setLd k x s).taken = s.taken := rfl
@[simp] theorem setLd_ring (k : Nat) (x : Ld) : (setLd k x s).ring = s.ring := rfl
@[simp] theorem setLd_pga (k : Nat) (x : Ld) : (setLd k x s).pga = s.pga := rfl
@[simp] theorem setLd_ldg (k : Nat) (x : Ld) : (setLd k x s).ldg = s.ldg := rfl
@[simp] theorem setLd_car (k : Nat) (x : Ld) : (setLd k x s).car = s.car := rfl
@[simp] theorem setLd_mem (k : Nat) (x : Ld) : (setLd k x s).mem = s.mem := rfl
@[simp] theorem setLd_stk (k : Nat) (x : Ld) : (setLd k x s).stk = s.stk := rfl
@[simp] theorem setLd_tlb (k : Nat) (x : Ld) : (setLd k x s).tlb = s.tlb := rfl
@[simp] theorem setLd_cle (k : Nat) (x : Ld) : (setLd k x s).cle = s.cle := rfl
@[simp] theorem setLd_win (k : Nat) (x : Ld) : (setLd k x s).win = s.win := rfl
@[simp] theorem setLd_mar (k : Nat) (x : Ld) : (setLd k x s).mar = s.mar := rfl
@[simp] theorem setLd_lnk (k : Nat) (x : Ld) : (setLd k x s).lnk = s.lnk := rfl
@[simp] theorem setLd_twn (k : Nat) (x : Ld) : (setLd k x s).twn = s.twn := rfl
@[simp] theorem setLd_wgh (k : Nat) (x : Ld) : (setLd k x s).wgh = s.wgh := rfl
@[simp] theorem setLd_lck (k : Nat) (x : Ld) : (setLd k x s).lck = s.lck := rfl
@[simp] theorem setLd_msix (k : Nat) (x : Ld) : (setLd k x s).msix = s.msix := rfl
@[simp] theorem setLd_evt (k : Nat) (x : Ld) : (setLd k x s).evt = s.evt := rfl
@[simp] theorem setLd_sah (k : Nat) (x : Ld) : (setLd k x s).sah = s.sah := rfl
@[simp] theorem setLd_fw (k : Nat) (x : Ld) : (setLd k x s).fw = s.fw := rfl
@[simp] theorem setLd_rst (k : Nat) (x : Ld) : (setLd k x s).rst = s.rst := rfl
@[simp] theorem setLd_ras (k : Nat) (x : Ld) : (setLd k x s).ras = s.ras := rfl
@[simp] theorem setLd_jtag (k : Nat) (x : Ld) : (setLd k x s).jtag = s.jtag := rfl

@[simp] theorem setTdi_pending (k : Nat) (x : Tdi) : (setTdi k x s).pending = s.pending := rfl
@[simp] theorem setTdi_out (k : Nat) (x : Tdi) : (setTdi k x s).out = s.out := rfl
@[simp] theorem setTdi_now (k : Nat) (x : Tdi) : (setTdi k x s).now = s.now := rfl
@[simp] theorem setTdi_fresh (k : Nat) (x : Tdi) : (setTdi k x s).fresh = s.fresh := rfl
@[simp] theorem setTdi_asm (k : Nat) (x : Tdi) : (setTdi k x s).asm = s.asm := rfl
@[simp] theorem setTdi_regs (k : Nat) (x : Tdi) : (setTdi k x s).regs = s.regs := rfl
@[simp] theorem setTdi_store (k : Nat) (x : Tdi) : (setTdi k x s).store = s.store := rfl
@[simp] theorem setTdi_storeBlobs (k : Nat) (x : Tdi) : (setTdi k x s).storeBlobs = s.storeBlobs := rfl
@[simp] theorem setTdi_fuses (k : Nat) (x : Tdi) : (setTdi k x s).fuses = s.fuses := rfl
@[simp] theorem setTdi_taken (k : Nat) (x : Tdi) : (setTdi k x s).taken = s.taken := rfl
@[simp] theorem setTdi_ring (k : Nat) (x : Tdi) : (setTdi k x s).ring = s.ring := rfl
@[simp] theorem setTdi_pga (k : Nat) (x : Tdi) : (setTdi k x s).pga = s.pga := rfl
@[simp] theorem setTdi_cxl (k : Nat) (x : Tdi) : (setTdi k x s).cxl = s.cxl := rfl
@[simp] theorem setTdi_ldg (k : Nat) (x : Tdi) : (setTdi k x s).ldg = s.ldg := rfl
@[simp] theorem setTdi_car (k : Nat) (x : Tdi) : (setTdi k x s).car = s.car := rfl
@[simp] theorem setTdi_mem (k : Nat) (x : Tdi) : (setTdi k x s).mem = s.mem := rfl
@[simp] theorem setTdi_stk (k : Nat) (x : Tdi) : (setTdi k x s).stk = s.stk := rfl
@[simp] theorem setTdi_tlb (k : Nat) (x : Tdi) : (setTdi k x s).tlb = s.tlb := rfl
@[simp] theorem setTdi_cle (k : Nat) (x : Tdi) : (setTdi k x s).cle = s.cle := rfl
@[simp] theorem setTdi_win (k : Nat) (x : Tdi) : (setTdi k x s).win = s.win := rfl
@[simp] theorem setTdi_mar (k : Nat) (x : Tdi) : (setTdi k x s).mar = s.mar := rfl
@[simp] theorem setTdi_lnk (k : Nat) (x : Tdi) : (setTdi k x s).lnk = s.lnk := rfl
@[simp] theorem setTdi_twn (k : Nat) (x : Tdi) : (setTdi k x s).twn = s.twn := rfl
@[simp] theorem setTdi_wgh (k : Nat) (x : Tdi) : (setTdi k x s).wgh = s.wgh := rfl
@[simp] theorem setTdi_msix (k : Nat) (x : Tdi) : (setTdi k x s).msix = s.msix := rfl
@[simp] theorem setTdi_evt (k : Nat) (x : Tdi) : (setTdi k x s).evt = s.evt := rfl
@[simp] theorem setTdi_sah (k : Nat) (x : Tdi) : (setTdi k x s).sah = s.sah := rfl
@[simp] theorem setTdi_fw (k : Nat) (x : Tdi) : (setTdi k x s).fw = s.fw := rfl
@[simp] theorem setTdi_rst (k : Nat) (x : Tdi) : (setTdi k x s).rst = s.rst := rfl
@[simp] theorem setTdi_ras (k : Nat) (x : Tdi) : (setTdi k x s).ras = s.ras := rfl
@[simp] theorem setTdi_jtag (k : Nat) (x : Tdi) : (setTdi k x s).jtag = s.jtag := rfl

@[simp] theorem setPart_pending (p : Nat) (x : Partition) : (setPart p x s).pending = s.pending := rfl
@[simp] theorem setPart_out (p : Nat) (x : Partition) : (setPart p x s).out = s.out := rfl
@[simp] theorem setPart_now (p : Nat) (x : Partition) : (setPart p x s).now = s.now := rfl
@[simp] theorem setPart_fresh (p : Nat) (x : Partition) : (setPart p x s).fresh = s.fresh := rfl
@[simp] theorem setPart_asm (p : Nat) (x : Partition) : (setPart p x s).asm = s.asm := rfl
@[simp] theorem setPart_regs (p : Nat) (x : Partition) : (setPart p x s).regs = s.regs := rfl
@[simp] theorem setPart_store (p : Nat) (x : Partition) : (setPart p x s).store = s.store := rfl
@[simp] theorem setPart_storeBlobs (p : Nat) (x : Partition) : (setPart p x s).storeBlobs = s.storeBlobs := rfl
@[simp] theorem setPart_fuses (p : Nat) (x : Partition) : (setPart p x s).fuses = s.fuses := rfl
@[simp] theorem setPart_taken (p : Nat) (x : Partition) : (setPart p x s).taken = s.taken := rfl
@[simp] theorem setPart_ring (p : Nat) (x : Partition) : (setPart p x s).ring = s.ring := rfl
@[simp] theorem setPart_pga (p : Nat) (x : Partition) : (setPart p x s).pga = s.pga := rfl
@[simp] theorem setPart_cxl (p : Nat) (x : Partition) : (setPart p x s).cxl = s.cxl := rfl
@[simp] theorem setPart_ldg (p : Nat) (x : Partition) : (setPart p x s).ldg = s.ldg := rfl
@[simp] theorem setPart_car (p : Nat) (x : Partition) : (setPart p x s).car = s.car := rfl
@[simp] theorem setPart_mem (p : Nat) (x : Partition) : (setPart p x s).mem = s.mem := rfl
@[simp] theorem setPart_stk (p : Nat) (x : Partition) : (setPart p x s).stk = s.stk := rfl
@[simp] theorem setPart_tlb (p : Nat) (x : Partition) : (setPart p x s).tlb = s.tlb := rfl
@[simp] theorem setPart_cle (p : Nat) (x : Partition) : (setPart p x s).cle = s.cle := rfl
@[simp] theorem setPart_win (p : Nat) (x : Partition) : (setPart p x s).win = s.win := rfl
@[simp] theorem setPart_mar (p : Nat) (x : Partition) : (setPart p x s).mar = s.mar := rfl
@[simp] theorem setPart_lnk (p : Nat) (x : Partition) : (setPart p x s).lnk = s.lnk := rfl
@[simp] theorem setPart_twn (p : Nat) (x : Partition) : (setPart p x s).twn = s.twn := rfl
@[simp] theorem setPart_wgh (p : Nat) (x : Partition) : (setPart p x s).wgh = s.wgh := rfl
@[simp] theorem setPart_msix (p : Nat) (x : Partition) : (setPart p x s).msix = s.msix := rfl
@[simp] theorem setPart_evt (p : Nat) (x : Partition) : (setPart p x s).evt = s.evt := rfl
@[simp] theorem setPart_sah (p : Nat) (x : Partition) : (setPart p x s).sah = s.sah := rfl
@[simp] theorem setPart_fw (p : Nat) (x : Partition) : (setPart p x s).fw = s.fw := rfl
@[simp] theorem setPart_rst (p : Nat) (x : Partition) : (setPart p x s).rst = s.rst := rfl
@[simp] theorem setPart_ras (p : Nat) (x : Partition) : (setPart p x s).ras = s.ras := rfl
@[simp] theorem setPart_jtag (p : Nat) (x : Partition) : (setPart p x s).jtag = s.jtag := rfl

@[simp] theorem setBook_pending (n : Nat) (e : BookEntry) : (setBook n e s).pending = s.pending := rfl
@[simp] theorem setBook_out (n : Nat) (e : BookEntry) : (setBook n e s).out = s.out := rfl
@[simp] theorem setBook_now (n : Nat) (e : BookEntry) : (setBook n e s).now = s.now := rfl
@[simp] theorem setBook_fresh (n : Nat) (e : BookEntry) : (setBook n e s).fresh = s.fresh := rfl
@[simp] theorem setBook_asm (n : Nat) (e : BookEntry) : (setBook n e s).asm = s.asm := rfl
@[simp] theorem setBook_regs (n : Nat) (e : BookEntry) : (setBook n e s).regs = s.regs := rfl
@[simp] theorem setBook_store (n : Nat) (e : BookEntry) : (setBook n e s).store = s.store := rfl
@[simp] theorem setBook_storeBlobs (n : Nat) (e : BookEntry) : (setBook n e s).storeBlobs = s.storeBlobs := rfl
@[simp] theorem setBook_fuses (n : Nat) (e : BookEntry) : (setBook n e s).fuses = s.fuses := rfl
@[simp] theorem setBook_taken (n : Nat) (e : BookEntry) : (setBook n e s).taken = s.taken := rfl
@[simp] theorem setBook_ring (n : Nat) (e : BookEntry) : (setBook n e s).ring = s.ring := rfl
@[simp] theorem setBook_cxl (n : Nat) (e : BookEntry) : (setBook n e s).cxl = s.cxl := rfl
@[simp] theorem setBook_ldg (n : Nat) (e : BookEntry) : (setBook n e s).ldg = s.ldg := rfl
@[simp] theorem setBook_car (n : Nat) (e : BookEntry) : (setBook n e s).car = s.car := rfl
@[simp] theorem setBook_mem (n : Nat) (e : BookEntry) : (setBook n e s).mem = s.mem := rfl
@[simp] theorem setBook_stk (n : Nat) (e : BookEntry) : (setBook n e s).stk = s.stk := rfl
@[simp] theorem setBook_tlb (n : Nat) (e : BookEntry) : (setBook n e s).tlb = s.tlb := rfl
@[simp] theorem setBook_cle (n : Nat) (e : BookEntry) : (setBook n e s).cle = s.cle := rfl
@[simp] theorem setBook_win (n : Nat) (e : BookEntry) : (setBook n e s).win = s.win := rfl
@[simp] theorem setBook_mar (n : Nat) (e : BookEntry) : (setBook n e s).mar = s.mar := rfl
@[simp] theorem setBook_lnk (n : Nat) (e : BookEntry) : (setBook n e s).lnk = s.lnk := rfl
@[simp] theorem setBook_twn (n : Nat) (e : BookEntry) : (setBook n e s).twn = s.twn := rfl
@[simp] theorem setBook_wgh (n : Nat) (e : BookEntry) : (setBook n e s).wgh = s.wgh := rfl
@[simp] theorem setBook_lck (n : Nat) (e : BookEntry) : (setBook n e s).lck = s.lck := rfl
@[simp] theorem setBook_msix (n : Nat) (e : BookEntry) : (setBook n e s).msix = s.msix := rfl
@[simp] theorem setBook_evt (n : Nat) (e : BookEntry) : (setBook n e s).evt = s.evt := rfl
@[simp] theorem setBook_sah (n : Nat) (e : BookEntry) : (setBook n e s).sah = s.sah := rfl
@[simp] theorem setBook_fw (n : Nat) (e : BookEntry) : (setBook n e s).fw = s.fw := rfl
@[simp] theorem setBook_rst (n : Nat) (e : BookEntry) : (setBook n e s).rst = s.rst := rfl
@[simp] theorem setBook_ras (n : Nat) (e : BookEntry) : (setBook n e s).ras = s.ras := rfl
@[simp] theorem setBook_jtag (n : Nat) (e : BookEntry) : (setBook n e s).jtag = s.jtag := rfl

@[simp] theorem setStream_pending (n : Nat) (x : Stream) : (setStream n x s).pending = s.pending := rfl
@[simp] theorem setStream_out (n : Nat) (x : Stream) : (setStream n x s).out = s.out := rfl
@[simp] theorem setStream_now (n : Nat) (x : Stream) : (setStream n x s).now = s.now := rfl
@[simp] theorem setStream_fresh (n : Nat) (x : Stream) : (setStream n x s).fresh = s.fresh := rfl
@[simp] theorem setStream_asm (n : Nat) (x : Stream) : (setStream n x s).asm = s.asm := rfl
@[simp] theorem setStream_regs (n : Nat) (x : Stream) : (setStream n x s).regs = s.regs := rfl
@[simp] theorem setStream_store (n : Nat) (x : Stream) : (setStream n x s).store = s.store := rfl
@[simp] theorem setStream_storeBlobs (n : Nat) (x : Stream) : (setStream n x s).storeBlobs = s.storeBlobs := rfl
@[simp] theorem setStream_fuses (n : Nat) (x : Stream) : (setStream n x s).fuses = s.fuses := rfl
@[simp] theorem setStream_taken (n : Nat) (x : Stream) : (setStream n x s).taken = s.taken := rfl
@[simp] theorem setStream_ring (n : Nat) (x : Stream) : (setStream n x s).ring = s.ring := rfl
@[simp] theorem setStream_pga (n : Nat) (x : Stream) : (setStream n x s).pga = s.pga := rfl
@[simp] theorem setStream_cxl (n : Nat) (x : Stream) : (setStream n x s).cxl = s.cxl := rfl
@[simp] theorem setStream_ldg (n : Nat) (x : Stream) : (setStream n x s).ldg = s.ldg := rfl
@[simp] theorem setStream_mem (n : Nat) (x : Stream) : (setStream n x s).mem = s.mem := rfl
@[simp] theorem setStream_stk (n : Nat) (x : Stream) : (setStream n x s).stk = s.stk := rfl
@[simp] theorem setStream_tlb (n : Nat) (x : Stream) : (setStream n x s).tlb = s.tlb := rfl
@[simp] theorem setStream_cle (n : Nat) (x : Stream) : (setStream n x s).cle = s.cle := rfl
@[simp] theorem setStream_win (n : Nat) (x : Stream) : (setStream n x s).win = s.win := rfl
@[simp] theorem setStream_mar (n : Nat) (x : Stream) : (setStream n x s).mar = s.mar := rfl
@[simp] theorem setStream_lnk (n : Nat) (x : Stream) : (setStream n x s).lnk = s.lnk := rfl
@[simp] theorem setStream_twn (n : Nat) (x : Stream) : (setStream n x s).twn = s.twn := rfl
@[simp] theorem setStream_wgh (n : Nat) (x : Stream) : (setStream n x s).wgh = s.wgh := rfl
@[simp] theorem setStream_lck (n : Nat) (x : Stream) : (setStream n x s).lck = s.lck := rfl
@[simp] theorem setStream_msix (n : Nat) (x : Stream) : (setStream n x s).msix = s.msix := rfl
@[simp] theorem setStream_evt (n : Nat) (x : Stream) : (setStream n x s).evt = s.evt := rfl
@[simp] theorem setStream_sah (n : Nat) (x : Stream) : (setStream n x s).sah = s.sah := rfl
@[simp] theorem setStream_fw (n : Nat) (x : Stream) : (setStream n x s).fw = s.fw := rfl
@[simp] theorem setStream_rst (n : Nat) (x : Stream) : (setStream n x s).rst = s.rst := rfl
@[simp] theorem setStream_ras (n : Nat) (x : Stream) : (setStream n x s).ras = s.ras := rfl
@[simp] theorem setStream_jtag (n : Nat) (x : Stream) : (setStream n x s).jtag = s.jtag := rfl

@[simp] theorem setCtx_pending (n : Nat) (c : Ctx) : (setCtx n c s).pending = s.pending := rfl
@[simp] theorem setCtx_out (n : Nat) (c : Ctx) : (setCtx n c s).out = s.out := rfl
@[simp] theorem setCtx_now (n : Nat) (c : Ctx) : (setCtx n c s).now = s.now := rfl
@[simp] theorem setCtx_fresh (n : Nat) (c : Ctx) : (setCtx n c s).fresh = s.fresh := rfl
@[simp] theorem setCtx_asm (n : Nat) (c : Ctx) : (setCtx n c s).asm = s.asm := rfl
@[simp] theorem setCtx_regs (n : Nat) (c : Ctx) : (setCtx n c s).regs = s.regs := rfl
@[simp] theorem setCtx_store (n : Nat) (c : Ctx) : (setCtx n c s).store = s.store := rfl
@[simp] theorem setCtx_storeBlobs (n : Nat) (c : Ctx) : (setCtx n c s).storeBlobs = s.storeBlobs := rfl
@[simp] theorem setCtx_fuses (n : Nat) (c : Ctx) : (setCtx n c s).fuses = s.fuses := rfl
@[simp] theorem setCtx_taken (n : Nat) (c : Ctx) : (setCtx n c s).taken = s.taken := rfl
@[simp] theorem setCtx_ring (n : Nat) (c : Ctx) : (setCtx n c s).ring = s.ring := rfl
@[simp] theorem setCtx_pga (n : Nat) (c : Ctx) : (setCtx n c s).pga = s.pga := rfl
@[simp] theorem setCtx_cxl (n : Nat) (c : Ctx) : (setCtx n c s).cxl = s.cxl := rfl
@[simp] theorem setCtx_ldg (n : Nat) (c : Ctx) : (setCtx n c s).ldg = s.ldg := rfl
@[simp] theorem setCtx_car (n : Nat) (c : Ctx) : (setCtx n c s).car = s.car := rfl
@[simp] theorem setCtx_mem (n : Nat) (c : Ctx) : (setCtx n c s).mem = s.mem := rfl
@[simp] theorem setCtx_stk (n : Nat) (c : Ctx) : (setCtx n c s).stk = s.stk := rfl
@[simp] theorem setCtx_tlb (n : Nat) (c : Ctx) : (setCtx n c s).tlb = s.tlb := rfl
@[simp] theorem setCtx_win (n : Nat) (c : Ctx) : (setCtx n c s).win = s.win := rfl
@[simp] theorem setCtx_mar (n : Nat) (c : Ctx) : (setCtx n c s).mar = s.mar := rfl
@[simp] theorem setCtx_lnk (n : Nat) (c : Ctx) : (setCtx n c s).lnk = s.lnk := rfl
@[simp] theorem setCtx_twn (n : Nat) (c : Ctx) : (setCtx n c s).twn = s.twn := rfl
@[simp] theorem setCtx_wgh (n : Nat) (c : Ctx) : (setCtx n c s).wgh = s.wgh := rfl
@[simp] theorem setCtx_lck (n : Nat) (c : Ctx) : (setCtx n c s).lck = s.lck := rfl
@[simp] theorem setCtx_msix (n : Nat) (c : Ctx) : (setCtx n c s).msix = s.msix := rfl
@[simp] theorem setCtx_evt (n : Nat) (c : Ctx) : (setCtx n c s).evt = s.evt := rfl
@[simp] theorem setCtx_sah (n : Nat) (c : Ctx) : (setCtx n c s).sah = s.sah := rfl
@[simp] theorem setCtx_fw (n : Nat) (c : Ctx) : (setCtx n c s).fw = s.fw := rfl
@[simp] theorem setCtx_rst (n : Nat) (c : Ctx) : (setCtx n c s).rst = s.rst := rfl
@[simp] theorem setCtx_ras (n : Nat) (c : Ctx) : (setCtx n c s).ras = s.ras := rfl
@[simp] theorem setCtx_jtag (n : Nat) (c : Ctx) : (setCtx n c s).jtag = s.jtag := rfl

@[simp] theorem setStk_pending (f : Stk → Stk) : (setStk f s).pending = s.pending := rfl
@[simp] theorem setStk_out (f : Stk → Stk) : (setStk f s).out = s.out := rfl
@[simp] theorem setStk_now (f : Stk → Stk) : (setStk f s).now = s.now := rfl
@[simp] theorem setStk_fresh (f : Stk → Stk) : (setStk f s).fresh = s.fresh := rfl
@[simp] theorem setStk_asm (f : Stk → Stk) : (setStk f s).asm = s.asm := rfl
@[simp] theorem setStk_regs (f : Stk → Stk) : (setStk f s).regs = s.regs := rfl
@[simp] theorem setStk_store (f : Stk → Stk) : (setStk f s).store = s.store := rfl
@[simp] theorem setStk_storeBlobs (f : Stk → Stk) : (setStk f s).storeBlobs = s.storeBlobs := rfl
@[simp] theorem setStk_fuses (f : Stk → Stk) : (setStk f s).fuses = s.fuses := rfl
@[simp] theorem setStk_taken (f : Stk → Stk) : (setStk f s).taken = s.taken := rfl
@[simp] theorem setStk_ring (f : Stk → Stk) : (setStk f s).ring = s.ring := rfl
@[simp] theorem setStk_pga (f : Stk → Stk) : (setStk f s).pga = s.pga := rfl
@[simp] theorem setStk_cxl (f : Stk → Stk) : (setStk f s).cxl = s.cxl := rfl
@[simp] theorem setStk_ldg (f : Stk → Stk) : (setStk f s).ldg = s.ldg := rfl
@[simp] theorem setStk_car (f : Stk → Stk) : (setStk f s).car = s.car := rfl
@[simp] theorem setStk_mem (f : Stk → Stk) : (setStk f s).mem = s.mem := rfl
@[simp] theorem setStk_tlb (f : Stk → Stk) : (setStk f s).tlb = s.tlb := rfl
@[simp] theorem setStk_cle (f : Stk → Stk) : (setStk f s).cle = s.cle := rfl
@[simp] theorem setStk_win (f : Stk → Stk) : (setStk f s).win = s.win := rfl
@[simp] theorem setStk_mar (f : Stk → Stk) : (setStk f s).mar = s.mar := rfl
@[simp] theorem setStk_lnk (f : Stk → Stk) : (setStk f s).lnk = s.lnk := rfl
@[simp] theorem setStk_twn (f : Stk → Stk) : (setStk f s).twn = s.twn := rfl
@[simp] theorem setStk_wgh (f : Stk → Stk) : (setStk f s).wgh = s.wgh := rfl
@[simp] theorem setStk_lck (f : Stk → Stk) : (setStk f s).lck = s.lck := rfl
@[simp] theorem setStk_msix (f : Stk → Stk) : (setStk f s).msix = s.msix := rfl
@[simp] theorem setStk_evt (f : Stk → Stk) : (setStk f s).evt = s.evt := rfl
@[simp] theorem setStk_sah (f : Stk → Stk) : (setStk f s).sah = s.sah := rfl
@[simp] theorem setStk_fw (f : Stk → Stk) : (setStk f s).fw = s.fw := rfl
@[simp] theorem setStk_rst (f : Stk → Stk) : (setStk f s).rst = s.rst := rfl
@[simp] theorem setStk_ras (f : Stk → Stk) : (setStk f s).ras = s.ras := rfl
@[simp] theorem setStk_jtag (f : Stk → Stk) : (setStk f s).jtag = s.jtag := rfl

@[simp] theorem setStack_pending (k : Nat) (x : Stack) : (setStack k x s).pending = s.pending := rfl
@[simp] theorem setStack_out (k : Nat) (x : Stack) : (setStack k x s).out = s.out := rfl
@[simp] theorem setStack_now (k : Nat) (x : Stack) : (setStack k x s).now = s.now := rfl
@[simp] theorem setStack_fresh (k : Nat) (x : Stack) : (setStack k x s).fresh = s.fresh := rfl
@[simp] theorem setStack_asm (k : Nat) (x : Stack) : (setStack k x s).asm = s.asm := rfl
@[simp] theorem setStack_regs (k : Nat) (x : Stack) : (setStack k x s).regs = s.regs := rfl
@[simp] theorem setStack_store (k : Nat) (x : Stack) : (setStack k x s).store = s.store := rfl
@[simp] theorem setStack_storeBlobs (k : Nat) (x : Stack) : (setStack k x s).storeBlobs = s.storeBlobs := rfl
@[simp] theorem setStack_fuses (k : Nat) (x : Stack) : (setStack k x s).fuses = s.fuses := rfl
@[simp] theorem setStack_taken (k : Nat) (x : Stack) : (setStack k x s).taken = s.taken := rfl
@[simp] theorem setStack_ring (k : Nat) (x : Stack) : (setStack k x s).ring = s.ring := rfl
@[simp] theorem setStack_pga (k : Nat) (x : Stack) : (setStack k x s).pga = s.pga := rfl
@[simp] theorem setStack_cxl (k : Nat) (x : Stack) : (setStack k x s).cxl = s.cxl := rfl
@[simp] theorem setStack_ldg (k : Nat) (x : Stack) : (setStack k x s).ldg = s.ldg := rfl
@[simp] theorem setStack_car (k : Nat) (x : Stack) : (setStack k x s).car = s.car := rfl
@[simp] theorem setStack_stk (k : Nat) (x : Stack) : (setStack k x s).stk = s.stk := rfl
@[simp] theorem setStack_tlb (k : Nat) (x : Stack) : (setStack k x s).tlb = s.tlb := rfl
@[simp] theorem setStack_cle (k : Nat) (x : Stack) : (setStack k x s).cle = s.cle := rfl
@[simp] theorem setStack_win (k : Nat) (x : Stack) : (setStack k x s).win = s.win := rfl
@[simp] theorem setStack_mar (k : Nat) (x : Stack) : (setStack k x s).mar = s.mar := rfl
@[simp] theorem setStack_lnk (k : Nat) (x : Stack) : (setStack k x s).lnk = s.lnk := rfl
@[simp] theorem setStack_twn (k : Nat) (x : Stack) : (setStack k x s).twn = s.twn := rfl
@[simp] theorem setStack_wgh (k : Nat) (x : Stack) : (setStack k x s).wgh = s.wgh := rfl
@[simp] theorem setStack_lck (k : Nat) (x : Stack) : (setStack k x s).lck = s.lck := rfl
@[simp] theorem setStack_msix (k : Nat) (x : Stack) : (setStack k x s).msix = s.msix := rfl
@[simp] theorem setStack_evt (k : Nat) (x : Stack) : (setStack k x s).evt = s.evt := rfl
@[simp] theorem setStack_sah (k : Nat) (x : Stack) : (setStack k x s).sah = s.sah := rfl
@[simp] theorem setStack_fw (k : Nat) (x : Stack) : (setStack k x s).fw = s.fw := rfl
@[simp] theorem setStack_rst (k : Nat) (x : Stack) : (setStack k x s).rst = s.rst := rfl
@[simp] theorem setStack_ras (k : Nat) (x : Stack) : (setStack k x s).ras = s.ras := rfl
@[simp] theorem setStack_jtag (k : Nat) (x : Stack) : (setStack k x s).jtag = s.jtag := rfl

@[simp] theorem setTxn_pending (n : Nat) (t : Txn) : (setTxn n t s).pending = s.pending := rfl
@[simp] theorem setTxn_out (n : Nat) (t : Txn) : (setTxn n t s).out = s.out := rfl
@[simp] theorem setTxn_now (n : Nat) (t : Txn) : (setTxn n t s).now = s.now := rfl
@[simp] theorem setTxn_fresh (n : Nat) (t : Txn) : (setTxn n t s).fresh = s.fresh := rfl
@[simp] theorem setTxn_asm (n : Nat) (t : Txn) : (setTxn n t s).asm = s.asm := rfl
@[simp] theorem setTxn_regs (n : Nat) (t : Txn) : (setTxn n t s).regs = s.regs := rfl
@[simp] theorem setTxn_store (n : Nat) (t : Txn) : (setTxn n t s).store = s.store := rfl
@[simp] theorem setTxn_storeBlobs (n : Nat) (t : Txn) : (setTxn n t s).storeBlobs = s.storeBlobs := rfl
@[simp] theorem setTxn_fuses (n : Nat) (t : Txn) : (setTxn n t s).fuses = s.fuses := rfl
@[simp] theorem setTxn_taken (n : Nat) (t : Txn) : (setTxn n t s).taken = s.taken := rfl
@[simp] theorem setTxn_ring (n : Nat) (t : Txn) : (setTxn n t s).ring = s.ring := rfl
@[simp] theorem setTxn_pga (n : Nat) (t : Txn) : (setTxn n t s).pga = s.pga := rfl
@[simp] theorem setTxn_cxl (n : Nat) (t : Txn) : (setTxn n t s).cxl = s.cxl := rfl
@[simp] theorem setTxn_car (n : Nat) (t : Txn) : (setTxn n t s).car = s.car := rfl
@[simp] theorem setTxn_mem (n : Nat) (t : Txn) : (setTxn n t s).mem = s.mem := rfl
@[simp] theorem setTxn_stk (n : Nat) (t : Txn) : (setTxn n t s).stk = s.stk := rfl
@[simp] theorem setTxn_tlb (n : Nat) (t : Txn) : (setTxn n t s).tlb = s.tlb := rfl
@[simp] theorem setTxn_cle (n : Nat) (t : Txn) : (setTxn n t s).cle = s.cle := rfl
@[simp] theorem setTxn_win (n : Nat) (t : Txn) : (setTxn n t s).win = s.win := rfl
@[simp] theorem setTxn_mar (n : Nat) (t : Txn) : (setTxn n t s).mar = s.mar := rfl
@[simp] theorem setTxn_lnk (n : Nat) (t : Txn) : (setTxn n t s).lnk = s.lnk := rfl
@[simp] theorem setTxn_twn (n : Nat) (t : Txn) : (setTxn n t s).twn = s.twn := rfl
@[simp] theorem setTxn_wgh (n : Nat) (t : Txn) : (setTxn n t s).wgh = s.wgh := rfl
@[simp] theorem setTxn_lck (n : Nat) (t : Txn) : (setTxn n t s).lck = s.lck := rfl
@[simp] theorem setTxn_msix (n : Nat) (t : Txn) : (setTxn n t s).msix = s.msix := rfl
@[simp] theorem setTxn_evt (n : Nat) (t : Txn) : (setTxn n t s).evt = s.evt := rfl
@[simp] theorem setTxn_sah (n : Nat) (t : Txn) : (setTxn n t s).sah = s.sah := rfl
@[simp] theorem setTxn_fw (n : Nat) (t : Txn) : (setTxn n t s).fw = s.fw := rfl
@[simp] theorem setTxn_rst (n : Nat) (t : Txn) : (setTxn n t s).rst = s.rst := rfl
@[simp] theorem setTxn_ras (n : Nat) (t : Txn) : (setTxn n t s).ras = s.ras := rfl
@[simp] theorem setTxn_jtag (n : Nat) (t : Txn) : (setTxn n t s).jtag = s.jtag := rfl

@[simp] theorem setFrame_pending (b : Nat) (f : Frame) : (setFrame b f s).pending = s.pending := rfl
@[simp] theorem setFrame_out (b : Nat) (f : Frame) : (setFrame b f s).out = s.out := rfl
@[simp] theorem setFrame_now (b : Nat) (f : Frame) : (setFrame b f s).now = s.now := rfl
@[simp] theorem setFrame_fresh (b : Nat) (f : Frame) : (setFrame b f s).fresh = s.fresh := rfl
@[simp] theorem setFrame_asm (b : Nat) (f : Frame) : (setFrame b f s).asm = s.asm := rfl
@[simp] theorem setFrame_regs (b : Nat) (f : Frame) : (setFrame b f s).regs = s.regs := rfl
@[simp] theorem setFrame_store (b : Nat) (f : Frame) : (setFrame b f s).store = s.store := rfl
@[simp] theorem setFrame_storeBlobs (b : Nat) (f : Frame) : (setFrame b f s).storeBlobs = s.storeBlobs := rfl
@[simp] theorem setFrame_fuses (b : Nat) (f : Frame) : (setFrame b f s).fuses = s.fuses := rfl
@[simp] theorem setFrame_taken (b : Nat) (f : Frame) : (setFrame b f s).taken = s.taken := rfl
@[simp] theorem setFrame_ring (b : Nat) (f : Frame) : (setFrame b f s).ring = s.ring := rfl
@[simp] theorem setFrame_pga (b : Nat) (f : Frame) : (setFrame b f s).pga = s.pga := rfl
@[simp] theorem setFrame_cxl (b : Nat) (f : Frame) : (setFrame b f s).cxl = s.cxl := rfl
@[simp] theorem setFrame_ldg (b : Nat) (f : Frame) : (setFrame b f s).ldg = s.ldg := rfl
@[simp] theorem setFrame_mem (b : Nat) (f : Frame) : (setFrame b f s).mem = s.mem := rfl
@[simp] theorem setFrame_stk (b : Nat) (f : Frame) : (setFrame b f s).stk = s.stk := rfl
@[simp] theorem setFrame_tlb (b : Nat) (f : Frame) : (setFrame b f s).tlb = s.tlb := rfl
@[simp] theorem setFrame_cle (b : Nat) (f : Frame) : (setFrame b f s).cle = s.cle := rfl
@[simp] theorem setFrame_win (b : Nat) (f : Frame) : (setFrame b f s).win = s.win := rfl
@[simp] theorem setFrame_mar (b : Nat) (f : Frame) : (setFrame b f s).mar = s.mar := rfl
@[simp] theorem setFrame_lnk (b : Nat) (f : Frame) : (setFrame b f s).lnk = s.lnk := rfl
@[simp] theorem setFrame_twn (b : Nat) (f : Frame) : (setFrame b f s).twn = s.twn := rfl
@[simp] theorem setFrame_wgh (b : Nat) (f : Frame) : (setFrame b f s).wgh = s.wgh := rfl
@[simp] theorem setFrame_lck (b : Nat) (f : Frame) : (setFrame b f s).lck = s.lck := rfl
@[simp] theorem setFrame_msix (b : Nat) (f : Frame) : (setFrame b f s).msix = s.msix := rfl
@[simp] theorem setFrame_evt (b : Nat) (f : Frame) : (setFrame b f s).evt = s.evt := rfl
@[simp] theorem setFrame_sah (b : Nat) (f : Frame) : (setFrame b f s).sah = s.sah := rfl
@[simp] theorem setFrame_fw (b : Nat) (f : Frame) : (setFrame b f s).fw = s.fw := rfl
@[simp] theorem setFrame_rst (b : Nat) (f : Frame) : (setFrame b f s).rst = s.rst := rfl
@[simp] theorem setFrame_ras (b : Nat) (f : Frame) : (setFrame b f s).ras = s.ras := rfl
@[simp] theorem setFrame_jtag (b : Nat) (f : Frame) : (setFrame b f s).jtag = s.jtag := rfl

@[simp] theorem setSched_pending (k : Nat) (x : Sched) : (setSched k x s).pending = s.pending := rfl
@[simp] theorem setSched_out (k : Nat) (x : Sched) : (setSched k x s).out = s.out := rfl
@[simp] theorem setSched_now (k : Nat) (x : Sched) : (setSched k x s).now = s.now := rfl
@[simp] theorem setSched_fresh (k : Nat) (x : Sched) : (setSched k x s).fresh = s.fresh := rfl
@[simp] theorem setSched_asm (k : Nat) (x : Sched) : (setSched k x s).asm = s.asm := rfl
@[simp] theorem setSched_regs (k : Nat) (x : Sched) : (setSched k x s).regs = s.regs := rfl
@[simp] theorem setSched_store (k : Nat) (x : Sched) : (setSched k x s).store = s.store := rfl
@[simp] theorem setSched_storeBlobs (k : Nat) (x : Sched) : (setSched k x s).storeBlobs = s.storeBlobs := rfl
@[simp] theorem setSched_fuses (k : Nat) (x : Sched) : (setSched k x s).fuses = s.fuses := rfl
@[simp] theorem setSched_taken (k : Nat) (x : Sched) : (setSched k x s).taken = s.taken := rfl
@[simp] theorem setSched_ring (k : Nat) (x : Sched) : (setSched k x s).ring = s.ring := rfl
@[simp] theorem setSched_pga (k : Nat) (x : Sched) : (setSched k x s).pga = s.pga := rfl
@[simp] theorem setSched_cxl (k : Nat) (x : Sched) : (setSched k x s).cxl = s.cxl := rfl
@[simp] theorem setSched_ldg (k : Nat) (x : Sched) : (setSched k x s).ldg = s.ldg := rfl
@[simp] theorem setSched_car (k : Nat) (x : Sched) : (setSched k x s).car = s.car := rfl
@[simp] theorem setSched_mem (k : Nat) (x : Sched) : (setSched k x s).mem = s.mem := rfl
@[simp] theorem setSched_stk (k : Nat) (x : Sched) : (setSched k x s).stk = s.stk := rfl
@[simp] theorem setSched_tlb (k : Nat) (x : Sched) : (setSched k x s).tlb = s.tlb := rfl
@[simp] theorem setSched_cle (k : Nat) (x : Sched) : (setSched k x s).cle = s.cle := rfl
@[simp] theorem setSched_win (k : Nat) (x : Sched) : (setSched k x s).win = s.win := rfl
@[simp] theorem setSched_mar (k : Nat) (x : Sched) : (setSched k x s).mar = s.mar := rfl
@[simp] theorem setSched_lnk (k : Nat) (x : Sched) : (setSched k x s).lnk = s.lnk := rfl
@[simp] theorem setSched_twn (k : Nat) (x : Sched) : (setSched k x s).twn = s.twn := rfl
@[simp] theorem setSched_lck (k : Nat) (x : Sched) : (setSched k x s).lck = s.lck := rfl
@[simp] theorem setSched_msix (k : Nat) (x : Sched) : (setSched k x s).msix = s.msix := rfl
@[simp] theorem setSched_evt (k : Nat) (x : Sched) : (setSched k x s).evt = s.evt := rfl
@[simp] theorem setSched_sah (k : Nat) (x : Sched) : (setSched k x s).sah = s.sah := rfl
@[simp] theorem setSched_fw (k : Nat) (x : Sched) : (setSched k x s).fw = s.fw := rfl
@[simp] theorem setSched_rst (k : Nat) (x : Sched) : (setSched k x s).rst = s.rst := rfl
@[simp] theorem setSched_ras (k : Nat) (x : Sched) : (setSched k x s).ras = s.ras := rfl
@[simp] theorem setSched_jtag (k : Nat) (x : Sched) : (setSched k x s).jtag = s.jtag := rfl

@[simp] theorem setTwin_pending (n : Nat) (t : Twin) : (setTwin n t s).pending = s.pending := rfl
@[simp] theorem setTwin_out (n : Nat) (t : Twin) : (setTwin n t s).out = s.out := rfl
@[simp] theorem setTwin_now (n : Nat) (t : Twin) : (setTwin n t s).now = s.now := rfl
@[simp] theorem setTwin_fresh (n : Nat) (t : Twin) : (setTwin n t s).fresh = s.fresh := rfl
@[simp] theorem setTwin_asm (n : Nat) (t : Twin) : (setTwin n t s).asm = s.asm := rfl
@[simp] theorem setTwin_regs (n : Nat) (t : Twin) : (setTwin n t s).regs = s.regs := rfl
@[simp] theorem setTwin_store (n : Nat) (t : Twin) : (setTwin n t s).store = s.store := rfl
@[simp] theorem setTwin_storeBlobs (n : Nat) (t : Twin) : (setTwin n t s).storeBlobs = s.storeBlobs := rfl
@[simp] theorem setTwin_fuses (n : Nat) (t : Twin) : (setTwin n t s).fuses = s.fuses := rfl
@[simp] theorem setTwin_taken (n : Nat) (t : Twin) : (setTwin n t s).taken = s.taken := rfl
@[simp] theorem setTwin_ring (n : Nat) (t : Twin) : (setTwin n t s).ring = s.ring := rfl
@[simp] theorem setTwin_pga (n : Nat) (t : Twin) : (setTwin n t s).pga = s.pga := rfl
@[simp] theorem setTwin_cxl (n : Nat) (t : Twin) : (setTwin n t s).cxl = s.cxl := rfl
@[simp] theorem setTwin_ldg (n : Nat) (t : Twin) : (setTwin n t s).ldg = s.ldg := rfl
@[simp] theorem setTwin_car (n : Nat) (t : Twin) : (setTwin n t s).car = s.car := rfl
@[simp] theorem setTwin_mem (n : Nat) (t : Twin) : (setTwin n t s).mem = s.mem := rfl
@[simp] theorem setTwin_stk (n : Nat) (t : Twin) : (setTwin n t s).stk = s.stk := rfl
@[simp] theorem setTwin_tlb (n : Nat) (t : Twin) : (setTwin n t s).tlb = s.tlb := rfl
@[simp] theorem setTwin_cle (n : Nat) (t : Twin) : (setTwin n t s).cle = s.cle := rfl
@[simp] theorem setTwin_win (n : Nat) (t : Twin) : (setTwin n t s).win = s.win := rfl
@[simp] theorem setTwin_mar (n : Nat) (t : Twin) : (setTwin n t s).mar = s.mar := rfl
@[simp] theorem setTwin_lnk (n : Nat) (t : Twin) : (setTwin n t s).lnk = s.lnk := rfl
@[simp] theorem setTwin_wgh (n : Nat) (t : Twin) : (setTwin n t s).wgh = s.wgh := rfl
@[simp] theorem setTwin_lck (n : Nat) (t : Twin) : (setTwin n t s).lck = s.lck := rfl
@[simp] theorem setTwin_msix (n : Nat) (t : Twin) : (setTwin n t s).msix = s.msix := rfl
@[simp] theorem setTwin_evt (n : Nat) (t : Twin) : (setTwin n t s).evt = s.evt := rfl
@[simp] theorem setTwin_sah (n : Nat) (t : Twin) : (setTwin n t s).sah = s.sah := rfl
@[simp] theorem setTwin_fw (n : Nat) (t : Twin) : (setTwin n t s).fw = s.fw := rfl
@[simp] theorem setTwin_rst (n : Nat) (t : Twin) : (setTwin n t s).rst = s.rst := rfl
@[simp] theorem setTwin_ras (n : Nat) (t : Twin) : (setTwin n t s).ras = s.ras := rfl
@[simp] theorem setTwin_jtag (n : Nat) (t : Twin) : (setTwin n t s).jtag = s.jtag := rfl

@[simp] theorem setWin_pending (n : Nat) (w : Win) : (setWin n w s).pending = s.pending := rfl
@[simp] theorem setWin_out (n : Nat) (w : Win) : (setWin n w s).out = s.out := rfl
@[simp] theorem setWin_now (n : Nat) (w : Win) : (setWin n w s).now = s.now := rfl
@[simp] theorem setWin_fresh (n : Nat) (w : Win) : (setWin n w s).fresh = s.fresh := rfl
@[simp] theorem setWin_asm (n : Nat) (w : Win) : (setWin n w s).asm = s.asm := rfl
@[simp] theorem setWin_regs (n : Nat) (w : Win) : (setWin n w s).regs = s.regs := rfl
@[simp] theorem setWin_store (n : Nat) (w : Win) : (setWin n w s).store = s.store := rfl
@[simp] theorem setWin_storeBlobs (n : Nat) (w : Win) : (setWin n w s).storeBlobs = s.storeBlobs := rfl
@[simp] theorem setWin_fuses (n : Nat) (w : Win) : (setWin n w s).fuses = s.fuses := rfl
@[simp] theorem setWin_taken (n : Nat) (w : Win) : (setWin n w s).taken = s.taken := rfl
@[simp] theorem setWin_ring (n : Nat) (w : Win) : (setWin n w s).ring = s.ring := rfl
@[simp] theorem setWin_pga (n : Nat) (w : Win) : (setWin n w s).pga = s.pga := rfl
@[simp] theorem setWin_cxl (n : Nat) (w : Win) : (setWin n w s).cxl = s.cxl := rfl
@[simp] theorem setWin_ldg (n : Nat) (w : Win) : (setWin n w s).ldg = s.ldg := rfl
@[simp] theorem setWin_car (n : Nat) (w : Win) : (setWin n w s).car = s.car := rfl
@[simp] theorem setWin_mem (n : Nat) (w : Win) : (setWin n w s).mem = s.mem := rfl
@[simp] theorem setWin_stk (n : Nat) (w : Win) : (setWin n w s).stk = s.stk := rfl
@[simp] theorem setWin_tlb (n : Nat) (w : Win) : (setWin n w s).tlb = s.tlb := rfl
@[simp] theorem setWin_cle (n : Nat) (w : Win) : (setWin n w s).cle = s.cle := rfl
@[simp] theorem setWin_mar (n : Nat) (w : Win) : (setWin n w s).mar = s.mar := rfl
@[simp] theorem setWin_lnk (n : Nat) (w : Win) : (setWin n w s).lnk = s.lnk := rfl
@[simp] theorem setWin_twn (n : Nat) (w : Win) : (setWin n w s).twn = s.twn := rfl
@[simp] theorem setWin_wgh (n : Nat) (w : Win) : (setWin n w s).wgh = s.wgh := rfl
@[simp] theorem setWin_lck (n : Nat) (w : Win) : (setWin n w s).lck = s.lck := rfl
@[simp] theorem setWin_msix (n : Nat) (w : Win) : (setWin n w s).msix = s.msix := rfl
@[simp] theorem setWin_evt (n : Nat) (w : Win) : (setWin n w s).evt = s.evt := rfl
@[simp] theorem setWin_sah (n : Nat) (w : Win) : (setWin n w s).sah = s.sah := rfl
@[simp] theorem setWin_fw (n : Nat) (w : Win) : (setWin n w s).fw = s.fw := rfl
@[simp] theorem setWin_rst (n : Nat) (w : Win) : (setWin n w s).rst = s.rst := rfl
@[simp] theorem setWin_ras (n : Nat) (w : Win) : (setWin n w s).ras = s.ras := rfl
@[simp] theorem setWin_jtag (n : Nat) (w : Win) : (setWin n w s).jtag = s.jtag := rfl

@[simp] theorem setSic_pending (c : Nat) (k : Sic) : (setSic c k s).pending = s.pending := rfl
@[simp] theorem setSic_out (c : Nat) (k : Sic) : (setSic c k s).out = s.out := rfl
@[simp] theorem setSic_now (c : Nat) (k : Sic) : (setSic c k s).now = s.now := rfl
@[simp] theorem setSic_fresh (c : Nat) (k : Sic) : (setSic c k s).fresh = s.fresh := rfl
@[simp] theorem setSic_asm (c : Nat) (k : Sic) : (setSic c k s).asm = s.asm := rfl
@[simp] theorem setSic_regs (c : Nat) (k : Sic) : (setSic c k s).regs = s.regs := rfl
@[simp] theorem setSic_store (c : Nat) (k : Sic) : (setSic c k s).store = s.store := rfl
@[simp] theorem setSic_storeBlobs (c : Nat) (k : Sic) : (setSic c k s).storeBlobs = s.storeBlobs := rfl
@[simp] theorem setSic_fuses (c : Nat) (k : Sic) : (setSic c k s).fuses = s.fuses := rfl
@[simp] theorem setSic_taken (c : Nat) (k : Sic) : (setSic c k s).taken = s.taken := rfl
@[simp] theorem setSic_ring (c : Nat) (k : Sic) : (setSic c k s).ring = s.ring := rfl
@[simp] theorem setSic_pga (c : Nat) (k : Sic) : (setSic c k s).pga = s.pga := rfl
@[simp] theorem setSic_cxl (c : Nat) (k : Sic) : (setSic c k s).cxl = s.cxl := rfl
@[simp] theorem setSic_ldg (c : Nat) (k : Sic) : (setSic c k s).ldg = s.ldg := rfl
@[simp] theorem setSic_car (c : Nat) (k : Sic) : (setSic c k s).car = s.car := rfl
@[simp] theorem setSic_mem (c : Nat) (k : Sic) : (setSic c k s).mem = s.mem := rfl
@[simp] theorem setSic_stk (c : Nat) (k : Sic) : (setSic c k s).stk = s.stk := rfl
@[simp] theorem setSic_tlb (c : Nat) (k : Sic) : (setSic c k s).tlb = s.tlb := rfl
@[simp] theorem setSic_cle (c : Nat) (k : Sic) : (setSic c k s).cle = s.cle := rfl
@[simp] theorem setSic_win (c : Nat) (k : Sic) : (setSic c k s).win = s.win := rfl
@[simp] theorem setSic_mar (c : Nat) (k : Sic) : (setSic c k s).mar = s.mar := rfl
@[simp] theorem setSic_lnk (c : Nat) (k : Sic) : (setSic c k s).lnk = s.lnk := rfl
@[simp] theorem setSic_twn (c : Nat) (k : Sic) : (setSic c k s).twn = s.twn := rfl
@[simp] theorem setSic_wgh (c : Nat) (k : Sic) : (setSic c k s).wgh = s.wgh := rfl
@[simp] theorem setSic_lck (c : Nat) (k : Sic) : (setSic c k s).lck = s.lck := rfl
@[simp] theorem setSic_msix (c : Nat) (k : Sic) : (setSic c k s).msix = s.msix := rfl
@[simp] theorem setSic_sah (c : Nat) (k : Sic) : (setSic c k s).sah = s.sah := rfl
@[simp] theorem setSic_fw (c : Nat) (k : Sic) : (setSic c k s).fw = s.fw := rfl
@[simp] theorem setSic_rst (c : Nat) (k : Sic) : (setSic c k s).rst = s.rst := rfl
@[simp] theorem setSic_ras (c : Nat) (k : Sic) : (setSic c k s).ras = s.ras := rfl
@[simp] theorem setSic_jtag (c : Nat) (k : Sic) : (setSic c k s).jtag = s.jtag := rfl

@[simp] theorem latchAlert_pending (i : Nat) : (latchAlert i s).pending = s.pending := rfl
@[simp] theorem latchAlert_out (i : Nat) : (latchAlert i s).out = s.out := rfl
@[simp] theorem latchAlert_now (i : Nat) : (latchAlert i s).now = s.now := rfl
@[simp] theorem latchAlert_fresh (i : Nat) : (latchAlert i s).fresh = s.fresh := rfl
@[simp] theorem latchAlert_asm (i : Nat) : (latchAlert i s).asm = s.asm := rfl
@[simp] theorem latchAlert_regs (i : Nat) : (latchAlert i s).regs = s.regs := rfl
@[simp] theorem latchAlert_store (i : Nat) : (latchAlert i s).store = s.store := rfl
@[simp] theorem latchAlert_storeBlobs (i : Nat) : (latchAlert i s).storeBlobs = s.storeBlobs := rfl
@[simp] theorem latchAlert_fuses (i : Nat) : (latchAlert i s).fuses = s.fuses := rfl
@[simp] theorem latchAlert_taken (i : Nat) : (latchAlert i s).taken = s.taken := rfl
@[simp] theorem latchAlert_ring (i : Nat) : (latchAlert i s).ring = s.ring := rfl
@[simp] theorem latchAlert_pga (i : Nat) : (latchAlert i s).pga = s.pga := rfl
@[simp] theorem latchAlert_ldg (i : Nat) : (latchAlert i s).ldg = s.ldg := rfl
@[simp] theorem latchAlert_car (i : Nat) : (latchAlert i s).car = s.car := rfl
@[simp] theorem latchAlert_mem (i : Nat) : (latchAlert i s).mem = s.mem := rfl
@[simp] theorem latchAlert_stk (i : Nat) : (latchAlert i s).stk = s.stk := rfl
@[simp] theorem latchAlert_tlb (i : Nat) : (latchAlert i s).tlb = s.tlb := rfl
@[simp] theorem latchAlert_cle (i : Nat) : (latchAlert i s).cle = s.cle := rfl
@[simp] theorem latchAlert_win (i : Nat) : (latchAlert i s).win = s.win := rfl
@[simp] theorem latchAlert_mar (i : Nat) : (latchAlert i s).mar = s.mar := rfl
@[simp] theorem latchAlert_lnk (i : Nat) : (latchAlert i s).lnk = s.lnk := rfl
@[simp] theorem latchAlert_twn (i : Nat) : (latchAlert i s).twn = s.twn := rfl
@[simp] theorem latchAlert_wgh (i : Nat) : (latchAlert i s).wgh = s.wgh := rfl
@[simp] theorem latchAlert_lck (i : Nat) : (latchAlert i s).lck = s.lck := rfl
@[simp] theorem latchAlert_msix (i : Nat) : (latchAlert i s).msix = s.msix := rfl
@[simp] theorem latchAlert_evt (i : Nat) : (latchAlert i s).evt = s.evt := rfl
@[simp] theorem latchAlert_sah (i : Nat) : (latchAlert i s).sah = s.sah := rfl
@[simp] theorem latchAlert_fw (i : Nat) : (latchAlert i s).fw = s.fw := rfl
@[simp] theorem latchAlert_rst (i : Nat) : (latchAlert i s).rst = s.rst := rfl
@[simp] theorem latchAlert_ras (i : Nat) : (latchAlert i s).ras = s.ras := rfl
@[simp] theorem latchAlert_jtag (i : Nat) : (latchAlert i s).jtag = s.jtag := rfl

end Sys2Proof.Machine
end

