-- ==== Sys2Proof/Laws/Ops.lean ====
section
/-! SUPPORT. What each shared operation can do, said once: the parts of the state it may change. -/
namespace Sys2Proof.Machine

variable {s : State}

/-- Running an operation over a list keeps a property that each application keeps. -/
theorem each_induct {α : Type} {P : State → Prop} {f : α → State → State} {l : List α} (h : P s)
    (hf : ∀ a ∈ l, ∀ t, P t → P (f a t)) : P (each l f s) := by
  unfold each
  induction l generalizing s with
  | nil => exact h
  | cons a l ih =>
    simp only [List.foldl_cons]
    exact ih (hf a List.mem_cons_self s h) fun b hb => hf b (List.mem_cons_of_mem a hb)

/-- Sending a frame changes what has been sent and the frame count. -/
theorem sendFrame_eq (e : Emit) : ∃ sah, sendFrame e s = { s with out := e :: s.out, sah := sah } := ⟨_, rfl⟩

/-- Raising an event changes the event engine alone. -/
theorem raise_eq (code sev : Nat) (part : Option Nat) (detail : Bytes) : ∃ evt, raise code sev part detail s = { s with evt := evt } := by
  unfold raise; split <;> exact ⟨_, rfl⟩

/-- An event that finds room is queued behind the ones that wait (R500). -/
theorem raise_queued {code sev : Nat} {part : Option Nat} {detail : Bytes} (h : s.evt.queue.length < 4096) :
    (raise code sev part detail s).evt.queue =
      s.evt.queue ++ [{ code := code, severity := sev, part := part, time := s.now, detail := pad48 detail }] := by
  unfold raise; rw [if_pos h]

/-- Counting an error changes the error counts alone. -/
theorem countError_eq (k c : Nat) : ∃ ras, countError k c s = { s with ras := ras } := ⟨_, rfl⟩

/-- What happens between a request and its answer touches only what is sent and Sahtin's own state. -/
def Answers (s t : State) : Prop := ∃ out sah, t = { s with out := out, sah := sah }

theorem Answers.refl : Answers s s := ⟨_, _, rfl⟩

theorem Answers.trans {t u : State} (h : Answers s t) (k : Answers t u) : Answers s u := by
  obtain ⟨_, _, rfl⟩ := h; obtain ⟨_, _, rfl⟩ := k; exact ⟨_, _, rfl⟩

theorem sendFrame_answers (e : Emit) : Answers s (sendFrame e s) := ⟨_, _, rfl⟩

theorem setSession_answers (n : Nat) (x : Session) : Answers s (setSession n x s) := ⟨_, _, rfl⟩

theorem each_answers {α : Type} {f : α → State → State} (l : List α) (hf : ∀ a t, Answers t (f a t)) : Answers s (each l f s) :=
  each_induct (P := Answers s) Answers.refl fun a _ t ht => ht.trans (hf a t)

theorem acceptOverdue_answers (n : Nat) : Answers s (acceptOverdue n s) := by
  unfold acceptOverdue
  split
  · exact Answers.refl
  · exact (setSession_answers _ _).trans (each_answers _ fun _ _ => sendFrame_answers _)

theorem refuse_answers (q : Ask) (st : Nat) : Answers s (refuse q st s) := by
  unfold refuse
  split
  · exact Answers.refl
  · exact (setSession_answers _ _).trans (sendFrame_answers _)

theorem reply_answers (q : Ask) (st n : Nat) (b : Bytes) : Answers s (reply q st n b s) := by
  unfold reply
  split
  · exact Answers.refl
  · exact (setSession_answers _ _).trans (sendFrame_answers _)

theorem setStatus_answers (k v : Nat) : Answers s (setStatus k v s) := ⟨_, _, rfl⟩

/-- Answering a request changes only what is sent and Sahtin's own state. -/
theorem finish_answers (q : Ask) (k st : Nat) (b : Bytes) : Answers s (finish q k st b s) := by
  unfold finish
  refine (setStatus_answers k st).trans ((acceptOverdue_answers q.sid).trans ?_)
  dsimp only
  split
  · exact Answers.refl
  · split <;> exact (setSession_answers _ _).trans (sendFrame_answers _)

/-- A request is turned away with an answer at most, or its action runs on a state that differs in Sahtin's part and what is sent. -/
theorem ask_cases (q : Ask) (roles key : Nat) (ch : Bool) (act : Session → State → State) :
    Answers s (ask q roles key ch act s) ∨ ∃ x t, Answers s t ∧ ask q roles key ch act s = act x t := by
  unfold ask
  split
  · exact .inl Answers.refl
  · split
    · exact .inl Answers.refl
    · next x hx =>
      have h : Answers s (acceptOverdue q.sid (setSession q.sid { x with lastAt := s.now } s)) :=
        (setSession_answers _ _).trans (acceptOverdue_answers _)
      dsimp only
      split
      · exact .inl (h.trans (sendFrame_answers _))
      · repeat' split
        all_goals first
          | exact .inl h
          | exact .inl (h.trans (sendFrame_answers _))
          | exact .inl (h.trans (refuse_answers _ _))
          | exact .inr ⟨_, _, h.trans (setSession_answers _ _), rfl⟩

/-- What an operation started by a request leaves alone, the request as a whole leaves alone. -/
theorem ask_keeps {q : Ask} {roles key : Nat} {ch : Bool} {act : Session → State → State} {P : State → Prop}
    (h : P s) (hs : ∀ t u, Answers t u → P t → P u) (ha : ∀ x t, P t → P (act x t)) : P (ask q roles key ch act s) := by
  rcases ask_cases (s := s) q roles key ch act with k | ⟨x, t, k, e⟩
  · exact hs _ _ k h
  · rw [e]; exact ha x t (hs _ _ k h)

end Sys2Proof.Machine
end

