-- ==== Sys2Proof/Tests/Slice0.lean ====
section
/-! SUPPORT. Tests: a state that meets the hypotheses of each clause of each obligation (witness_…), an ill-formed command for each check of
WellFormed (test_ill_formed_…), and a few steps whose expected results come from the spec's worked examples. -/
namespace Sys2Proof.Tests
open Sys2Proof.Machine Sys2Proof.Claims

/-- A node in service in flat mode: H08-C1, one warden's session, partition 0 with keys, port 0 up with one logical device. -/
def node : State where
  asm := { hbmStacks := 8, dies := 1, nand := 8 }
  regs := [(0x100001, 0x111)]
  now := 5000000000
  sah := { up := true, coresUp := 0x1F, sessions := [(1, {})] }
  rst := { nodeState := 1, step := 8, inReset := false, resetN := true, ready := true }
  car := { tiered := false }
  cxl := { ports := [(0, { state := 2, perst := false, rate := 64, width := 16 })], lds := [(0, { bi := some 1, regions := [2 ^ 40, 0, 0, 0, 0, 0, 0, 0] })] }
  lck := { parts := [(0, { state := 1, current := 1, seedCur := 7 })], tdis := [(0, { part := 0 })] }

/-- A request of the warden's session. -/
def q1 : Ask := { sid := 1, req := 1 }

/-- A home range of one granule at DPA 0, for partition 0. -/
def home0 : BookEntry := { kind := 1, state := 2, read := true, write := true, length := 2 ^ 26, count := 2 }

/-- A binding of port 0, logical device 0 to one granule of node 1. -/
def bind0 : BookEntry := { kind := 2, state := 2, read := true, write := true, length := 2 ^ 26, target := 2 ^ 50 }

/-- The node with a lending book. -/
def booked (book : Tbl BookEntry) : State := { node with pga := { book := book } }

/-- A MANAGE packet of an operation, from node 1. -/
def mng (op pga : Nat) (body : Bytes) : Packet := { opcode := 0x0B, src := 1, tag := 9, aux := op, pga := pga, payload := body }

/-- A node whose port 0 reaches one granule of node 1 through decoder 0. -/
def hostNode : State :=
  { booked [(0, bind0)] with cxl := { node.cxl with lds := [(0, { bi := some 1, decoders := [(0, { size := 2 ^ 26, committed := true })] })] } }

/-- The node with port 0 in a state. -/
def portIn (x : Port) : State := { node with cxl := { node.cxl with ports := [(0, x)] } }

/-- A flit with its check word. -/
def sealed (f : Flit) : Flit := { f with crc := flitCrc f }

/-- The node with fabric port 0 in a state. -/
def linkIn (x : Link) : State := { node with lnk := { ports := [(0, x)] } }

/-- The node with port 0, logical device 0's TDI in a state. -/
def tdiIn (x : Tdi) : State := { node with lck := { node.lck with tdis := [(0, x)] } }

/-- An image with a valid header. -/
def goodImage : Image := { state := 3, signed := true, bytes := [(0, 0x4F), (1, 0x50), (2, 0x5A), (3, 0x46), (4, 1)] }

theorem witness_StepRunsCommand :
    (∃ (c : Instr) (rest : List Instr) (s : State), s.pending = c :: rest) :=
  ⟨.gpf 0, [], { node with pending := [.gpf 0] }, by decide⟩

theorem witness_IdleStep :
    (∃ s : State, s.pending = []) :=
  ⟨node, by decide⟩

theorem witness_RingAndClock :
    (∃ (src dst line : Nat) (isReq : Bool) (s : State), stopPresent s src = true ∧ stopPresent s dst = true ∧ (isReq = true → tget 0
      s.ring.used dst < Config.stopCredits dst)) ∧
    (∃ (src dst line : Nat) (s : State), Config.stopCredits dst ≤ tget 0 s.ring.used dst) ∧
    (∃ (stop : Nat) (p : RingPkt) (rest : List RingPkt) (s : State), s.ring.flight = p :: rest ∧ p.dst = stop) ∧
    (∃ s : State, s.rst.pllLocked = true) ∧
    (∃ s : State, s.rst.pllLocked = false ∧ s.rst.inReset = true ∧ s.rst.resetN = true ∧ s.rst.vddAux = true ∧ s.sah.tripped = false ∧
      s.fw.trial = false ∧ imageValid s (slotOf s s.fw.active) = true) :=
  ⟨⟨0, 22, 5, false, node, by decide⟩,
   ⟨0, 22, 5, { node with ring := { used := [(22, Config.stopCredits 22)] } }, Nat.le_refl _⟩,
   ⟨3, { dst := 3 }, [], { node with ring := { flight := [{ dst := 3 }] } }, by decide⟩,
   ⟨node, by decide⟩,
   ⟨{ rst := { resetN := true, pllLocked := false } }, by decide⟩⟩

theorem witness_GrantsRun :
    (∃ (q : Ask) (arg : Bytes) (a : GrantArg) (c lda n : Nat) (s : State), taken s q 1 = true ∧ arg.length = 64 ∧ grantArg s arg = some a
      ∧ a.ways = 1 ∧ a.members = [c] ∧ c ≠ hereAt s ∧ a.length ≠ 0 ∧ a.length % 2 ^ 26 = 0 ∧ a.length % viewMultiple a.view = 0 ∧ (tdiOf
      s (ldKey a.port a.ld)).part = a.part ∧ lowestLda s a.port a.ld a.region a.length = some lda ∧ tfresh s.pga.book (s.pga.book.length
      + 1) 0 = some n ∧ n < 1048576) ∧
    (∃ (entry : Nat) (g : Grant) (s : State), tfind s.pga.grants entry = some g ∧ g.offered = false ∧ g.due ≤ s.now ∧ g.bases = [] ∧
      firmwareHeld s = false ∧ tsorted s.pga.book = true ∧ tsorted s.pga.grants = true) ∧
    (∃ (entry : Nat) (g : Grant) (s : State), tfind s.pga.grants entry = some g ∧ g.offered = true ∧ g.due ≤ s.now ∧ g.bases = [] ∧
      firmwareHeld s = false ∧ tsorted s.pga.book = true ∧ tsorted s.pga.grants = true) ∧
    (∃ (entry : Nat) (c : Clear) (s : State), tfind s.pga.clears entry = some c ∧ c.ready = true ∧ s.car.tiered = false ∧ c.migrate =
      false ∧ firmwareHeld s = false ∧ c.here = none ∧ (bookOf s entry).window = false ∧ (tfind s.pga.book entry).isSome = true) ∧
    (∃ (p : Packet) (base n : Nat) (s : State), p.opcode = 0x0B ∧ bits p.aux 0 8 = 1 ∧ newHere s p = true ∧ s.car.tiered = false ∧
      (partOf s (leAt p.payload 8 1)).state = 1 ∧ lowestRange s (leAt p.payload 0 8) = some base ∧ bitOf (leAt p.payload 9 1) 0 = false ∧
      tfresh s.pga.book (s.pga.book.length + 1) 0 = some n ∧ n < 1048576 ∧ needsSweep s base (leAt p.payload 0 8) (leAt p.payload 8 1) =
      false) :=
  ⟨⟨q1, packLE [(1, 0), (1, 0), (1, 0), (1, 0), (1, 3), (1, 0), (1, 1), (1, 0), (8, 2 ^ 26), (8, 0), (2, 1)] ++ zeros 38,
      { port := 0, ld := 0, region := 0, part := 0, read := true, write := true, view := 0, ways := 1, length := 2 ^ 26, granule := 0,
        members := [1] }, 1, 0, 0, node, by decide⟩,
   ⟨0, { homes := [1] }, { (booked [(0, { bind0 with state := 1 })]) with pga := { book := [(0, { bind0 with state := 1 })],
                                                                                   grants := [(0, { homes := [1] })] } }, by decide⟩,
   ⟨0, { homes := [1], offered := true },
      { (booked []) with pga := { book := [(0, { bind0 with state := 1 })], grants := [(0, { homes := [1], offered := true })] } }, by
      decide⟩,
   ⟨0, { src := 1, ready := true }, { node with pga := { book := [(0, { home0 with state := 1, count := 0 })], clears := [(0,
                                                         { src := 1, ready := true })] } }, by decide⟩,
   ⟨mng 1 0 (packLE [(8, 2 ^ 26), (1, 0), (1, 0)] ++ zeros 6), 0, 0, node, by decide⟩⟩

theorem witness_RevokesRun :
    (∃ (q : Ask) (entry : Nat) (s : State), taken s q 1 = true ∧ (bookOf s entry).kind = 2 ∧ (bookOf s entry).state = 2 ∧ revokeBusy s
      (bookOf s entry) = false ∧ tfind s.pga.releases entry = none) ∧
    (∃ (q : Ask) (entry : Nat) (s : State), taken s q 1 = true ∧ (bookOf s entry).kind = 2 ∧ revokeBusy s (bookOf s entry) = false ∧
      (bookOf s entry).ilv = false ∧ pgaCoord (bookOf s entry).target ≠ hereAt s ∧ (tfind s.pga.book entry).isSome = true) ∧
    (∃ (q : Ask) (entry : Nat) (s : State), taken s q 1 = true ∧ (bookOf s entry).kind = 1 ∧ (bookOf s entry).state = 2 ∧ (bookOf s
      entry).window = false ∧ s.car.frames = [] ∧ s.ldg.txns = [] ∧ tsorted s.pga.book = true) ∧
    (∃ (entry due : Nat) (q : Ask) (s : State), tfind s.pga.releases entry = some (q, due) ∧ due ≤ s.now ∧ tsorted s.pga.releases = true
      ∧ firmwareHeld s = false) ∧
    (∃ (entry : Nat) (r : Revoke) (s : State), tfind s.pga.revokes entry = some r ∧ r.resend ≤ s.now ∧ r.homes ≠ [] ∧ hereAt s ∉ r.homes
      ∧ firmwareHeld s = false) ∧
    (∃ (entry : Nat) (r : Revoke) (s : State), tfind s.pga.revokes entry = some r ∧ r.homes = [] ∧ (bookOf s entry).count = 0 ∧ (bookOf s
      entry).ilv = false ∧ (bookOf s entry).partner = none ∧ pgaCoord (bookOf s entry).target ≠ hereAt s ∧ firmwareHeld s = false ∧
      tsorted s.pga.book = true ∧ tsorted s.pga.revokes = true) ∧
    (∃ (p : Packet) (n : Nat) (h : BookEntry) (s : State), p.opcode = 0x0B ∧ bits p.aux 0 8 = 2 ∧ newHere s p = true ∧ twinRange s
      (pgaDpa p.pga) = none ∧ homeBased s (pgaDpa p.pga) = some (n, h) ∧ 2 ≤ h.count ∧ h.window = false) ∧
    (∃ (p : Packet) (s : State), p.opcode = 0x0B ∧ bits p.aux 0 8 = 10 ∧ newHere s p = true ∧ (∀ e ∈ s.ldg.entries, ∀ h ∈ e.2.holders,
      behind p.src (leAt p.payload 8 1) [leAt p.payload 9 1] h.1 = false)) :=
  ⟨⟨q1, 0, booked [(0, bind0)], by decide⟩,
   ⟨q1, 0, booked [(0, bind0)], by decide⟩,
   ⟨q1, 0, booked [(0, home0)], by decide⟩,
   ⟨0, 0, q1, { node with pga := { book := [(0, bind0)], releases := [(0, q1, 0)] } }, by decide⟩,
   ⟨0, { homes := [1] }, { node with pga := { book := [(0, { bind0 with state := 3 })], revokes := [(0, { homes := [1] })] } }, by decide⟩,
   ⟨0, {}, { node with pga := { book := [(0, { bind0 with state := 3 })], revokes := [(0, {})] } }, by decide⟩,
   ⟨mng 2 0 [], 0, home0, booked [(0, home0)], by decide⟩,
   ⟨mng 10 0 (packLE [(8, 2 ^ 26), (1, 0), (1, 0)] ++ zeros 6), booked [(0, home0)], by decide⟩⟩

theorem witness_MigrationRuns :
    (∃ (q : Ask) (entry coord : Nat) (s : State), taken s q 1 = true ∧ (bookOf s entry).kind = 1 ∧ (bookOf s entry).state = 2 ∧ (bookOf s
      entry).window = false ∧ (bookOf s entry).twin = 0 ∧ inTorus s coord = true ∧ coord ≠ hereAt s) ∧
    (∃ (entry : Nat) (m : Migrate) (s : State), tfind s.pga.migrates entry = some m ∧ m.phase = 1 ∧ m.todo = [] ∧ m.copying = [] ∧
      m.marked = [] ∧ m.sent = false ∧ m.recalls = [] ∧ s.ldg.entries = [] ∧ s.ldg.txns = [] ∧ firmwareHeld s = false) ∧
    (∃ (q : Ask) (old new length e : Nat) (b : BookEntry) (s : State), taken s q 1 = true ∧ old < 2 ^ 62 ∧ new < 2 ^ 62 ∧ s.pga.book =
      [(e, b)] ∧ b.kind = 2 ∧ b.ilv = false ∧ old ≤ b.target ∧ b.target < old + length ∧ pgaCoord b.target ≠ hereAt s) ∧
    (∃ (entry due : Nat) (s : State), tfind s.pga.drains entry = some due ∧ due ≤ s.now ∧ (bookOf s entry).window = false ∧ firmwareHeld
      s = false ∧ (tfind s.pga.book entry).isSome = true ∧ s.car.frames = [] ∧ s.ldg.txns = [] ∧ tsorted s.pga.book = true ∧ tsorted
      s.pga.drains = true) ∧
    (∃ (p : Packet) (n e : Nat) (b : BookEntry) (s : State), p.opcode = 0x0B ∧ bits p.aux 0 8 = 3 ∧ newHere s p = true ∧ s.pga.book =
      [(e, b)] ∧ b.kind = 2 ∧ b.ilv = false ∧ p.pga ≤ b.target ∧ b.target < p.pga + leAt p.payload 8 8 ∧ pgaCoord b.target ≠ hereAt s ∧ n
      = leAt p.payload 0 8 + (b.target - p.pga)) ∧
    (∃ (p : Packet) (n : Nat) (h : BookEntry) (s : State), p.opcode = 0x0B ∧ bits p.aux 0 8 = 4 ∧ newHere s p = true ∧ twinRange s
      (pgaDpa p.pga) = none ∧ homeBased s (pgaDpa p.pga) = some (n, h) ∧ h.window = true ∧ h.state = 2 ∧ h.part = leAt p.payload 0 1 ∧
      (winOf s n).state ≠ 3) ∧
    (∃ (p : Packet) (base n : Nat) (s : State), p.opcode = 0x0B ∧ bits p.aux 0 8 = 5 ∧ newHere s p = true ∧ s.car.tiered = false ∧
      (partOf s (leAt p.payload 8 1)).state = 1 ∧ lowestRange s (leAt p.payload 0 8) = some base ∧ tfresh s.pga.book (s.pga.book.length +
      1) 0 = some n ∧ n < 1048576 ∧ needsSweep s base (leAt p.payload 0 8) (leAt p.payload 8 1) = false) ∧
    (∃ (p : Packet) (n : Nat) (h : BookEntry) (s : State), p.opcode = 0x0B ∧ bits p.aux 0 8 = 6 ∧ newHere s p = true ∧ homeBased s
      (pgaDpa p.pga) = some (n, h) ∧ h.state = 1) ∧
    (∃ (p : Packet) (n : Nat) (h : BookEntry) (s : State), p.opcode = 0x0B ∧ bits p.aux 0 8 = 7 ∧ newHere s p = true ∧ homeBased s
      (pgaDpa p.pga) = some (n, h) ∧ h.state = 1 ∧ h.window = false ∧ s.car.frames = [] ∧ s.ldg.txns = [] ∧ tsorted s.pga.book = true) ∧
    (∃ (p : Packet) (l h i d : Nat) (e : LEntry) (s : State), p.opcode = 0x0B ∧ bits p.aux 0 8 = 9 ∧ newHere s p = true ∧ s.ldg.entries =
      [(l, e)] ∧ e.owned = false ∧ e.holders = [(h, i)] ∧ d < 16 ∧ bitOf (leAt p.payload 2 2) d = true ∧ holderLd h = d ∧ holderPort h =
      leAt p.payload 0 1 ∧ holderCoord h = p.src) :=
  ⟨⟨q1, 0, 1, booked [(0, home0)], by decide⟩,
   ⟨0, { dest := 1, phase := 1 }, { node with pga := { book := [(0, { home0 with state := 4 })], migrates := [(0,
                                                       { dest := 1, phase := 1 })] } }, by decide⟩,
   ⟨q1, 2 ^ 50, 2 ^ 50 + 2 ^ 27, 2 ^ 26, 0, bind0, booked [(0, bind0)], by decide⟩,
   ⟨0, 0, { node with pga := { book := [(0, { home0 with state := 5 })], drains := [(0, 0)] } }, by decide⟩,
   ⟨mng 3 (2 ^ 50) (packLE [(8, 2 ^ 51), (8, 2 ^ 26)]), 2 ^ 51, 0, bind0, booked [(0, bind0)], by decide⟩,
   ⟨mng 4 0 (zeros 8), 0, { home0 with window := true }, booked [(0, { home0 with window := true })], by decide⟩,
   ⟨mng 5 0 (packLE [(8, 2 ^ 26), (1, 0)] ++ zeros 7), 0, 0, node, by decide⟩,
   ⟨mng 6 0 (packLE [(4, 3)] ++ zeros 4), 0, { home0 with state := 1 }, booked [(0, { home0 with state := 1 })], by decide⟩,
   ⟨mng 7 0 [], 0, { home0 with state := 1 }, booked [(0, { home0 with state := 1 })], by decide⟩,
   ⟨mng 9 0 (packLE [(1, 0), (1, 0), (2, 1)] ++ zeros 4), 0, 1, 0, 0, { holders := [(1, 0)] },
      { node with ldg := { entries := [(0, { holders := [(1, 0)] })] } }, by decide⟩⟩

theorem witness_PortsRun :
    (∃ (port : Nat) (s : State), port < 24 ∧ portExists s port = true ∧ isSplit s port = false ∧ (portOf s port).state = 0 ∧ (portOf s
      port).held = false ∧ portsReady s = true) ∧
    (∃ (port : Nat) (s : State), port < 24 ∧ portExists s port = true ∧ isSplit s port = false ∧ (portOf s port).state = 2 ∧ (portOf s
      port).bifurcate = 0) ∧
    (∃ (q : Ask) (port : Nat) (s : State), taken s q 1 = true ∧ port < 24 ∧ portExists s port = true ∧ isSplit s port = false ∧ (portOf s
      port).state = 4 ∧ (portOf s port).perst = false) ∧
    (∃ (port rate : Nat) (s : State), portExists s port = true ∧ (portOf s port).state = 1 ∧ rate ∈ [16, 32, 64]) ∧
    (∃ (port cause : Nat) (s : State), portExists s port = true ∧ (portOf s port).state = 1) ∧
    (∃ (port : Nat) (s : State), port < 24 ∧ portExists s port = true ∧ isSplit s port = false ∧ (portOf s port).state = 2 ∧ (portOf s
      port).bifurcate = 0) ∧
    (∃ (port : Nat) (s : State), portExists s port = true ∧ (portOf s port).state = 3) ∧
    (∃ (port due lds : Nat) (homes : List Nat) (s : State), tfind s.cxl.purges port = some (homes, due, lds) ∧ due ≤ s.now) ∧
    (∃ (id : Nat) (w : PurgeWait) (h : HostReq) (s : State), s.cxl.purgeWait = [w] ∧ w.id = id ∧ w.due ≤ s.now ∧ tfind s.cxl.reqs id =
      some h ∧ tsorted s.cxl.reqs = true) ∧
    (∃ (q : Ask) (port ld : Nat) (lengths : List Nat) (s : State), taken s q 1 = true ∧ port < 8 * s.asm.dies ∧ ld < 16 ∧ lengths.length
      = 8 ∧ (∀ l ∈ lengths, l % 2 ^ 26 = 0 ∧ l ≤ 2 ^ 44) ∧ tdiLocked s (ldKey port ld) = false ∧ activeOf s port ld = [] ∧ s.car.tiered =
      false) ∧
    (∃ (q : Ask) (port value : Nat) (s : State), taken s q 1 = true ∧ port < 24 ∧ value ≤ 1 ∧ (∀ ld, ld < 16 → tdiLocked s (ldKey port
      ld) = false ∧ activeOf s port ld = [])) :=
  ⟨⟨0, portIn {}, by decide⟩,
   ⟨0, node, by decide⟩,
   ⟨q1, 0, portIn { state := 4, perst := false }, by decide⟩,
   ⟨0, 64, portIn { state := 1, perst := false }, by decide⟩,
   ⟨0, 5, portIn { state := 1, perst := false }, by decide⟩,
   ⟨0, node, by decide⟩,
   ⟨0, portIn { state := 3, perst := false }, by decide⟩,
   ⟨0, 0, 1, [1], { node with cxl := { purges := [(0, ([1], 0, 1))] } }, by decide⟩,
   ⟨0, { home := 1 }, { tag := 3 }, { node with cxl := { node.cxl with reqs := [(0, { tag := 3 })], purgeWait := [{ home := 1 }] } }, by
      decide⟩,
   ⟨q1, 0, 0, [2 ^ 26, 0, 0, 0, 0, 0, 0, 0], node, by decide⟩,
   ⟨q1, 0, 1, node, by decide⟩⟩

theorem witness_HostRequestsRun :
    (∃ (m : M2S) (lda n pga : Nat) (e : BookEntry) (s : State), goesOut s m false lda n e pga) ∧
    (∃ (m : M2S) (lda n pga : Nat) (e : BookEntry) (s : State), goesOut s m false lda n e pga) ∧
    (∃ (m : M2S) (lda n pga : Nat) (e : BookEntry) (s : State), goesOut s m false lda n e pga) ∧
    (∃ (m : M2S) (lda n pga : Nat) (e : BookEntry) (s : State), goesOut s m false lda n e pga) ∧
    (∃ (m : M2S) (lda n pga : Nat) (e : BookEntry) (s : State), goesOut s m false lda n e pga) ∧
    (∃ (m : M2S) (lda n pga : Nat) (e : BookEntry) (s : State), goesOut s m false lda n e pga) ∧
    (∃ (m : M2S) (data : Bytes) (poison : Bool) (lda n pga : Nat) (e : BookEntry) (s : State), goesOut s m true lda n e pga ∧
      s.ldg.proxies = []) ∧
    (∃ (m : M2S) (data : Bytes) (be : Nat) (poison : Bool) (lda n pga : Nat) (e : BookEntry) (s : State), goesOut s m true lda n e pga ∧
      s.ldg.proxies = []) ∧
    (∃ (m : M2S) (s : State), ldUp s m.port m.ld = true) :=
  ⟨⟨{ snp := 1 }, 0, 0, 2 ^ 50, bind0, hostNode, by unfold goesOut; decide⟩,
   ⟨{}, 0, 0, 2 ^ 50, bind0, hostNode, by unfold goesOut; decide⟩,
   ⟨{}, 0, 0, 2 ^ 50, bind0, hostNode, by unfold goesOut; decide⟩,
   ⟨{}, 0, 0, 2 ^ 50, bind0, hostNode, by unfold goesOut; decide⟩,
   ⟨{}, 0, 0, 2 ^ 50, bind0, hostNode, by unfold goesOut; decide⟩,
   ⟨{}, 0, 0, 2 ^ 50, bind0, hostNode, by unfold goesOut; decide⟩,
   ⟨{}, [1], false, 0, 0, 2 ^ 50, bind0, hostNode, ⟨by unfold goesOut; decide, rfl⟩⟩,
   ⟨{}, [1], 1, false, 0, 0, 2 ^ 50, bind0, hostNode, ⟨by unfold goesOut; decide, rfl⟩⟩,
   ⟨{}, hostNode, by decide⟩⟩

theorem witness_DecodersAndAlertsRun :
    (∃ (port ld : Nat) (b : Option Nat) (s : State), ldUp s port ld = true ∧ tdiLocked s (ldKey port ld) = false) ∧
    (∃ (port ld index : Nat) (d : DecoderArg) (s : State), ldUp s port ld = true ∧ index < 8 ∧ tdiLocked s (ldKey port ld) = false ∧
      (((tfind (ldOf s (ldKey port ld)).decoders index).getD {}).committed && ((tfind (ldOf s (ldKey port ld)).decoders index).getD
      {}).locked) = false) ∧
    (∃ (value : Nat) (s : State), privUp s = true) ∧
    (∃ (value : Nat) (s : State), privUp s = true ∧ bitOf value 0 = true) :=
  ⟨⟨0, 0, some 5, node, by decide⟩,
   ⟨0, 0, 0, { size := 2 ^ 28, ways := 1, gran := 256 }, node, by decide⟩,
   ⟨1, { node with regs := [(0x112200, 0)] , cxl := { node.cxl with alerts := 3 } }, by decide⟩,
   ⟨1, { node with regs := [(0x112200, 0)] }, by decide⟩⟩

theorem witness_MailboxesRun :
    (∃ (port ld : Nat) (s : State), mboxUp s port ld = true) ∧
    (∃ (port ld : Nat) (s : State), mboxUp s port ld = true) ∧
    (∃ (port ld log : Nat) (s : State), mboxUp s port ld = true ∧ log < 5) ∧
    (∃ (port ld log : Nat) (hs : List Nat) (s : State), mboxUp s port ld = true ∧ log < 5) ∧
    (∃ (port ld : Nat) (s : State), mboxUp s port ld = true) ∧
    (∃ (port ld : Nat) (b : Bytes) (s : State), mboxUp s port ld = true ∧ b.length = 4) ∧
    (∃ (port ld : Nat) (s : State), mboxUp s port ld = true) ∧
    (∃ (port ld stamp : Nat) (s : State), mboxUp s port ld = true) ∧
    (∃ (port ld : Nat) (s : State), mboxUp s port ld = true) ∧
    (∃ (port ld offset length : Nat) (s : State), mboxUp s port ld = true ∧ offset + length ≤ (celBytes (isFm ld)).length) ∧
    (∃ (port ld opcode : Nat) (s : State), mboxUp s port ld = true ∧ isFm ld = false) :=
  ⟨⟨0, 0, node, by decide⟩,
   ⟨0, 0, node, by decide⟩,
   ⟨0, 0, 1, node, by decide⟩,
   ⟨0, 0, 1, [], node, by decide⟩,
   ⟨0, 0, node, by decide⟩,
   ⟨0, 0, [1, 2, 3, 0], node, by decide⟩,
   ⟨0, 0, node, by decide⟩,
   ⟨0, 0, 77, node, by decide⟩,
   ⟨0, 0, node, by decide⟩,
   ⟨0, 0, 0, 4, node, by decide⟩,
   ⟨0, 0, 0x0100, node, by decide⟩⟩

theorem witness_MemoryDeviceMailboxRuns :
    (∃ (port ld : Nat) (s : State), ldUp s port ld = true ∧ isFm ld = false) ∧
    (∃ (port ld : Nat) (s : State), ldUp s port ld = true ∧ isFm ld = false) ∧
    (∃ (port ld : Nat) (s : State), ldUp s port ld = true ∧ isFm ld = false) ∧
    (∃ (port ld dpa length : Nat) (remote : List Nat) (s : State), ldUp s port ld = true ∧ isFm ld = false) ∧
    (∃ (port ld dpa n pga tag : Nat) (e : BookEntry) (s : State), ldUp s port ld = true ∧ isFm ld = false ∧ rCxlPoisonInject s = 1 ∧
      decodeLda s port ld (dpa / 64 * 64) false true = some (n, e, pga) ∧ e.isWin = false ∧ e.partner = none ∧ pgaCoord pga ≠ hereAt s ∧
      freeTag s false = some tag) ∧
    (∃ (port ld dpa n pga tag : Nat) (data : Bytes) (e : BookEntry) (s : State), ldUp s port ld = true ∧ isFm ld = false ∧ decodeLda s
      port ld (dpa / 64 * 64) false true = some (n, e, pga) ∧ e.isWin = false ∧ e.partner = none ∧ pgaCoord pga ≠ hereAt s ∧ freeTag s
      false = some tag) ∧
    (∃ (port ld count start : Nat) (s : State), ldUp s port ld = true ∧ isFm ld = false) ∧
    (∃ (port ld count start : Nat) (s : State), ldUp s port ld = true ∧ isFm ld = false) ∧
    (∃ (port ld n : Nat) (e : BookEntry) (rest : List (Nat × BookEntry)) (g : Grant) (s : State), ldUp s port ld = true ∧ isFm ld = false
      ∧ offersOf s port ld = (n, e) :: rest ∧ tfind s.pga.grants n = some g ∧ g.bases = [] ∧ tsorted s.pga.book = true ∧ tsorted
      s.pga.grants = true) ∧
    (∃ (port ld : Nat) (s : State), ldUp s port ld = true ∧ isFm ld = false ∧ offersOf s port ld = []) ∧
    (∃ (port ld n : Nat) (e : BookEntry) (s : State), ldUp s port ld = true ∧ isFm ld = false ∧ activeOf s port ld = [(n, e)] ∧ (bookOf s
      n).kind = 2 ∧ (tfind s.pga.book n).isSome = true ∧ revokeBusy s (bookOf s n) = false ∧ (bookOf s n).ilv = false ∧ pgaCoord (bookOf
      s n).target ≠ hereAt s) :=
  ⟨⟨0, 0, node, by decide⟩,
   ⟨0, 0, node, by decide⟩,
   ⟨0, 0, node, by decide⟩,
   ⟨0, 0, 0, 64, [], hostNode, by decide⟩,
   ⟨0, 0, 0, 0, 2 ^ 50, 0, bind0, { hostNode with regs := [(0x112100, 1)] }, by decide⟩,
   ⟨0, 0, 0, 0, 2 ^ 50, 0, [1], bind0, hostNode, by decide⟩,
   ⟨0, 0, 8, 0, node, by decide⟩,
   ⟨0, 0, 8, 0, hostNode, by decide⟩,
   ⟨0, 0, 0, { bind0 with state := 1 }, [], { homes := [1], offered := true },
      { node with pga := { book := [(0, { bind0 with state := 1 })], grants := [(0, { homes := [1], offered := true })] } }, by decide⟩,
   ⟨0, 0, node, by decide⟩,
   ⟨0, 0, 0, bind0, hostNode, by decide⟩⟩

theorem witness_RecallsRun :
    (∃ (port ld bitag low : Nat) (r : Recall) (s : State), s.ldg.recalls = [(bitag, r)] ∧ r.remote = false ∧ r.due.isSome = true ∧
      holderPort r.holder = port ∧ holderLd r.holder = ld ∧ r.kind = 2 ∧ r.best = 0 ∧ r.owner = .nobody ∧ r.blk = 1 ∧ r.rides = none ∧
      s.ldg.queue = [] ∧ s.ldg.birsps = [] ∧ s.ring.waiting = []) ∧
    (∃ (port ld bitag kind low : Nat) (s : State), tfind s.ldg.recalls bitag = none ∧ tfind s.ldg.proxies bitag = none) ∧
    (∃ (port ld bitag : Nat) (done : Bool) (s : State), ldUp s port ld = true ∧ tfind s.ldg.recalls bitag = none ∧ tfind s.ldg.proxies
      bitag = none) ∧
    (∃ (p : Packet) (s : State), p.opcode = 0x0A ∧ newHere s p = true ∧ s.ldg.recalls = [] ∧ s.ldg.proxies = [] ∧ purging s (bits p.aux 2
      5) (bits p.aux 7 4) p.src = false) ∧
    (∃ (p : Packet) (rid : Nat) (r : Recall) (x : TagRec) (s : State), p.opcode = 0x43 ∧ malformedPacket p = false ∧ openTagOf s p.tag =
      some x ∧ x.use = .recallOp rid ∧ s.ldg.recalls = [(rid, r)] ∧ p.src = holderCoord r.holder ∧ p.payload = [] ∧ p.status = 0 ∧
      r.owner = .nobody ∧ r.rides = none ∧ s.ldg.queue = []) ∧
    (∃ (rid due : Nat) (r : Recall) (s : State), s.ldg.recalls = [(rid, r)] ∧ r.remote = false ∧ r.due = some due ∧ due ≤ s.now ∧
      s.ldg.birsps = [] ∧ r.owner = .nobody ∧ r.stop = false ∧ r.rides = none ∧ s.ldg.queue = [] ∧ tsorted s.ldg.entries = true) ∧
    (∃ (rid due : Nat) (r : Recall) (s : State), s.ldg.recalls = [(rid, r)] ∧ r.remote = true ∧ r.due = some due ∧ due ≤ s.now ∧
      s.ldg.rsps = [] ∧ r.owner = .nobody ∧ r.stop = false ∧ r.rides = none ∧ s.ldg.queue = [] ∧ tsorted s.ldg.entries = true) ∧
    (∃ (pid due : Nat) (x : Proxy) (s : State), tfind s.ldg.proxies pid = some x ∧ x.due = some due ∧ due ≤ s.now ∧ tsorted s.ldg.proxies
      = true) ∧
    (∃ (p : Packet) (rid : Nat) (r : Recall) (x : TagRec) (first done : Bool) (y : Txn) (s : State), p.opcode = 0x86 ∧ malformedPacket p
      = false ∧ openTagOf s p.tag = some x ∧ x.use = .recallOp rid ∧ tfind s.ldg.recalls rid = some r ∧ ownerTxn s r.line r.holder = some
      (first, y)) ∧
    (∃ (p : Packet) (rid : Nat) (r : Recall) (x : TagRec) (done : Bool) (s : State), p.opcode = 0x86 ∧ malformedPacket p = false ∧
      openTagOf s p.tag = some x ∧ x.use = .recallOp rid ∧ tfind s.ldg.recalls rid = some r ∧ ownerTxn s r.line r.holder = none) ∧
    (∃ (p : Packet) (pid : Nat) (x : Proxy) (s : State), p.opcode = 0x87 ∧ malformedPacket p = false ∧ s.ldg.proxies = [(pid, x)] ∧
      x.home = p.src ∧ x.tag = p.tag ∧ (x.port, x.ld, pid) ∈ s.cxl.probes ∧ bitOf p.aux 0 = false) :=
  ⟨⟨0, 0, 0, 0, { due := some 0 }, { node with ldg := { recalls := [(0, { due := some 0 })], entries := [(0,
                                                        { holders := [(0, 0)] })] } }, by decide⟩,
   ⟨0, 0, 0, 0, 0, node, by decide⟩,
   ⟨0, 0, 0, true, node, by decide⟩,
   ⟨{ opcode := 0x0A, src := 1, tag := 4, aux := 2, pga := 64 }, node, by decide⟩,
   ⟨{ opcode := 0x43, src := 1, tag := 4 }, 0, { holder := 1, remote := true }, { use := .recallOp 0, dest := 1 },
      { node with ldg := { recalls := [(0, { holder := 1, remote := true })] },
                  mar := { tags := [(4, { use := .recallOp 0, dest := 1 })] } }, by decide⟩,
   ⟨0, 0, { due := some 0 }, { node with ldg := { recalls := [(0, { due := some 0 })], entries := [(0, { holders := [(0, 0)] })] } }, by
      decide⟩,
   ⟨0, 0, { remote := true, due := some 0 }, { node with ldg := { recalls := [(0, { remote := true, due := some 0 })] } }, by decide⟩,
   ⟨0, 0, { due := some 0 }, { node with ldg := { proxies := [(0, { due := some 0 })] } }, by decide⟩,
   ⟨{ opcode := 0x86, src := 1, tag := 4 }, 0, { holder := 1, remote := true }, { use := .recallOp 0, dest := 1 }, false, false,
      { req := { holder := 1 }, lines := [0], phase := .acking },
      { node with ldg := { recalls := [(0, { holder := 1, remote := true })], txns := [(1,
                           { req := { holder := 1 }, lines := [0], phase := .acking })] },
                  mar := { tags := [(4, { use := .recallOp 0, dest := 1 })] } }, by decide⟩,
   ⟨{ opcode := 0x86, src := 1, tag := 4 }, 0, { holder := 1, remote := true }, { use := .recallOp 0, dest := 1 }, false,
      { node with ldg := { recalls := [(0, { holder := 1, remote := true })] },
                  mar := { tags := [(4, { use := .recallOp 0, dest := 1 })] } }, by decide⟩,
   ⟨{ opcode := 0x87, src := 1, tag := 4 }, 0, { home := 1, tag := 4 },
      { node with ldg := { proxies := [(0, { home := 1, tag := 4 })] }, cxl := { node.cxl with probes := [(0, 0, 0)] } }, by decide⟩⟩

theorem witness_LedgerRuns :
    (∃ (p : Packet) (id : Nat) (x : Txn) (s : State), p.opcode = 0x81 ∧ malformedPacket p = false ∧ ackTxn s p.src p.tag = some id ∧
      s.ldg.txns = [(id, x)] ∧ s.ldg.queue = []) ∧
    (∃ (id : Nat) (x : Txn) (s : State), s.ldg.txns = [(id, x)] ∧ s.ldg.queue = [] ∧ x.phase = .acking ∧ x.ackDue ≤ s.now) ∧
    (∃ (slice channel : Nat) (s : State), slice < nStacks s ∧ channel < 3 ∧ (sliceRec s slice).fenced = [] ∧ (sliceRec s slice).stopped =
      false) ∧
    (∃ (q : Ask) (slice : Nat) (s : State), taken s q 1 = true ∧ slice < nStacks s ∧ (sliceRec s slice).fenced ≠ [] ∧ mayReadmit
      (sliceRec s slice) = true ∧ s.ring.waiting = []) ∧
    (∃ (slice due : Nat) (s : State), (sliceRec s slice).autoDue = some due ∧ due ≤ s.now ∧ rLdgReadmitAuto s = 1 ∧ (sliceRec s
      slice).stopped = false ∧ mayReadmit (sliceRec s slice) = true ∧ s.ring.waiting = []) ∧
    (∃ (slice : Nat) (s : State), slice < nStacks s ∧ (s.rst.nodeState = 1 ∨ s.rst.nodeState = 3)) ∧
    (∃ (slice set : Nat) (s : State), set ∈ (sliceRec s slice).scanning) ∧
    (∃ (q : Ask) (pga n : Nat) (h : BookEntry) (s : State), taken s q 1 = true ∧ pgaCoord pga = hereAt s ∧ homeAt s (pgaDpa pga) = some
      (n, h)) :=
  ⟨⟨{ opcode := 0x81, src := 1, tag := 4 }, 0, { req := { kind := .readShared, who := .node 1 4 }, lines := [0], got := 1,
                                                 phase := .acking },
      { node with ldg := { txns := [(0, { req := { kind := .readShared, who := .node 1 4 }, lines := [0], got := 1, phase := .acking })],
                           blocked := [(0, 0)] } }, by decide⟩,
   ⟨0, { req := { kind := .readShared, who := .node 1 4 }, lines := [0], got := 1, phase := .acking },
      { node with ldg := { txns := [(0, { req := { kind := .readShared, who := .node 1 4 }, lines := [0], got := 1, phase := .acking })],
                           blocked := [(0, 0)] } }, by decide⟩,
   ⟨0, 1, node, by decide⟩,
   ⟨q1, 0, { node with ldg := { slices := [(0, { fenced := [1], fences := [0, 1, 0] })] } }, by decide⟩,
   ⟨0, 0, { node with ldg := { slices := [(0, { fenced := [1], fences := [0, 1, 0], autoDue := some 0 })] } }, by decide⟩,
   ⟨0, node, by decide⟩,
   ⟨0, 5, { node with ldg := { slices := [(0, { scanning := [5] })] } }, by decide⟩,
   ⟨q1, 0, 0, home0, booked [(0, home0)], by decide⟩⟩

theorem witness_TieringRuns :
    (∃ (q : Ask) (value : Nat) (s : State), taken s q 1 = true ∧ value ≤ 1 ∧ (∀ e ∈ s.pga.book, e.2.kind = 0) ∧ tsorted s.regs = true) ∧
    (∃ (block : Nat) (found : UnitRead) (f : Fill) (g : Frame) (s : State), tfind s.stk.fills block = some f ∧ f.dropped = false ∧ f.lun
      = none ∧ (mapEntry s block).valid = false ∧ frameOf s block = some g ∧ g.state = 1 ∧ s.ldg.owed = [] ∧ s.car.commits = [] ∧ tsorted
      s.stk.fills = true) ∧
    (∃ (block lun : Nat) (found : UnitRead) (f : Fill) (g : Frame) (un : FlashUnit) (s : State), tfind s.stk.fills block = some f ∧
      f.dropped = false ∧ f.lun = some lun ∧ (mapEntry s block).valid = true ∧ (mapEntry s block).phys ≠ lostUnit ∧ onTarget s (mapEntry
      s block).phys = true ∧ tfind s.stk.units (mapEntry s block).phys = some un ∧ decodes s found = true ∧ unitSound s un found f.part
      block = true ∧ blockServes s block = true ∧ frameOf s block = some g ∧ g.state = 1 ∧ g.dirty = [] ∧ s.ldg.owed = [] ∧ s.car.commits
      = [] ∧ tsorted s.stk.fills = true) ∧
    (∃ (block n : Nat) (p : Program) (f : Frame) (s : State), s.stk.programs = [(n, p)] ∧ p.unit.kind = 0 ∧ p.unit.logical = block ∧
      p.done = 1 ∧ p.dropped = false ∧ frameOf s block = some f ∧ f.state = 4 ∧ f.victim = false ∧ s.car.commits = []) ∧
    (∃ (b : Nat) (f : Frame) (place : Nat × Nat) (s : State), s.car.frames = [(b, f)] ∧ f.state = 3 ∧ f.pinned = false ∧ rCarDirtyHigh s
      = 0 ∧ rCarDirtyLow s = 0 ∧ s.stk.freeReserve = false ∧ s.stk.wbWait = [] ∧ blockServes s b = true ∧ writeBacks s < writeBackLimit s
      ∧ openPlace s 0 = some place) ∧
    (∃ (block : Nat) (f : Frame) (s : State), frameOf s block = some f ∧ f.staged = true ∧ rCarStageHold s ≤ (s.now / 1000000 + 2 ^ 32 -
      f.stageTime) % 2 ^ 32) ∧
    (∃ (q : Ask) (pga length : Nat) (s : State), taken s q 1 = true ∧ pga < 2 ^ 62 ∧ pgaCoord pga = hereAt s ∧ commitRefusal s (pgaDpa
      pga) (pgaDpa pga + length) = none ∧ s.car.frames = []) ∧
    (∃ (id : Nat) (c : CommitOp) (s : State), tfind s.car.commits id = some c ∧ c.recalling = [] ∧ c.blocks = [] ∧ c.again = [] ∧
      c.nasidom = true ∧ tsorted s.car.commits = true ∧ s.car.stats.length = 8) :=
  ⟨⟨q1, 1, node, by decide⟩,
   ⟨0, {}, {}, { state := 1 }, { node with car := { frames := [(0, { state := 1 })] }, stk := { fills := [(0, {})] } }, by decide⟩,
   ⟨0, 0, {}, { lun := some 0 }, { state := 1 }, { logical := 0, part := 0, epoch := 1, seed := 7, poison := [5] },
      { node with car := { frames := [(0, { state := 1 })] }, stk := { fills := [(0, { lun := some 0 })], targets := [(0, true)],
                                                                       map := [(0, { valid := true, phys := 0 })], units := [(0,
                                                                       { logical := 0, part := 0, epoch := 1, seed := 7,
                                                                         poison := [5] })] } }, by decide⟩,
   ⟨0, 0, { done := 1 }, { state := 4 }, { node with car := { frames := [(0, { state := 4 })] },
                                                     stk := { programs := [(0, { done := 1 })] } }, by decide⟩,
   ⟨0, { state := 3, dirty := [5] }, (0, 7), { node with car := { frames := [(0, { state := 3, dirty := [5] })] }, regs := [(0x380200,
                                                         0), (0x380201, 0)], stk := { opened := [(0, 7)] } }, by decide⟩,
   ⟨0, { state := 2, staged := true }, { node with car := { frames := [(0, { state := 2, staged := true })] } }, by decide⟩,
   ⟨q1, 0, 64, { node with car := {  } }, by decide⟩,
   ⟨0, { nasidom := true, ask := q1 }, { node with car := { commits := [(0, { nasidom := true, ask := q1 })] } }, by decide⟩⟩

theorem witness_StreamsRun :
    (∃ (q : Ask) (n : Nat) (s : State), taken s q 1 = true ∧ tfresh s.car.streams (s.car.streams.length + 1) 0 = some n ∧ n < 4096) ∧
    (∃ (q : Ask) (record : Bytes) (r : Stream) (s : State), taken s q 1 = true ∧ streamOf s (selected s q 0x381001) = some r ∧ r.state ≠
      2 ∧ record.length = 64 ∧ leAt record 24 8 % 65536 = 0 ∧ 2 ^ 26 ≤ leAt record 24 8 ∧ leAt record 24 8 ≤ 2 ^ 40) ∧
    (∃ (q : Ask) (r : Stream) (s : State), taken s q 1 = true ∧ streamOf s (selected s q 0x381001) = some r ∧ r.state ≠ 2 ∧ s.car.tiered
      = true ∧ r.source = 0 ∧ pgaCoord (r.list / 64 * 64) ≠ hereAt s) ∧
    (∃ (q : Ask) (r : Stream) (s : State), taken s q 1 = true ∧ streamOf s (selected s q 0x381001) = some r ∧ r.state = 2) ∧
    (∃ (q : Ask) (n : Nat) (r : Stream) (s : State), taken s q 1 = true ∧ n = selected s q 0x381001 ∧ s.car.streams = [(n, r)] ∧
      s.car.stageQueue = [] ∧ s.car.stageFills = [] ∧ r.state ≠ 2) ∧
    (∃ (q : Ask) (r : Stream) (s : State), taken s q 1 = true ∧ streamOf s (selected s q 0x381001) = some r ∧ r.state ≠ 2 ∧ tsorted
      s.car.streams = true) ∧
    (∃ (stream : Nat) (ref : EngRef) (rsp : MRsp) (x : Stream) (l : List (Nat × Nat)) (s : State), s.taken = [(ref, rsp)] ∧ ref.kind =
      .segList ∧ ref.a = stream ∧ streamOf s stream = some x ∧ x.state = 2 ∧ x.fetching ≠ 0 ∧ x.source = 0 ∧ rsp.status = 0 ∧ listEntries
      258 (x.partial_ ++ (rsp.data.drop (ref.b % 64)).take ref.c) = some l) ∧
    (∃ (stream block line due : Nat) (x : Stream) (s : State), streamOf s stream = some x ∧ x.state = 2 ∧ x.retry = [(block, line, due)]
      ∧ due ≤ s.now ∧ s.car.stageOut < 16384) :=
  ⟨⟨q1, 0, { node with car := {  } }, by decide⟩,
   ⟨q1, packLE [(8, 0), (8, 2 ^ 50), (8, 1), (8, 2 ^ 26)] ++ zeros 32, {}, { node with car := { streams := [(0, {})] } }, by decide⟩,
   ⟨q1, { list := 2 ^ 50, listCount := 1 }, { node with car := { streams := [(0, { list := 2 ^ 50, listCount := 1 })] } }, by decide⟩,
   ⟨q1, { state := 2 }, { node with car := { streams := [(0, { state := 2 })] } }, by decide⟩,
   ⟨q1, 0, { position := 3 }, { node with car := { streams := [(0, { position := 3 })] } }, by decide⟩,
   ⟨q1, {}, { node with car := { streams := [(0, {})] } }, by decide⟩,
   ⟨0, { kind := .segList, a := 0, b := 0, c := 16 }, { data := packLE [(8, 0), (8, 64)] ++ zeros 48 },
      { state := 2, fetching := 1, list := 2 ^ 50, listCount := 1 }, [(0, 64)],
      { node with car := { streams := [(0, { state := 2, fetching := 1, list := 2 ^ 50, listCount := 1 })] },
                  taken := [({ kind := .segList, a := 0, b := 0, c := 16 }, { data := packLE [(8, 0), (8, 64)] ++ zeros 48 })] }, by
      decide⟩,
   ⟨0, 5, 6, 0, { state := 2, retry := [(5, 6, 0)] }, { node with car := { streams := [(0, { state := 2, retry := [(5, 6, 0)] })] } }, by
      decide⟩⟩

theorem witness_StacksRun :
    (∃ (stack : Nat) (s : State), stack < nStacks s ∧ inSelfRefresh s (stackOf s stack) = false ∧ (stackOf s stack).refreshDue ≤ s.now) ∧
    (∃ (stack : Nat) (temp : Int) (s : State), stack < nStacks s) ∧
    (∃ (stack k : Nat) (s : State), (stackOf s stack).changing = some k ∧ (stackOf s stack).changeDue ≤ s.now ∧ (stackOf s
      stack).pendingLevel = none) ∧
    (∃ (stack pc steps : Nat) (s : State), stack < nStacks s ∧ pc < 64 ∧ (stackOf s stack).changing = none ∧ isDrained s (stackOf s
      stack) = false ∧ pc ∈ (stackOf s stack).pauseDue ∧ (pausedNow s (stackOf s stack)).length < rHbmPauseConcurrency s) ∧
    (∃ (q : Ask) (stack : Nat) (s : State), taken s q 1 = true ∧ stack < 16 ∧ stack < nStacks s ∧ s.pga.book = [] ∧ (stackOf s
      stack).changing = none) ∧
    (∃ (q : Ask) (stack k : Nat) (s : State), taken s q 1 = true ∧ stack < 16 ∧ stack < nStacks s ∧ s.pga.book = [] ∧ (stackOf s
      stack).changing = some k) ∧
    (∃ (q : Ask) (stack : Nat) (s : State), taken s q 1 = true ∧ stack < 16 ∧ stack < nStacks s ∧ (stackOf s stack).retraining = false) ∧
    (∃ (q : Ask) (stack : Nat) (s : State), taken s q 1 = true ∧ stack < 16 ∧ stack < nStacks s ∧ isDrained s (stackOf s stack) = true ∧
      (stackOf s stack).retraining = false) ∧
    (∃ (stack : Nat) (s : State), (stackOf s stack).retraining = true) ∧
    (∃ (stack line : Nat) (d : List (Nat × Nat)) (s : State), stack < nStacks s ∧ lineStack s line = stack ∧ lineInside s line = true ∧
      lineServes s line = true ∧ tget 0 (stackOf s stack).scrubbed line ≠ scrubRound s ∧ s.mem.damage = [(line, d)] ∧ d ≠ [] ∧
      lineDecodes (tfind (stackOf s stack).marks (linePc s line)) d = true) :=
  ⟨⟨0, node, by decide⟩,
   ⟨0, 90, node, by decide⟩,
   ⟨0, 1, { node with mem := { hbmStacks := [(0, { changing := some 1 })] } }, by decide⟩,
   ⟨0, 3, 2, { node with mem := { hbmStacks := [(0, { pauseDue := [3] })] } }, by decide⟩,
   ⟨q1, 0, node, by decide⟩,
   ⟨q1, 0, 1, { node with mem := { hbmStacks := [(0, { changing := some 1 })] } }, by decide⟩,
   ⟨q1, 0, { node with mem := { hbmStacks := [(0, { drained := true })] } }, by decide⟩,
   ⟨q1, 0, { node with mem := { hbmStacks := [(0, { drained := true })] } }, by decide⟩,
   ⟨0, { node with mem := { hbmStacks := [(0, { drained := true, retraining := true })] } }, by decide⟩,
   ⟨0, 0, [(0, 4)], { node with mem := { damage := [(0, [(0, 4)])], info := [(0, { valid := true, epoch := 1, seed := 7 })], data := [(3,
                                         9)] } }, by decide⟩⟩

theorem witness_StorekeeperRuns :
    (∃ (prog : Nat) (p : Program) (s : State), s.stk.programs = [(prog, p)] ∧ p.unit.kind = 0 ∧ p.done = 0 ∧ p.started = true ∧ p.dropped
      = false ∧ (mapEntry s p.unit.logical).gen = p.unit.gen) ∧
    (∃ (prog : Nat) (found : UnitRead) (p : Program) (s : State), s.stk.programs = [(prog, p)] ∧ p.unit.kind ≠ 0 ∧ p.done = 0 ∧ p.started
      = true ∧ decodes s found = true ∧ unitSound s p.unit found p.unit.part p.unit.logical = true ∧ (mapEntry s p.unit.logical).valid =
      true ∧ (mapEntry s p.unit.logical).phys = p.src ∧ (groupOf s (unitGroup s p.src)).state ≠ 3) ∧
    (∃ (g : Nat) (s : State), bgPaused s = false ∧ s.car.tiered = true ∧ s.stk.collecting = none ∧ nextVictim s = some g) ∧
    (∃ (group : Nat) (o : LunOp) (s : State), tfind s.stk.lunOps (groupLun s group) = some o ∧ o.kind = 1 ∧ o.target = group) ∧
    (∃ (lun : Nat) (o : LunOp) (s : State), tfind s.stk.lunOps lun = some o ∧ o.suspended = true ∧ readingOn s lun = false) ∧
    (∃ (seq : Nat) (j : Journal) (s : State), tfind s.stk.journal seq = some j ∧ j.type = 2 ∧ tsorted s.stk.journal = true) ∧
    (∃ s : State, s.car.tiered = true ∧ bgPaused s = false ∧ s.stk.round = none ∧ rStkCheckpointBytes s ≤ s.stk.placed) ∧
    (∃ (r : Round) (s : State), s.stk.round = some r ∧ bgPaused s = false) ∧
    (∃ (target : Nat) (s : State), (tfind s.stk.targets target).isSome = true ∧ s.stk.programs = [] ∧ s.stk.lunWait = [] ∧ tsorted
      s.stk.targets = true) ∧
    (∃ (unit : Nat) (found : UnitRead) (s : State), bgPaused s = false ∧ s.car.tiered = true ∧ patrols s unit = true ∧ tfind s.stk.units
      unit = none ∧ tsorted (groupOf s (unitGroup s unit)).err = true) ∧
    (∃ (q : Ask) (s : State), taken s q 1 = true ∧ s.car.tiered = true ∧ s.pga.book = [] ∧ s.car.frames = []) :=
  ⟨⟨0, { phys := 5, unit := { logical := 2, gen := 0 }, started := true },
      { node with car := {}, stk := { programs := [(0, { phys := 5, unit := { logical := 2, gen := 0 }, started := true })] } }, by
      decide⟩,
   ⟨0, {}, { phys := 5, unit := { logical := 2, kind := 1, part := 0, epoch := 1, seed := 7 }, src := 2 ^ 24, started := true },
      { node with car := {}, stk := { programs := [(0, { phys := 5,
                                                         unit := { logical := 2, kind := 1, part := 0, epoch := 1, seed := 7 },
                                                         src := 2 ^ 24, started := true })], map := [(2,
                                      { phys := 2 ^ 24, valid := true })], groups := [(65536, { state := 2 })] } }, by decide⟩,
   ⟨7, { node with car := {}, stk := { groups := [(7, { state := 2 })], targets := [(0, true)], groupsPerTarget := 1 } }, by decide⟩,
   ⟨7, { kind := 1, target := 7 }, { node with car := {}, stk := { lunOps := [(0, { kind := 1, target := 7 })], groups := [(7,
                                                                   { state := 4 })], units := [(2 ^ 24, {})] } }, by decide⟩,
   ⟨0, { suspended := true, target := 3 }, { node with car := {}, stk := { lunOps := [(0, { suspended := true, target := 3 })] } }, by
      decide⟩,
   ⟨3, { type := 2, count := 1 }, { node with car := {}, stk := { journal := [(3, { type := 2, count := 1 })] } }, by decide⟩,
   ⟨{ node with car := {}, stk := { placed := 2000000000000, seq := 9 } }, by decide⟩,
   ⟨{ seq := 5 }, { node with car := {}, stk := { round := some { seq := 5 }, map := [(0, { phys := 1, valid := true })], durable := [(4,
                                                  {}), (6, {})] } }, by decide⟩,
   ⟨0, { node with car := {}, stk := { targets := [(0, true), (1, true)], units := [(3, {}), (2 ^ 24, {})], map := [(0,
                                       { phys := 3, valid := true })] } }, by decide⟩,
   ⟨0, { errors := 7 }, { node with car := {}, stk := { groups := [(0, { state := 2 })] } }, by decide⟩,
   ⟨q1, { node with car := {}, stk := { units := [(3, {})], map := [(0, { phys := 3, valid := true })], seq := 9, rounds := 2 } }, by
      decide⟩⟩

theorem witness_TallyRuns :
    (∃ (port ld stu : Nat) (s : State), ldUp s port ld = true) ∧
    (∃ (port ld stu id : Nat) (r : XReq) (s : State), ldUp s port ld = true ∧ s.tlb.reqs = [(id, r)] ∧ r.port = port ∧ r.ld = ld ∧
      r.waiters = [] ∧ r.fault = none ∧ s.tlb.faults = [] ∧ s.tlb.faultWait = [] ∧ tsorted s.tlb.ats = true) ∧
    (∃ (port ld allocation : Nat) (s : State), ldUp s port ld = true ∧ s.tlb.faults = [] ∧ s.tlb.faultWait = [] ∧ tsorted s.tlb.pri =
      true ∧ tsorted s.tlb.alloc = true) ∧
    (∃ (id addr perms n : Nat) (r : XReq) (s : State), tfind s.tlb.reqs id = some r ∧ r.again = false ∧ r.hit = [] ∧ r.fault = none ∧
      r.waiters = [] ∧ r.entry = some n ∧ tsorted s.tlb.reqs = true) ∧
    (∃ (id : Nat) (r : XReq) (s : State), tfind s.tlb.reqs id = some r ∧ r.again = false ∧ r.fault = none ∧ r.due ≤ s.now ∧ tsorted
      s.tlb.reqs = true) ∧
    (∃ (port ld itag addr length : Nat) (pasid : Option Nat) (s : State), ldUp s port ld = true ∧ s.tlb.invals.length < 64 ∧
      (s.tlb.invals.filter fun p => p.2.port == port && p.2.ld == ld).length < 32 ∧ s.tlb.invalWait = []) ∧
    (∃ (q : Ask) (ctx cva length : Nat) (s : State), taken s q 1 = true ∧ ctx < 4096 ∧ (ctxOf s ctx).state ≠ 3 ∧ s.tlb.invals.length < 64
      ∧ (s.tlb.invals.filter fun p => p.2.port == (ctxOf s ctx).port && p.2.ld == (ctxOf s ctx).ld).length < 32 ∧ s.tlb.invalWait = []) ∧
    (∃ (id quad : Nat) (iv : Inval) (s : State), tfind s.tlb.invals id = some iv ∧ iv.engines = [quad] ∧ (∀ p ∈ s.cle.access, (p.2.quad
      == quad && accessUnder s iv p.2) = false)) ∧
    (∃ (id quad : Nat) (iv : Inval) (s : State), tfind s.tlb.invals id = some iv ∧ (∃ x ∈ iv.engines, x ≠ quad) ∧ (∀ p ∈ s.cle.access,
      (p.2.quad == quad && accessUnder s iv p.2) = false)) ∧
    (∃ (index : Nat) (f : PFault) (s : State), tfind s.tlb.faults index = some f ∧ f.retranslating = false ∧ tsorted s.tlb.faults = true
      ∧ (∀ p ∈ s.tlb.faults, p.1 ≠ index → p.2.resend = false) ∧ s.tlb.faultWait = []) ∧
    (∃ (index : Nat) (f : PFault) (s : State), tfind s.tlb.faults index = some f ∧ f.retranslating = false ∧ f.due ≤ s.now ∧
      s.tlb.faultWait = [] ∧ tsorted s.tlb.faults = true) ∧
    (∃ (index due : Nat) (f : PFault) (s : State), tfind s.tlb.faults index = some f ∧ f.retranslating = false ∧ f.downDue = some due ∧
      due ≤ s.now ∧ s.tlb.faultWait = [] ∧ tsorted s.tlb.faults = true) :=
  ⟨⟨0, 0, 0, node, by decide⟩,
   ⟨0, 0, 0, 7, {}, { node with tlb := { reqs := [(7, {})], ats := [(0, true)] } }, by decide⟩,
   ⟨0, 0, 300, node, by decide⟩,
   ⟨0, 2 ^ 30, 1, 4, { entry := some 4, piece := 2 }, { node with tlb := { reqs := [(0, { entry := some 4, piece := 2 })] } }, by decide⟩,
   ⟨0, { entry := some 4, piece := 2 }, { node with tlb := { reqs := [(0, { entry := some 4, piece := 2 })], entries := [(4, {})] } }, by
      decide⟩,
   ⟨0, 0, 9, 0, 2 ^ 26, some 3, node, by decide⟩,
   ⟨q1, 0, 0, 2 ^ 26, { node with cle := { ctxs := [(0, { state := 1, pasid := 3 })] } }, by decide⟩,
   ⟨0, 5, { engines := [5], itag := some 1 }, { node with tlb := { invals := [(0, { engines := [5], itag := some 1 })] } }, by decide⟩,
   ⟨0, 5, { engines := [5, 6], itag := some 1 }, { node with tlb := { invals := [(0, { engines := [5, 6], itag := some 1 })] } }, ⟨by
      decide, ⟨6, by decide⟩, by decide⟩⟩,
   ⟨0, { pasid := 3, piece := 2 }, { node with tlb := { faults := [(0, { pasid := 3, piece := 2 })] } }, by decide⟩,
   ⟨0, { pasid := 3, piece := 2 }, { node with tlb := { faults := [(0, { pasid := 3, piece := 2 })] } }, by decide⟩,
   ⟨0, 0, { pasid := 3, piece := 2, downDue := some 0 },
      { node with tlb := { faults := [(0, { pasid := 3, piece := 2, downDue := some 0 })] } }, by decide⟩⟩

theorem witness_ContextsRun :
    (∃ (q : Ask) (part n : Nat) (s : State), taken s q 1 = true ∧ n = selected s q 0x500200 ∧ part ≤ 63 ∧ (ctxOf s n).assigned = false) ∧
    (∃ (q : Ask) (n : Nat) (s : State), taken s q 1 = true ∧ n = selected s q 0x500200 ∧ (ctxOf s n).state = 3 ∧ (ctxOf s n).ranks = none) ∧
    (∃ (q : Ask) (record : Bytes) (n : Nat) (s : State), taken s q 1 = true ∧ n = selected s q 0x500200 ∧ (ctxOf s n).state = 3 ∧ (ctxOf
      s n).ranks = none ∧ record.length = 64 ∧ 0 < bits (leAt record 28 4) 0 7 ∧ bits (leAt record 28 4) 0 7 ≤ 64) ∧
    (∃ (q : Ask) (n : Nat) (s : State), taken s q 1 = true ∧ n = selected s q 0x500200 ∧ (ctxOf s n).state = 3 ∧ (ctxOf s n).waiting =
      none ∧ (ctxOf s n).ranks = none ∧ bindRefusal s (ctxOf s n) = 0 ∧ bitOf (ctxOf s n).fabric 0 = false) ∧
    (∃ (q : Ask) (n : Nat) (s : State), taken s q 1 = true ∧ n = selected s q 0x500200 ∧ (ctxOf s n).state ≠ 3 ∧ (ctxOf s n).waiting =
      none) ∧
    (∃ (q : Ask) (n : Nat) (s : State), taken s q 1 = true ∧ n = selected s q 0x500200 ∧ (ctxOf s n).state = 2 ∧ (ctxOf s n).waiting =
      none) ∧
    (∃ (q : Ask) (n : Nat) (s : State), taken s q 1 = true ∧ n = selected s q 0x500200 ∧ (ctxOf s n).state ≠ 3 ∧ (ctxOf s n).waiting =
      none) ∧
    (∃ (q : Ask) (ctx : Nat) (s : State), (ctxOf (runQueues s) ctx).waiting = some (2, q) ∧ (ctxOf (runQueues s) ctx).inval = 2 ∧ jobsOf
      (runQueues s) ctx = [] ∧ bitOf (ctxOf (runQueues s) ctx).fabric 0 = false) ∧
    (∃ (q : Ask) (ctx : Nat) (s : State), (ctxOf (runQueues s) ctx).waiting = some (4, q) ∧ jobsOf (runQueues s) ctx = [] ∧ (∀ p ∈
      (runQueues s).cle.access, p.2.ctx = ctx → openCounter p.2 = false)) ∧
    (∃ (port ld page value : Nat) (s : State), ldUp s port ld = true ∧ pageLive s port ld page = true ∧ value % 2 ^ 32 < 2 ^ (ctxOf s
      page).sqOrder) ∧
    (∃ (port ld page value : Nat) (s : State), ldUp s port ld = true ∧ pageLive s port ld page = true) :=
  ⟨⟨q1, 0, 0, node, by decide⟩,
   ⟨q1, 0, { node with cle := { ctxs := [(0, { assigned := true })] } }, by decide⟩,
   ⟨q1, packLE [(4, 0), (4, 5), (8, 0), (8, 4096), (1, 6), (1, 6), (2, 3), (4, 64)] ++ zeros 32, 0,
      { node with cle := { ctxs := [(0, { assigned := true })] } }, by decide⟩,
   ⟨q1, 0, { hostNode with cle := { ctxs := [(0, { assigned := true, cqBase := 4096 })] } }, by decide⟩,
   ⟨q1, 0, { node with cle := { ctxs := [(0, { state := 1, assigned := true })] } }, by decide⟩,
   ⟨q1, 0, { node with cle := { ctxs := [(0, { state := 2, assigned := true, haltCode := 99 })] } }, by decide⟩,
   ⟨q1, 0, { node with cle := { ctxs := [(0, { state := 1, assigned := true })] } }, by decide⟩,
   ⟨q1, 0, { node with cle := { ctxs := [(0, { state := 1, assigned := true, waiting := some (2, q1), inval := 2 })] } }, by decide⟩,
   ⟨q1, 0, { node with cle := { ctxs := [(0, { state := 1, assigned := true, waiting := some (4, q1) })] } }, by decide⟩,
   ⟨0, 0, 0, 3, { node with cle := { ctxs := [(0, { state := 0, assigned := true })] } }, by decide⟩,
   ⟨0, 0, 0, 3, { node with cle := { ctxs := [(0, { state := 0, assigned := true })] } }, by decide⟩⟩

theorem witness_JobsRun :
    (∃ (ctx : Nat) (d : Bytes) (s : State), (ctxOf (runQueues s) ctx).fetched = some (0, d) ∧ (ctxOf (runQueues s) ctx).state = 1 ∧
      (ctxOf (runQueues s) ctx).waiting = none ∧ (runQueues s).cle.jobs.length < 16384) ∧
    (∃ (job : Nat) (x : Job) (s : State), tfind (runQueues s).cle.jobs job = some x ∧ x.phase = 2 ∧ (dCounter x.desc = false ∨ x.checkErr
      ≠ 0)) ∧
    (∃ (job : Nat) (x : Job) (s : State), tfind (runQueues s).cle.jobs job = some x ∧ x.phase = 2 ∧ dCounter x.desc = true ∧ x.checkErr =
      0) ∧
    (∃ (chunk quad : Nat) (c : Chunk) (x : Job) (s : State), tfind s.cle.chunks chunk = some c ∧ tfind s.cle.jobs c.job = some x ∧
      c.state = 0 ∧ x.phase = 1 ∧ quadTakes s quad = true ∧ (c.reissues = 0 ∨ c.quad ≠ quad)) ∧
    (∃ (chunk gen : Nat) (c : Chunk) (x : Job) (s : State), tfind (runQueues s).cle.chunks chunk = some c ∧ tfind (runQueues s).cle.jobs
      c.job = some x ∧ c.state = 1 ∧ c.gen = gen ∧ c.step = 2 ∧ c.homeOp = false ∧ c.faulting = false ∧ dOp x.desc ≠ 3) ∧
    (∃ (chunk gen : Nat) (c : Chunk) (x : Job) (s : State), tfind (runQueues s).cle.chunks chunk = some c ∧ tfind (runQueues s).cle.jobs
      c.job = some x ∧ c.state = 1 ∧ c.gen = gen ∧ c.step = 2 ∧ dOp x.desc = 3) ∧
    (∃ (chunk gen err : Nat) (c : Chunk) (s : State), tfind s.cle.chunks chunk = some c ∧ c.state = 1 ∧ c.gen = gen ∧ err ≠ 0) ∧
    (∃ (chunk gen err : Nat) (c : Chunk) (s : State), tfind s.cle.chunks chunk = some c ∧ c.state ≠ 0 ∧ c.gen ≠ gen ∧ err ≠ 0) ∧
    (∃ (chunk quad : Nat) (c : Chunk) (x : Job) (s : State), tfind s.cle.chunks chunk = some c ∧ tfind s.cle.jobs c.job = some x ∧
      c.state = 1 ∧ c.homeOp = false ∧ c.faulting = false ∧ c.due ≤ s.now ∧ x.gen + 1 < 65535 ∧ c.reissues < rCleReissueLimit s ∧
      nextQuad s c.quad = some quad) ∧
    (∃ (chunk : Nat) (c : Chunk) (s : State), tfind s.cle.chunks chunk = some c ∧ c.state = 1 ∧ c.homeOp = true ∧ c.faulting = false ∧
      c.due ≤ s.now) ∧
    (∃ (chunk : Nat) (c : Chunk) (x : Job) (s : State), tfind s.cle.chunks chunk = some c ∧ tfind s.cle.jobs c.job = some x ∧ c.state = 2
      ∧ lateAccesses s chunk c ≠ [] ∧ dOp x.desc ≠ 0x11) ∧
    (∃ (chunk : Nat) (c : Chunk) (x : Job) (s : State), tfind s.cle.chunks chunk = some c ∧ tfind s.cle.jobs c.job = some x ∧ c.state = 2
      ∧ lateAccesses s chunk c ≠ [] ∧ dOp x.desc = 0x11) ∧
    (∃ (job : Nat) (x : Job) (s : State), tfind s.cle.jobs job = some x ∧ x.phase = 3 ∧ lateCounters s job ≠ []) ∧
    (∃ (id k : Nat) (a : Access) (c : Chunk) (s : State), s.cle.access = [(id, a)] ∧ a.home = hereAt s ∧ a.chunk = some k ∧ tfind
      s.cle.chunks k = some c ∧ c.state = 2 ∧ a.gen = c.gen) :=
  ⟨⟨0, [1] ++ zeros 63, { node with cle := { ctxs := [(0, { state := 1, assigned := true, fetched := some (0, [1] ++ zeros 63),
                                                            fetching := true })] } }, by decide +kernel⟩,
   ⟨0, { desc := [1] ++ zeros 63, phase := 2 },
      { node with cle := { ctxs := [(0, { state := 1, assigned := true })], jobs := [(0, { desc := [1] ++ zeros 63, phase := 2 })] } },
      by decide +kernel⟩,
   ⟨0, { desc := [1, 0, 0x40] ++ zeros 61, phase := 2 },
      { node with cle := { ctxs := [(0, { state := 1, assigned := true })], jobs := [(0,
                           { desc := [1, 0, 0x40] ++ zeros 61, phase := 2 })] } }, by decide +kernel⟩,
   ⟨0, 5, { len := 64 }, { desc := [1] ++ zeros 63, phase := 1, chunkCount := 1, nextChunk := 1 },
      { node with cle := { ctxs := [(0, { state := 1, assigned := true })], jobs := [(0,
                           { desc := [1] ++ zeros 63, phase := 1, chunkCount := 1, nextChunk := 1 })], chunks := [(0,
                           { len := 64 })] } }, by decide +kernel⟩,
   ⟨0, 0, { len := 64, state := 1, step := 2, due := 2 ^ 40 }, { desc := [1] ++ zeros 63, phase := 1, chunkCount := 1, nextChunk := 1 },
      { node with cle := { ctxs := [(0, { state := 1, assigned := true })], jobs := [(0,
                           { desc := [1] ++ zeros 63, phase := 1, chunkCount := 1, nextChunk := 1 })], chunks := [(0,
                           { len := 64, state := 1, step := 2, due := 2 ^ 40 })] } }, by decide +kernel⟩,
   ⟨0, 0, { len := 64, state := 1, step := 2, due := 2 ^ 40 }, { desc := [3] ++ zeros 63, phase := 1, chunkCount := 1, nextChunk := 1 },
      { node with cle := { ctxs := [(0, { state := 1, assigned := true })], jobs := [(0,
                           { desc := [3] ++ zeros 63, phase := 1, chunkCount := 1, nextChunk := 1 })], chunks := [(0,
                           { len := 64, state := 1, step := 2, due := 2 ^ 40 })] } }, by decide +kernel⟩,
   ⟨0, 0, 5, { len := 64, state := 1 }, { node with cle := { ctxs := [(0, { state := 1, assigned := true })], jobs := [(0,
                                                             { desc := [1] ++ zeros 63, phase := 1, chunkCount := 1, nextChunk := 1 })],
                                                             chunks := [(0, { len := 64, state := 1 })] } }, by decide +kernel⟩,
   ⟨0, 7, 5, { len := 64, state := 1 }, { node with cle := { ctxs := [(0, { state := 1, assigned := true })], jobs := [(0,
                                                             { desc := [1] ++ zeros 63, phase := 1, chunkCount := 1, nextChunk := 1 })],
                                                             chunks := [(0, { len := 64, state := 1 })] } }, by decide +kernel⟩,
   ⟨0, 1, { len := 64, state := 1 }, { desc := [1] ++ zeros 63, phase := 1, chunkCount := 1, nextChunk := 1 },
      { node with cle := { ctxs := [(0, { state := 1, assigned := true })], jobs := [(0,
                           { desc := [1] ++ zeros 63, phase := 1, chunkCount := 1, nextChunk := 1 })], chunks := [(0,
                           { len := 64, state := 1 })] } }, by decide +kernel⟩,
   ⟨0, { len := 64, state := 1, homeOp := true },
      { node with cle := { ctxs := [(0, { state := 1, assigned := true })], jobs := [(0,
                           { desc := [0x11] ++ zeros 63, phase := 1, chunkCount := 1, nextChunk := 1 })], chunks := [(0,
                           { len := 64, state := 1, homeOp := true })] } }, by decide +kernel⟩,
   ⟨0, { len := 64, state := 2 }, { desc := [1] ++ zeros 63, phase := 1, chunkCount := 1, nextChunk := 1 },
      { node with cle := { ctxs := [(0, { state := 1, assigned := true })], jobs := [(0,
                           { desc := [1] ++ zeros 63, phase := 1, chunkCount := 1, nextChunk := 1 })], chunks := [(0,
                           { len := 64, state := 2 })], access := [(0, { chunk := some 0 })] } }, by decide +kernel⟩,
   ⟨0, { len := 64, state := 2, homeOp := true, pos := 64 }, { desc := [0x11] ++ zeros 63, phase := 1, chunkCount := 1, nextChunk := 1 },
      { node with cle := { ctxs := [(0, { state := 1, assigned := true })], jobs := [(0,
                           { desc := [0x11] ++ zeros 63, phase := 1, chunkCount := 1, nextChunk := 1 })], chunks := [(0,
                           { len := 64, state := 2, homeOp := true, pos := 64 })], access := [(0, { chunk := some 0 })] } }, by
      decide +kernel⟩,
   ⟨0, { desc := [1, 0, 0x40] ++ zeros 61, phase := 3, counterSent := true },
      { node with cle := { ctxs := [(0, { state := 1, assigned := true })], jobs := [(0,
                           { desc := [1, 0, 0x40] ++ zeros 61, phase := 3, counterSent := true })], access := [(0, { op := 4 })] } }, by
      decide +kernel⟩,
   ⟨0, 0, { chunk := some 0 }, { len := 64, state := 2 },
      { node with cle := { ctxs := [(0, { state := 1, assigned := true })], jobs := [(0,
                           { desc := [1] ++ zeros 63, phase := 1, chunkCount := 1, nextChunk := 1 })], chunks := [(0,
                           { len := 64, state := 2 })], access := [(0, { chunk := some 0 })] } }, by decide +kernel⟩⟩

theorem witness_WindowsRun :
    (∃ (q : Ask) (arg : Bytes) (a : GrantArg) (c lda n : Nat) (s : State), taken s q 1 = true ∧ arg.length = 86 ∧ grantArg s (arg.take
      64) = some a ∧ a.ways = 1 ∧ a.members = [c] ∧ c ≠ hereAt s ∧ a.length = 0 ∧ a.view = 0 ∧ windowFormats (leAt arg 64 1) (leAt arg 65
      1) = true ∧ leAt arg 66 8 ≠ 0 ∧ leAt arg 66 8 % 64 = 0 ∧ leAt arg 66 8 ≤ 2 ^ 36 ∧ leAt arg 74 4 ≠ 0 ∧ leAt arg 78 8 % 8 = 0 ∧ leAt
      arg 78 8 < 2 ^ 62 ∧ inTorus s (pgaCoord (leAt arg 78 8)) = true ∧ (tdiOf s (ldKey a.port a.ld)).part = a.part ∧ lowestLda s a.port
      a.ld a.region (windowLength (leAt arg 64 1) (leAt arg 65 1) (leAt arg 66 8)) = some lda ∧ tfresh s.pga.book (s.pga.book.length + 1)
      0 = some n ∧ n < 1048576) ∧
    (∃ (q : Ask) (arg : Bytes) (n : Nat) (s : State), taken s q 1 = true ∧ arg.length = 11 ∧ leAt arg 0 8 < 2 ^ 62 ∧ inTorus s (pgaCoord
      (leAt arg 0 8)) = true ∧ pgaCoord (leAt arg 0 8) ≠ hereAt s ∧ bits (leAt arg 8 2) 0 5 < 24 ∧ leAt arg 8 2 < 4096 ∧ leAt arg 10 1 <
      4 ∧ (tdiOf s (ldKey (bits (leAt arg 8 2) 0 5) (bits (leAt arg 8 2) 5 4))).part < 64 ∧ tfresh s.pga.book (s.pga.book.length + 1) 0 =
      some n ∧ n < 1048576) ∧
    (∃ (p : Packet) (s : State), p.opcode = 0x08 ∧ malformedPacket p = false) ∧
    (∃ (home seq : Nat) (c : Contrib) (s : State), s.win.out = [c] ∧ c.home = home ∧ c.seq = seq ∧ c.released = false ∧ c.due ≤ s.now ∧
      home ≠ hereAt s ∧ s.win.waiting = [] ∧ s.win.owed = [] ∧ s.win.stats.length = 8) ∧
    (∃ (home seq : Nat) (c : Contrib) (s : State), s.win.out = [c] ∧ c.home = home ∧ c.seq = seq ∧ c.released = true ∧ c.due ≤ s.now ∧
      home ≠ hereAt s) ∧
    (∃ (p : Packet) (s : State), p.opcode = 0x89 ∧ malformedPacket p = false ∧ bitOf p.aux 32 = false) ∧
    (∃ (p : Packet) (c : Contrib) (s : State), p.opcode = 0x89 ∧ malformedPacket p = false ∧ bitOf p.aux 32 = true ∧ s.win.out = [c] ∧
      c.home = p.src ∧ c.seq = p.aux % 2 ^ 32 ∧ c.released = true) ∧
    (∃ (q : Ask) (expected pga n c : Nat) (h : BookEntry) (s : State), taken s q 1 = true ∧ pga = selected s q 0x510100 ∧ homeAt s
      (pgaDpa pga) = some (n, h) ∧ pgaCoord pga = hereAt s ∧ h.window = true ∧ h.base = pgaDpa pga ∧ expected < 2 ^ 32 ∧ (winOf s
      n).state ≠ 3 ∧ (winOf s n).binders = [c] ∧ c ≠ hereAt s) ∧
    (∃ (p : Packet) (s : State), p.opcode = 0x8A ∧ malformedPacket p = false ∧ leAt p.payload 2 1 = 0) ∧
    (∃ (p : Packet) (n : Nat) (h : BookEntry) (s : State), p.opcode = 0x8A ∧ malformedPacket p = false ∧ leAt p.payload 2 1 ≠ 0 ∧ homeAt
      s (pgaDpa p.pga) = some (n, h) ∧ h.window = true ∧ leAt p.payload 0 2 = ((winOf s n).gen + 1) % 65536) ∧
    (∃ (entry : Nat) (s : State), (winOf s entry).state = 3 ∧ (winOf s entry).rearmDue ≤ s.now ∧ (winOf s entry).held = [] ∧ firmwareHeld
      s = false) :=
  ⟨⟨q1, packLE [(1, 0), (1, 0), (1, 0), (1, 0), (1, 3), (1, 0), (1, 1), (1, 0), (8, 0), (8, 0), (2, 1)] ++ zeros 38 ++ packLE [(1, 1),
      (1, 1), (8, 64), (4, 2), (8, 0)], { port := 0, ld := 0, region := 0, part := 0, read := true, write := true, view := 0, ways := 1,
                                          length := 0, granule := 0, members := [1] }, 1, 0, 0, node, by decide⟩,
   ⟨q1, packLE [(8, 2 ^ 50), (2, 0), (1, 3)], 0, node, by decide⟩,
   ⟨{ opcode := 0x08, src := 1, tag := 4, payload := zeros 64, aux := 2 ^ 64 - 1 }, node, by decide⟩,
   ⟨1, 3, { home := 1, seq := 3 }, { node with win := { out := [{ home := 1, seq := 3 }] } }, by decide⟩,
   ⟨1, 3, { home := 1, seq := 3, released := true }, { node with win := { out := [{ home := 1, seq := 3, released := true }] } }, by
      decide⟩,
   ⟨{ opcode := 0x89, src := 1, aux := 7 }, node, by decide⟩,
   ⟨{ opcode := 0x89, src := 1, aux := 3 + 2 ^ 32 }, { home := 1, seq := 3, released := true },
      { node with win := { out := [{ home := 1, seq := 3, released := true }] } }, by decide⟩,
   ⟨q1, 5, 0, 0, 1, { home0 with window := true, length := 2 ^ 26 },
      { booked [(0, { home0 with window := true, length := 2 ^ 26 })] with win := { recs := [(0, { binders := [1] })] } }, by decide⟩,
   ⟨{ opcode := 0x8A, src := 1, pga := 2 ^ 50, payload := [1, 0, 0, 0, 0, 0, 0, 0] }, node, by decide⟩,
   ⟨{ opcode := 0x8A, src := 1, payload := [1, 0, 1, 0, 0, 0, 0, 0] }, 0, { home0 with window := true, length := 2 ^ 26 },
      { booked [(0, { home0 with window := true, length := 2 ^ 26 })] with win := { recs := [(0,
                                                                                    { state := 3, binders := [1], awaited := [1] })] } },
      by decide⟩,
   ⟨0, { booked [(0, { home0 with window := true, length := 2 ^ 26 })] with win := { recs := [(0,
                                                                                     { state := 3, binders := [1], awaited := [1],
                                                                                       count := 4 })] } }, by decide⟩⟩

theorem witness_FabricRuns :
    (∃ (q : Ask) (value : Nat) (s : State), taken s q 1 = true ∧ value ≤ 4095 ∧ ringsOff s = true ∧ tsorted s.regs = true) ∧
    (∃ (q : Ask) (value : Nat) (s : State), taken s q 1 = true ∧ value ≤ 4095 ∧ ringsOff s = true ∧ tsorted s.regs = true) ∧
    (∃ (q : Ask) (port value : Nat) (s : State), taken s q 1 = true ∧ port < 7 ∧ value ≤ 1 ∧ tsorted s.regs = true) ∧
    (∃ (q : Ask) (value : Nat) (s : State), taken s q 1 = true ∧ bits (value % 2 ^ 18) 1 2 ≠ 2) ∧
    (∃ (q : Ask) (s : State), taken s q 1 = true) ∧
    (∃ (p : Packet) (s : State), malformedPacket p = false) ∧
    (∃ (k : Nat) (p : Packet) (s : State), k < 7) ∧
    (∃ (x : Transit) (s : State), s.mar.transit = [x] ∧ s.mar.transitWait = [] ∧ x.expires = none ∧ x.atWpt = false) ∧
    (∃ (p : Packet) (s : State), p.opcode = 0x8B ∧ malformedPacket p = false ∧ s.mar.legWait = []) ∧
    (∃ (w : Packet × Nat) (port : Nat) (p : Packet) (enters : Bool) (s : State), s.mar.spill = [w] ∧ s.mar.transit = [] ∧ spillReady s w
      = true ∧ routeHop s w.1 none true false = .send port p enters) ∧
    (∃ (p : Packet) (s : State), p.opcode = 0x85 ∧ malformedPacket p = false ∧ leAt p.payload 7 1 = 0 ∧ leAt p.payload 2 1 ≠ 1 ∧
      s.mar.failed.length < 64) ∧
    (∃ (p : Packet) (s : State), p.opcode = 0x85 ∧ malformedPacket p = false ∧ leAt p.payload 7 1 = 0 ∧ leAt p.payload 2 1 = 1) ∧
    (∃ (r : Repeat) (s : State), s.mar.repeats = [r] ∧ r.due ≤ s.now ∧ 2 ≤ r.left) ∧
    (∃ (w : Waiting) (tag : Nat) (rest : List Waiting) (s : State), s.mar.waiting = w :: rest ∧ freeTag s w.gen = some tag) ∧
    (∃ (tag : Nat) (r : TagRec) (s : State), tfind s.mar.tags tag = some r ∧ r.isOpen = false ∧ r.held = false ∧ r.due ≤ s.now ∧ tsorted
      s.mar.tags = true) ∧
    (∃ (tag id : Nat) (r : TagRec) (m : MReq) (h : HostReq) (s : State), openTagOf s tag = some r ∧ r.due ≤ s.now ∧ r.twin = none ∧ r.use
      = .mem m ∧ m.who = .host id ∧ tfind s.cxl.reqs id = some h ∧ tsorted s.cxl.reqs = true) ∧
    (∃ (tag : Nat) (r : TagRec) (s : State), tfind s.mar.tags tag = some r ∧ r.held = true ∧ r.due ≤ s.now) :=
  ⟨⟨q1, 5, node, by decide⟩,
   ⟨q1, 0x333, node, by decide⟩,
   ⟨q1, 2, 1, node, by decide⟩,
   ⟨q1, 1, node, by decide⟩,
   ⟨q1, node, by decide⟩,
   ⟨mng 2 0 [], node, by decide⟩,
   ⟨2, { opcode := 0x02, dest := 1 }, node, by decide⟩,
   ⟨{ pkt := { opcode := 0x02, dest := 1 } }, { node with mar := { transit := [{ pkt := { opcode := 0x02, dest := 1 } }] } }, by decide⟩,
   ⟨{ opcode := 0x8B, src := 1 }, { node with mar := { firstLeg := [(1, 3)] } }, by decide⟩,
   ⟨({ opcode := 0x02, dest := 1 }, 2), 0, { opcode := 0x02, dest := 1, dir := 0 }, true,
      { node with regs := [(0x100001, 0x111), (0x100002, 127)],
                  mar := { spill := [({ opcode := 0x02, dest := 1 }, 2)], routeSize := 0x111 },
                  lnk := { ports := [(0, { state := 3, farBuffers := [9, 9, 9, 9, 9] })] } }, by decide⟩,
   ⟨{ opcode := 0x85, src := 1, payload := [1, 0, 0, 0, 0, 0, 0, 0] }, node, by decide⟩,
   ⟨{ opcode := 0x85, src := 1, payload := [1, 0, 1, 0, 0, 0, 0, 0] }, { node with mar := { failed := [1] } }, by decide⟩,
   ⟨{ left := 3 }, { node with mar := { repeats := [{ left := 3 }] } }, by decide⟩,
   ⟨{ pkt := { opcode := 0x02, dest := 1 }, use := .unref, npk := 1, cls := 2 }, 0, [],
      { node with mar := { waiting := [{ pkt := { opcode := 0x02, dest := 1 }, use := .unref, npk := 1, cls := 2 }] } }, by decide⟩,
   ⟨4, { isOpen := false }, { node with mar := { tags := [(4, { isOpen := false })] } }, by decide⟩,
   ⟨4, 0, { use := .mem { who := .host 0 }, dest := 1 }, { who := .host 0 }, { tag := 3 },
      { node with mar := { tags := [(4, { use := .mem { who := .host 0 }, dest := 1 })] },
                  cxl := { node.cxl with reqs := [(0, { tag := 3 })] } }, by decide⟩,
   ⟨4, { isOpen := false, held := true }, { node with mar := { tags := [(4, { isOpen := false, held := true })] } }, by decide⟩⟩

theorem witness_RequestsArrive :
    (∃ (c : Instr) (o : Nat) (p : Packet) (s : State), (c, o) ∈ [(.read p, 0x01), (.write p, 0x02), (.cleanEvict p, 0x04), (.atomic p,
      0x05), (.append p, 0x06)] ∧ p.opcode = o ∧ newHere s p = true ∧ twinRange s (pgaDpa p.pga) = none) ∧
    (∃ (p : Packet) (s : State), p.opcode = 0x07 ∧ newHere s p = true ∧ twinRange s (pgaDpa p.pga) = none) ∧
    (∃ (p : Packet) (s : State), p.opcode = 0x09 ∧ newHere s p = true ∧ twinRange s (pgaDpa p.pga) = none) ∧
    (∃ (p : Packet) (s : State), p.opcode = 0x03 ∧ newHere s p = true ∧ bits p.aux 0 6 = 0 ∧ bits p.aux 6 6 = 1 ∧ tfind s.mar.chunks
      (p.src * 65536 + p.tag) = none) ∧
    (∃ (p : Packet) (s : State), p.opcode = 0x03 ∧ newHere s p = true ∧ bits p.aux 0 6 = 0 ∧ bits p.aux 6 6 = 0 ∧ tfind s.mar.chunks
      (p.src * 65536 + p.tag) = none ∧ twinRange s (pgaDpa p.pga) = none) ∧
    (∃ (src tag : Nat) (x : PartialOp) (s : State), tfind s.mar.chunks (src * 65536 + tag) = some x ∧ x.due ≤ s.now ∧ tsorted
      s.mar.chunks = true) ∧
    (∃ (p : Packet) (s : State), p.opcode = 0x83 ∧ malformedPacket p = false) :=
  ⟨⟨.read { opcode := 0x01, src := 1, tag := 4 }, 0x01, { opcode := 0x01, src := 1, tag := 4 }, booked [(0, home0)], ⟨by simp, by decide⟩⟩,
   ⟨{ opcode := 0x07, src := 1, tag := 4, payload := packLE [(8, 64), (8, 0)] }, { booked [(0, home0)] with car := {} }, by decide⟩,
   ⟨{ opcode := 0x09, src := 1, tag := 4 }, booked [(0, home0)], by decide⟩,
   ⟨{ opcode := 0x03, src := 1, tag := 4, aux := 64, payload := zeros 64 }, booked [(0, home0)], by decide⟩,
   ⟨{ opcode := 0x03, src := 1, tag := 4, payload := zeros 64 }, booked [(0, home0)], by decide⟩,
   ⟨1, 4, {}, { node with mar := { chunks := [(65540, {})] } }, by decide⟩,
   ⟨{ opcode := 0x83, src := 1, tag := 4, payload := packLE [(8, 64)] }, booked [(0, home0)], by decide⟩⟩

theorem witness_ResponsesArrive :
    (∃ (p : Packet) (id : Nat) (r : TagRec) (m : MReq) (h : HostReq) (s : State), p.opcode = 0x41 ∧ malformedPacket p = false ∧ tfind
      s.mar.tags p.tag = some r ∧ r.isOpen = true ∧ r.held = false ∧ r.got = [] ∧ r.data = [] ∧ r.npk = 1 ∧ r.twinned = false ∧ r.use =
      .mem m ∧ m.who = .host id ∧ tfind s.cxl.reqs id = some h ∧ tsorted s.cxl.reqs = true) ∧
    (∃ (p : Packet) (id : Nat) (r : TagRec) (m : MReq) (h : HostReq) (s : State), p.opcode = 0x42 ∧ malformedPacket p = false ∧ tfind
      s.mar.tags p.tag = some r ∧ r.isOpen = true ∧ r.held = false ∧ r.got = [] ∧ r.twinned = false ∧ r.use = .mem m ∧ m.who = .host id ∧
      tfind s.cxl.reqs id = some h ∧ tsorted s.cxl.reqs = true) ∧
    (∃ (c : Instr) (p : Packet) (s : State), (c = .data p ∧ p.opcode = 0x41 ∨ c = .done p ∧ p.opcode = 0x42) ∧ malformedPacket p = false
      ∧ tfind s.mar.tags p.tag = none) ∧
    (∃ (p : Packet) (r : TagRec) (ref : EngRef) (a : Access) (s : State), p.opcode = 0x88 ∧ malformedPacket p = false ∧ openTagOf s p.tag
      = some r ∧ r.use = .commit ref ∧ tfind s.cle.access ref.a = some a) :=
  ⟨⟨{ opcode := 0x41, src := 1, tag := 4, payload := zeros 64 }, 0, { use := .mem { who := .host 0, kind := .readShared }, dest := 1 },
      { who := .host 0, kind := .readShared }, { tag := 3, opcode := 3 },
      { node with mar := { tags := [(4, { use := .mem { who := .host 0, kind := .readShared }, dest := 1 })] },
                  cxl := { node.cxl with reqs := [(0, { tag := 3, opcode := 3 })] } }, by decide⟩,
   ⟨{ opcode := 0x42, src := 1, tag := 4 }, 0, { use := .mem { who := .host 0, kind := .readShared }, dest := 1 },
      { who := .host 0, kind := .readShared }, { tag := 3, opcode := 3 },
      { node with mar := { tags := [(4, { use := .mem { who := .host 0, kind := .readShared }, dest := 1 })] },
                  cxl := { node.cxl with reqs := [(0, { tag := 3, opcode := 3 })] } }, by decide⟩,
   ⟨.data { opcode := 0x41, src := 1, tag := 4 }, { opcode := 0x41, src := 1, tag := 4 }, node, ⟨.inl ⟨rfl, rfl⟩, by decide⟩⟩,
   ⟨{ opcode := 0x88, src := 1, tag := 4 }, { use := .commit { kind := .chunkWrite, a := 0 }, dest := 1 },
      { kind := .chunkWrite, a := 0 }, { chunk := some 0 },
      { node with mar := { tags := [(4, { use := .commit { kind := .chunkWrite, a := 0 }, dest := 1 })] },
                  cle := { chunks := [(0, { state := 2 })], access := [(0, { chunk := some 0 })] } }, by decide⟩⟩

theorem witness_LinksRun :
    (∃ (port : Nat) (f : Flit) (s : State), port < 7 ∧ takesFlits (linkOf s port) = true ∧ badFlit f = false ∧ f.ftype = 0 ∧ f.seq =
      (linkOf s port).e) ∧
    (∃ (port : Nat) (f : Flit) (s : State), port < 7 ∧ takesFlits (linkOf s port) = true ∧ badFlit f = false ∧ f.ftype = 1 ∧ (linkOf s
      port).totals.length = 5) ∧
    (∃ (port : Nat) (s : State), port < 7 ∧ takesFlits (linkOf s port) = true ∧ (16 ≤ (linkOf s port).unreported ∨ (0 < (linkOf s
      port).unreported ∧ (linkOf s port).unreportedAt + 200 ≤ s.now) ∨ (linkOf s port).lastSentAt + 200 ≤ s.now)) ∧
    (∃ (port : Nat) (s : State), port < 7 ∧ takesFlits (linkOf s port) = true ∧ (linkOf s port).nakPending = true ∧ (linkOf s
      port).nakDue ≤ s.now) ∧
    (∃ (port : Nat) (x : Sent) (s : State), port < 7 ∧ (linkOf s port).state = 3 ∧ (linkOf s port).replay = [x] ∧ isAcked (linkOf s port)
      x = false ∧ x.sentAt + rLnkReplayTimeout s ≤ s.now) ∧
    (∃ (port : Nat) (lost : Bool) (s : State), port < 7 ∧ (linkOf s port).state = 3 ∧ (lost = true ∨ (linkOf s port).lastGoodAt +
      rLnkDeadTime s ≤ s.now)) ∧
    (∃ (port polarity : Nat) (reversed : Bool) (s : State), port < 7 ∧ (linkOf s port).state = 1 ∧ polarity < 2 ^ 32 ∧ s.rst.recovering =
      true) ∧
    (∃ (port polarity : Nat) (reversed : Bool) (s : State), port < 7 ∧ (linkOf s port).state = 1 ∧ polarity < 2 ^ 32 ∧ s.rst.recovering =
      false) ∧
    (∃ (port : Nat) (s : State), port < 7 ∧ (linkOf s port).state = 1) ∧
    (∃ (port : Nat) (f : Flit) (s : State), port < 7 ∧ (linkOf s port).state = 2 ∧ badFlit f = false ∧ f.ftype = 2 ∧ leAt f.payload 5 1 =
      1 ∧ offerFits s port f = true ∧ (linkOf s port).sendUp = false ∧ s.rst.recovering = false) ∧
    (∃ (port : Nat) (f : Flit) (s : State), port < 7 ∧ (linkOf s port).state = 2 ∧ badFlit f = false ∧ f.ftype = 2 ∧ leAt f.payload 5 1 =
      2 ∧ leAt f.payload 6 2 = (linkOf s port).nonce) ∧
    (∃ (port : Nat) (s : State), port < 7 ∧ (linkOf s port).state = 2 ∧ (linkOf s port).sendUp = false ∧ (linkOf s port).offerDue ≤ s.now) ∧
    (∃ (port : Nat) (s : State), port < 7 ∧ ((linkOf s port).state = 4 ∨ (linkOf s port).state = 6) ∧ (linkOf s port).retryDue ≤ s.now ∧
      s.rst.recovering = false) :=
  ⟨⟨0, sealed {}, linkIn { state := 3 }, by decide +kernel⟩,
   ⟨0, sealed { ftype := 1, payload := packLE [(2, 1), (2, 2), (2, 3), (2, 4), (2, 5)] }, linkIn { state := 3 }, by decide +kernel⟩,
   ⟨0, linkIn { state := 3, unreported := 16 }, by decide +kernel⟩,
   ⟨0, linkIn { state := 3, nakPending := true }, by decide +kernel⟩,
   ⟨0, {}, linkIn { state := 3, replay := [{}], n := 1 }, by decide +kernel⟩,
   ⟨0, true, linkIn { state := 3 }, by decide +kernel⟩,
   ⟨0, 5, true, { linkIn { state := 1 } with rst := { recovering := true } }, by decide +kernel⟩,
   ⟨0, 5, true, linkIn { state := 1 }, by decide +kernel⟩,
   ⟨0, linkIn { state := 1 }, by decide +kernel⟩,
   ⟨0, sealed { ftype := 2, payload := packLE [(2, 1), (2, 0x111), (1, 3), (1, 1)] ++ zeros 12 }, linkIn
      { state := 2, phyLocked := true }, by decide +kernel⟩,
   ⟨0, sealed { ftype := 2, payload := packLE [(2, 1), (2, 0x111), (1, 3), (1, 2), (2, 5)] ++ zeros 10 }, linkIn
      { state := 2, phyLocked := true, nonce := 5, recvUp := true }, by decide +kernel⟩,
   ⟨0, linkIn { state := 2, phyLocked := true }, by decide +kernel⟩,
   ⟨0, linkIn { state := 4, phyLocked := true }, by decide⟩⟩

theorem witness_TwinsRun :
    (∃ (q : Ask) (entry : Nat) (s : State), taken s q 1 = true ∧ hasPartner s = true ∧ (stampLink s).isSome = true ∧ (tfind s.pga.book
      entry).isSome = true ∧ (bookOf s entry).kind = 1 ∧ (bookOf s entry).twin = 0 ∧ (bookOf s entry).state = 2 ∧ (bookOf s entry).window
      = false ∧ s.twn.recs.length < 16384) ∧
    (∃ (q : Ask) (entry answer : Nat) (f : FollowArg) (s : State), hasPartner s = true) ∧
    (∃ (q : Ask) (entry : Nat) (x : Twin) (s : State), taken s q 1 = true ∧ twinOf s entry = some x ∧ x.made = false ∧ tfind s.twn.detach
      entry = none ∧ tsorted s.twn.recs = true) ∧
    (∃ (entry due : Nat) (q : Ask) (s : State), tfind s.twn.detach entry = some (q, due) ∧ due ≤ s.now ∧ twinOf s entry = none ∧
      firmwareHeld s = false ∧ tsorted s.twn.detach = true) ∧
    (∃ (q : Ask) (verify : Nat) (s : State), taken s q 1 = true ∧ verify ≤ 1 ∧ hasPartner s = true ∧ twinsIn s 1 [0, 1, 3, 4, 5, 6] = []
      ∧ twinsIn s 1 [2] ≠ []) ∧
    (∃ s : State, rMarPairPartner s ≠ 0xFFFF ∧ s.twn.hbDue ≤ s.now) ∧
    (∃ (p : Packet) (s : State), p.opcode = 0x84 ∧ malformedPacket p = false ∧ p.src = rMarPairPartner s ∧ s.twn.recs = []) ∧
    (∃ s : State, stampLink s = none ∧ s.twn.seen = true ∧ s.twn.seenPair + usec (rTwnPartnerTimeout s) ≤ s.now ∧ s.twn.recs = []) ∧
    (∃ (p : Packet) (term : Nat) (s : State), p.opcode = 0x82 ∧ malformedPacket p = false ∧ p.src = rMarPairPartner s ∧ term = bits (leAt
      p.payload 0 8) 42 16) ∧
    (∃ (order due : Nat) (e : StampEv) (rest : List (StampEv × Nat)) (s : State), s.twn.pending = (e, due) :: rest ∧ e.order = order ∧
      due ≤ s.now ∧ (applyEvent e s).1 = false ∧ e.kind = 0 ∧ heldFor s.twn.heldReq e.src e.tag = none) ∧
    (∃ (p : Packet) (h : Nat × Nat × Nat) (n : Nat) (b : BookEntry) (x : Twin) (s : State), p.opcode = 0x85 ∧ leAt p.payload 7 1 = 2 ∧
      malformedPacket p = false ∧ p.src = rMarPairPartner s ∧ s.twn.history = [h] ∧ h.1 = leAt p.payload 0 5 ∧ twinRange s h.2.1 = some
      (n, b, x)) ∧
    (∃ (p : Packet) (s : State), p.opcode = 0x85 ∧ leAt p.payload 7 1 = 1 ∧ malformedPacket p = false ∧ p.src = rMarPairPartner s) ∧
    (∃ (p : Packet) (n : Nat) (b : BookEntry) (x : Twin) (s : State), p.opcode = 0x85 ∧ leAt p.payload 7 1 = 3 ∧ malformedPacket p =
      false ∧ p.src = rMarPairPartner s ∧ twinRange s (pgaDpa p.pga) = some (n, b, x) ∧ x.role ≠ 2) ∧
    (∃ (n k tag : Nat) (x : Twin) (s : State), twinsIn s 1 [1] = [] ∧ s.twn.resilver = none ∧ resilverNext s = some (n, k) ∧ freeTag s
      false = some tag ∧ twinOf s n = some x) ∧
    (∃ (p : Packet) (s : State), p.opcode = 0x0B ∧ bits p.aux 0 8 = 8 ∧ newHere s p = true) ∧
    (∃ (tag : Nat) (r : TagRec) (x : TwinRsp) (s : State), openTagOf s tag = some r ∧ r.twin = some x ∧ x.due ≤ s.now ∧ x.passed = true ∧
      bits x.pkt.aux 14 2 = 0) ∧
    (∃ (tag : Nat) (r : TagRec) (x : TwinRsp) (s : State), openTagOf s tag = some r ∧ r.twin = some x ∧ x.passed = false ∧ bits x.pkt.aux
      14 2 ≠ 0 ∧ x.windowDue ≤ s.now ∧ rTwnCompare s = 1) :=
  ⟨⟨q1, 0, { booked [(0, home0)] with regs := [(0x100001, 0x111), (0x100002, 127), (0x100003, 1)], twn := { named := true } }, by decide⟩,
   ⟨q1, 0, 1, {}, { booked [(0, home0)] with regs := [(0x100001, 0x111), (0x100002, 127), (0x100003, 1)], twn := { named := true } }, by
      decide⟩,
   ⟨q1, 0, { role := 1, state := 2 }, { booked [(0, { home0 with twin := 1 })] with regs := [(0x100001, 0x111), (0x100002, 127),
                                                                                    (0x100003, 1)],
                                                                                    twn := { recs := [(0, { role := 1, state := 2 })],
                                                                                             named := true } }, by decide⟩,
   ⟨0, 0, q1, { booked [(0, home0)] with regs := [(0x100001, 0x111), (0x100002, 127), (0x100003, 1)],
                                         twn := { detach := [(0, (q1, 0))], named := true } }, by decide⟩,
   ⟨q1, 0, { booked [(0, home0)] with regs := [(0x100001, 0x111), (0x100002, 127), (0x100003, 1)],
                                      twn := { recs := [(0, { role := 1, state := 2 })], named := true } }, by decide⟩,
   ⟨{ booked [(0, home0)] with regs := [(0x100001, 0x111), (0x100002, 127), (0x100003, 1)], twn := { named := true } }, by decide⟩,
   ⟨{ opcode := 0x84, src := 1, payload := zeros 16 }, { booked [(0, home0)] with regs := [(0x100001, 0x111), (0x100002, 127), (0x100003,
                                                                                  1)], twn := { named := true } }, by decide⟩,
   ⟨{ node with regs := [(0x100001, 0x111), (0x100002, 0), (0x100003, 7)], twn := { seen := true } }, by decide⟩,
   ⟨{ opcode := 0x82, src := 1, payload := zeros 24 }, 0, { booked [(0, home0)] with regs := [(0x100001, 0x111), (0x100002, 127),
                                                                                     (0x100003, 1)], twn := { named := true } }, by
      decide⟩,
   ⟨3, 0, { order := 3 }, [], { booked [(0, home0)] with regs := [(0x100001, 0x111), (0x100002, 127), (0x100003, 1)],
                                                         twn := { pending := [({ order := 3 }, 0)], named := true } }, by decide⟩,
   ⟨{ opcode := 0x85, src := 1, payload := [0, 0, 0, 0, 0, 0, 0, 2] }, (0, 0, 16), 0, home0, { role := 1, state := 2 },
      { booked [(0, home0)] with regs := [(0x100001, 0x111), (0x100002, 127), (0x100003, 1)],
                                 twn := { history := [(0, 0, 16)], recs := [(0, { role := 1, state := 2 })], named := true } }, by decide⟩,
   ⟨{ opcode := 0x85, src := 1, payload := [0, 0, 0, 0, 0, 0, 0, 1] },
      { booked [(0, home0)] with regs := [(0x100001, 0x111), (0x100002, 127), (0x100003, 1)], twn := { named := true } }, by decide⟩,
   ⟨{ opcode := 0x85, src := 1, payload := [0, 0, 0, 0, 0, 0, 0, 3] }, 0, home0, { role := 1, state := 2 },
      { booked [(0, home0)] with regs := [(0x100001, 0x111), (0x100002, 127), (0x100003, 1)],
                                 twn := { recs := [(0, { role := 1, state := 2 })], named := true } }, by decide⟩,
   ⟨0, 0, 0, { role := 1, state := 2, changed := [0] }, { booked [(0, home0)] with regs := [(0x100001, 0x111), (0x100002, 127),
                                                                                   (0x100003, 1)],
                                                                                   twn := { recs := [(0,
                                                                                            { role := 1, state := 2, changed := [0] })],
                                                                                            named := true } }, by decide⟩,
   ⟨{ mng 8 0 (zeros 128) with aux := packBits [(8, 8), (6, 32), (6, 32)] }, node, by decide⟩,
   ⟨4, { twin := some { passed := true } }, { passed := true },
      { node with mar := { tags := [(4, { twin := some { passed := true } })] } }, by decide⟩,
   ⟨4, { twin := some { pkt := { aux := 16384 } } }, { pkt := { aux := 16384 } },
      { node with regs := [(0x100001, 0x111), (0x780300, 1)], mar := { tags := [(4, { twin := some { pkt := { aux := 16384 } } })] } },
      by decide⟩⟩

theorem witness_WeighHouseRuns :
    (∃ (sched : Nat) (s : State), sched < 47 ∧ strictReady s sched 0 = true) ∧
    (∃ (sched : Nat) (s : State), sched < 47 ∧ strictReady s sched 0 = false ∧ strictReady s sched 1 = true) ∧
    (∃ (sched c : Nat) (x : Sched) (s : State), sched < 47 ∧ strictReady s sched 0 = false ∧ strictReady s sched 1 = false ∧ weighLoop s
      sched 6 (schedOf s sched) = (some c, x)) ∧
    (∃ (sched cls slot : Nat) (s : State), (classOf (schedOf s sched) cls).wheel = some slot ∧ slot ≤ s.now / 64 ∧ (classOf (schedOf s
      sched) cls).queue = []) ∧
    (∃ (sched : Nat) (g : List Nat × Nat) (s : State), (schedOf s sched).nextGates = some g ∧ (schedOf s sched).nextAt ≤ s.now) ∧
    (∃ (q : Ask) (cls value k : Nat) (s : State), taken s q 1 = true ∧ k = selected s q 0x600000 ∧ 2 ≤ cls ∧ cls ≤ 7 ∧ value ≤ 16777216 ∧
      longestPayload k + (classOf (schedOf s k) cls).nextOverhead ≤ value) ∧
    (∃ (q : Ask) (cls value k : Nat) (s : State), taken s q 1 = true ∧ k = selected s q 0x600000 ∧ 2 ≤ cls ∧ cls ≤ 7 ∧ value ≤ 255 ∧
      longestPayload k + value ≤ (classOf (schedOf s k) cls).nextBurst) ∧
    (∃ (q : Ask) (list : Bytes) (k : Nat) (s : State), taken s q 1 = true ∧ k = selected s q 0x600000 ∧ list.length = 257 ∧ leAt list 0 1
      ≤ 64 ∧ (∀ e ∈ gateEntries list, bits e 0 16 ≠ 0)) ∧
    (∃ (q : Ask) (s : State), taken s q 1 = true) :=
  ⟨⟨23, { node with wgh := { sched := [(23, { cls := [(0, { queue := [{}] })] })] } }, by decide⟩,
   ⟨23, { node with wgh := { sched := [(23, { cls := [(1, { queue := [{}] })] })] } }, by decide⟩,
   ⟨23, 3, (weighLoop { node with wgh := { sched := [(23, { cls := [(3, { queue := [{}] })] })] } } 23 6 (schedOf
      { node with wgh := { sched := [(23, { cls := [(3, { queue := [{}] })] })] } } 23)).2,
      { node with wgh := { sched := [(23, { cls := [(3, { queue := [{}] })] })] } }, by decide⟩,
   ⟨23, 3, 7, { node with wgh := { sched := [(23, { cls := [(3, { wheel := some 7 })] })] } }, by decide⟩,
   ⟨23, ([], 5), { node with wgh := { sched := [(23, { nextGates := some ([], 5) })] } }, by decide⟩,
   ⟨q1, 2, 1024, 0, node, by decide⟩,
   ⟨q1, 2, 255, 0, node, by decide⟩,
   ⟨q1, [0, 1] ++ zeros 255, 0, node, by decide +kernel⟩,
   ⟨q1, node, by decide +kernel⟩⟩

theorem witness_PartitionsRun :
    (∃ (q : Ask) (part : Nat) (s : State), taken s q 1 = true ∧ part < 64 ∧ (partOf s part).state = 0 ∧ (partOf s part).change = 0 ∧
      s.car.tiered = true ∧ s.lck.changing = none) ∧
    (∃ (q : Ask) (part : Nat) (s : State), taken s q 1 = true ∧ part < 64 ∧ (partOf s part).state = 1 ∧ (partOf s part).change = 0 ∧
      (partOf s part).current < 65535 ∧ (∀ e ∈ s.pga.book, e.2.kind = 1 → e.2.part = part → e.2.state ≠ 4 ∧ e.2.state ≠ 5) ∧ s.car.tiered
      = true ∧ s.lck.changing = none) ∧
    (∃ (q : Ask) (part : Nat) (s : State), taken s q 1 = true ∧ part < 64 ∧ (partOf s part).state ≠ 0 ∧ (partOf s part).state ≠ 3 ∧
      s.lck.tdis = [] ∧ homesOf s part = [] ∧ tsorted s.lck.tenants = true) ∧
    (∃ (part : Nat) (s : State), s.lck.changing = some (part * 8 + 1) ∧ s.lck.changeWait = [] ∧ (partOf s part).state = 0 ∧ (partOf s
      part).change = 1) ∧
    (∃ (part : Nat) (s : State), s.lck.changing = some (part * 8 + 2) ∧ s.lck.changeWait = [] ∧ (partOf s part).state = 1 ∧ (partOf s
      part).change = 2) ∧
    (∃ (part : Nat) (s : State), (partOf s part).state = 3 ∧ firmwareHeld s = false ∧ (partOf s part).sweepStep = 1 ∧ (partOf s
      part).recalls = [] ∧ homesOf s part = [] ∧ s.car.frames = []) ∧
    (∃ (part line n : Nat) (h : BookEntry) (s : State), (partOf s part).state = 2 ∧ firmwareHeld s = false ∧ (partOf s part).previous ≠ 0
      ∧ homeAt s (line * 64) = some (n, h) ∧ h.part = part ∧ s.car.tiered = false ∧ (∀ d, dramLine s line = some d → lineServes s d =
      true)) ∧
    (∃ (part : Nat) (s : State), (partOf s part).state = 3 ∧ firmwareHeld s = false ∧ (partOf s part).sweepStep = 5 ∧ (partOf s
      part).groups = [] ∧ homesOf s part = [] ∧ tsorted s.lck.parts = true) ∧
    (∃ (part : Nat) (s : State), (partOf s part).state = 2 ∧ firmwareHeld s = false ∧ rekeyed s part (partOf s part) = true ∧
      s.car.tiered = true) ∧
    (∃ (q : Ask) (port ld value : Nat) (s : State), taken s q 1 = true ∧ port < 24 ∧ ld < 16 ∧ (value < 64 ∨ value = 255) ∧ ldBound s
      port ld = false ∧ (tdiOf s (ldKey port ld)).state = 0) ∧
    (∃ (q : Ask) (part : Nat) (digest : Bytes) (s : State), taken s q 1 = true ∧ part < 64 ∧ digest.length = 64) ∧
    (∃ (q : Ask) (nonce : Bytes) (s : State), taken s q 1 = true ∧ nonce.length = 32) :=
  ⟨⟨q1, 1, { node with car := {} }, by decide⟩,
   ⟨q1, 0, { node with car := {} }, by decide⟩,
   ⟨q1, 0, { node with lck := { node.lck with parts := [(0, { state := 1 })], tdis := [] } }, by decide⟩,
   ⟨0, { node with lck := { node.lck with parts := [(0, { change := 1 })], changing := some 1 } }, by decide⟩,
   ⟨0, { node with lck := { node.lck with parts := [(0, { state := 1, change := 2 })], changing := some 2 } }, by decide⟩,
   ⟨0, { node with lck := { node.lck with parts := [(0, { state := 3, sweepStep := 1 })] } }, by decide⟩,
   ⟨0, 1023, 0, home0, { node with lck := { node.lck with parts := [(0, { state := 2, previous := 1, current := 2, walked := 1023 })] },
                                   pga := { book := [(0, home0)] } }, by decide⟩,
   ⟨0, { node with lck := { node.lck with parts := [(0, { state := 3, sweepStep := 5 })] } }, by decide⟩,
   ⟨0, { node with lck := { node.lck with parts := [(0, { state := 2, previous := 1, current := 2 })] }, car := {} }, by decide⟩,
   ⟨q1, 0, 1, 3, node, by decide⟩,
   ⟨q1, 0, zeros 64, node, by decide⟩,
   ⟨q1, zeros 32, node, by decide⟩⟩

theorem witness_SpdmRuns :
    (∃ (port ld : Nat) (s : State), ldUp s port ld = true ∧ s.fw.rotBusy = none) ∧
    (∃ (port ld : Nat) (s : State), ldUp s port ld = true ∧ s.fw.rotBusy = none ∧ (tdiOf s (ldKey port ld)).spdm.stage = 1) ∧
    (∃ (port ld : Nat) (s : State), ldUp s port ld = true ∧ s.fw.rotBusy = none ∧ (tdiOf s (ldKey port ld)).spdm.stage = 2) ∧
    (∃ (port ld : Nat) (s : State), ldUp s port ld = true ∧ s.fw.rotBusy = none ∧ 3 ≤ (tdiOf s (ldKey port ld)).spdm.stage) ∧
    (∃ (port ld offset length : Nat) (s : State), ldUp s port ld = true ∧ s.fw.rotBusy = none ∧ 3 ≤ (tdiOf s (ldKey port ld)).spdm.stage
      ∧ offset ≤ certChain.length) ∧
    (∃ (port ld : Nat) (nonce : Bytes) (s : State), ldUp s port ld = true ∧ s.fw.rotBusy = none ∧ 3 ≤ (tdiOf s (ldKey port
      ld)).spdm.stage) ∧
    (∃ (port ld index : Nat) (nonce : Bytes) (s : State), ldUp s port ld = true ∧ s.fw.rotBusy = none ∧ (tdiOf s (ldKey port
      ld)).spdm.stage = 4 ∧ 1 ≤ index ∧ index ≤ 5) ∧
    (∃ (port ld : Nat) (random : Bytes) (s : State), ldUp s port ld = true ∧ s.fw.rotBusy = none ∧ (tdiOf s (ldKey port ld)).spdm.stage =
      4 ∧ (tdiOf s (ldKey port ld)).spdm.sessions.length < 2) ∧
    (∃ (port ld session : Nat) (s : State), ldUp s port ld = true ∧ s.fw.rotBusy = none ∧ tfind (tdiOf s (ldKey port ld)).spdm.sessions
      session = some 1) ∧
    (∃ (port ld session op : Nat) (s : State), ldUp s port ld = true ∧ s.fw.rotBusy = none ∧ tfind (tdiOf s (ldKey port
      ld)).spdm.sessions session = some 2 ∧ 1 ≤ op ∧ op ≤ 2) ∧
    (∃ (port ld session : Nat) (s : State), ldUp s port ld = true ∧ s.fw.rotBusy = none ∧ tfind (tdiOf s (ldKey port ld)).spdm.sessions
      session = some 2) ∧
    (∃ (port ld session : Nat) (s : State), ldUp s port ld = true ∧ s.fw.rotBusy = none ∧ tfind (tdiOf s (ldKey port ld)).spdm.sessions
      session = some 2 ∧ tsorted (tdiOf s (ldKey port ld)).spdm.sessions = true) ∧
    (∃ (port ld : Nat) (part : Bytes) (s : State), ldUp s port ld = true ∧ s.fw.rotBusy = none) ∧
    (∃ (port ld seq : Nat) (s : State), ldUp s port ld = true ∧ s.fw.rotBusy = none ∧ (tdiOf s (ldKey port ld)).spdm.large ≠ [] ∧ (tdiOf
      s (ldKey port ld)).spdm.largeSeq = seq) :=
  ⟨⟨0, 0, node, by decide⟩,
   ⟨0, 0, tdiIn { part := 0, spdm := { stage := 1 } }, by decide⟩,
   ⟨0, 0, tdiIn { part := 0, spdm := { stage := 2 } }, by decide⟩,
   ⟨0, 0, tdiIn { part := 0, spdm := { stage := 3 } }, by decide⟩,
   ⟨0, 0, 0, 64, tdiIn { part := 0, spdm := { stage := 3 } }, by decide⟩,
   ⟨0, 0, zeros 32, tdiIn { part := 0, spdm := { stage := 3 } }, by decide⟩,
   ⟨0, 0, 1, zeros 32, tdiIn { part := 0, spdm := { stage := 4 } }, by decide⟩,
   ⟨0, 0, zeros 32, tdiIn { part := 0, spdm := { stage := 4 } }, by decide⟩,
   ⟨0, 0, 1, tdiIn { part := 0, spdm := { sessions := [(1, 1)] } }, by decide⟩,
   ⟨0, 0, 1, 1, tdiIn { part := 0, spdm := { sessions := [(1, 2)] } }, by decide⟩,
   ⟨0, 0, 1, tdiIn { part := 0, spdm := { sessions := [(1, 2)] } }, by decide⟩,
   ⟨0, 0, 1, tdiIn { part := 0, spdm := { sessions := [(1, 2)] } }, by decide⟩,
   ⟨0, 0, [], node, by decide⟩,
   ⟨0, 0, 0, tdiIn { part := 0, spdm := { large := [1] } }, by decide⟩⟩

theorem witness_TdispRuns :
    (∃ (port ld session : Nat) (s : State), ldUp s port ld = true ∧ s.fw.rotBusy = none ∧ tfind (tdiOf s (ldKey port ld)).spdm.sessions
      session = some 2) ∧
    (∃ (port ld session : Nat) (s : State), ldUp s port ld = true ∧ s.fw.rotBusy = none ∧ tfind (tdiOf s (ldKey port ld)).spdm.sessions
      session = some 2) ∧
    (∃ (port ld session : Nat) (s : State), ldUp s port ld = true ∧ s.fw.rotBusy = none ∧ tfind (tdiOf s (ldKey port ld)).spdm.sessions
      session = some 2 ∧ 1 ∈ (tdiOf s (ldKey port ld)).keyed) ∧
    (∃ (port ld session : Nat) (s : State), ldUp s port ld = true ∧ s.fw.rotBusy = none ∧ tfind (tdiOf s (ldKey port ld)).spdm.sessions
      session = some 2) ∧
    (∃ (port ld : Nat) (s : State), ldUp s port ld = true ∧ 1 ∈ (tdiOf s (ldKey port ld)).active) ∧
    (∃ (port ld session : Nat) (s : State), ldUp s port ld = true ∧ s.fw.rotBusy = none ∧ tfind (tdiOf s (ldKey port ld)).spdm.sessions
      session = some 2 ∧ (tdiOf s (ldKey port ld)).state = 0 ∧ mayLock s port ld = true) ∧
    (∃ (port ld session offset length : Nat) (s : State), ldUp s port ld = true ∧ s.fw.rotBusy = none ∧ tfind (tdiOf s (ldKey port
      ld)).spdm.sessions session = some 2 ∧ tdiLocked s (ldKey port ld) = true ∧ offset ≤ (interfaceReport s port ld).length) ∧
    (∃ (port ld session : Nat) (s : State), ldUp s port ld = true ∧ s.fw.rotBusy = none ∧ tfind (tdiOf s (ldKey port ld)).spdm.sessions
      session = some 2 ∧ (tdiOf s (ldKey port ld)).state = 1) ∧
    (∃ (port ld : Nat) (s : State), ldUp s port ld = true ∧ tdiLocked s (ldKey port ld) = true) :=
  ⟨⟨0, 0, 1, tdiIn { part := 0, spdm := { sessions := [(1, 2)] } }, by decide⟩,
   ⟨0, 0, 1, tdiIn { part := 0, spdm := { sessions := [(1, 2)] } }, by decide⟩,
   ⟨0, 0, 1, tdiIn { part := 0, spdm := { sessions := [(1, 2)] }, keyed := [1] }, by decide⟩,
   ⟨0, 0, 1, tdiIn { part := 0, spdm := { sessions := [(1, 2)] } }, by decide⟩,
   ⟨0, 0, tdiIn { part := 0, spdm := { sessions := [(1, 2)] }, active := [1] }, by decide⟩,
   ⟨0, 0, 1, tdiIn { part := 0, spdm := { sessions := [(1, 2)] }, active := [0, 1] }, by decide⟩,
   ⟨0, 0, 1, 0, 4, tdiIn { part := 0, spdm := { sessions := [(1, 2)] }, state := 1 }, by decide⟩,
   ⟨0, 0, 1, tdiIn { part := 0, spdm := { sessions := [(1, 2)] }, state := 1 }, by decide⟩,
   ⟨0, 0, tdiIn { part := 0, spdm := { sessions := [(1, 2)] }, state := 2 }, by decide⟩⟩

theorem witness_InterruptsRun :
    (∃ (ctx : Nat) (c : Ctx) (since : Nat) (s : State), tfind s.cle.ctxs ctx = some c ∧ c.timerAt = some since ∧ since + usec c.timeThr ≤
      s.now) ∧
    (∃ (port ld group due : Nat) (s : State), tfind (msixOf s (ldKey port ld)).heldUntil group = some due ∧ due ≤ s.now) ∧
    (∃ (port ld vector : Nat) (entry : Option (Nat × Nat)) (s : State), vector < 2048 ∧ tdiLocked s (ldKey port ld) = false) ∧
    (∃ (q : Ask) (value : Nat) (s : State), taken s q 1 = true ∧ value ≤ 1 ∧ tsorted s.regs = true) ∧
    (∃ (q : Ask) (count time : Nat) (c : Ctx) (s : State), taken s q 1 = true ∧ tfind s.cle.ctxs (selected s q 0x500200) = some c ∧ 1 ≤
      count ∧ count ≤ 4095 ∧ 1 ≤ time ∧ time ≤ 65535) ∧
    (∃ (core src : Nat) (s : State), core < 4 ∧ claimed (sicOf s core) core = some src) ∧
    (∃ (core : Nat) (s : State), core < 4 ∧ claimed (sicOf s core) core = none) ∧
    (∃ (core source p : Nat) (rest : List (Nat × Nat)) (s : State), core < 4 ∧ source < 256 ∧ (sicOf s core).stack = (source, p) :: rest) ∧
    (∃ (core source top p : Nat) (rest : List (Nat × Nat)) (s : State), core < 4 ∧ source < 256 ∧ top ≠ source ∧ (sicOf s core).stack =
      (top, p) :: rest) ∧
    (∃ (core source value : Nat) (s : State), core < 4 ∧ source < 256 ∧ source ≠ 0 ∧ bits value 0 4 ≠ 0 ∧ tsorted (sicOf s core).config =
      true) ∧
    (∃ (e : Event) (rest : List Event) (s : State), s.evt.queue = e :: rest ∧ s.evt.log.length < 1048576) :=
  ⟨⟨0, { timerAt := some 0 }, 0, { node with cle := { ctxs := [(0, { timerAt := some 0 })] } }, by decide⟩,
   ⟨0, 0, 0, 5, { node with msix := [(0, { heldUntil := [(0, 5)] })] }, by decide⟩,
   ⟨0, 0, 7, some (64, 3), node, by decide⟩,
   ⟨q1, 1, node, by decide⟩,
   ⟨q1, 4, 50, {}, { node with cle := { ctxs := [(0, {})] } }, by decide⟩,
   ⟨0, 3, { node with evt := { sic := [(0, { config := [(3, 0x41)], pending := [3] })] } }, by decide⟩,
   ⟨0, node, by decide⟩,
   ⟨0, 3, 1, [], { node with evt := { sic := [(0, { stack := [(3, 1)] })] } }, by decide⟩,
   ⟨0, 4, 3, 1, [], { node with evt := { sic := [(0, { stack := [(3, 1)] })] } }, by decide⟩,
   ⟨0, 3, 0x41, node, by decide⟩,
   ⟨{}, [], { node with evt := { queue := [{}] } }, by decide⟩⟩

theorem witness_SessionsRun :
    (∃ (frame : Bytes) (s : State), s.rst.inReset = false ∧ s.sah.ethStats.length = 8) ∧
    (∃ (frame : Bytes) (s : State), s.rst.inReset = false ∧ frame.length ≤ 9216 ∧ rocePort frame = none ∧ (etherType frame ≠ 0x8808 ∨
      beAt frame (14 + tagLen frame) 2 ≠ 0x0101) ∧ vlanOf frame = managementVlan s ∧ addressedHere frame = true) ∧
    (∃ s : State, s.sah.held = true ∧ s.sah.fillFrames ≠ 0) ∧
    (∃ s : State, s.sah.held = true ∧ s.sah.fillFrames = 0) ∧
    (∃ (cert : Cert) (s : State), s.sah.up = true ∧ cert.valid = true ∧ s.sah.anchor ≠ [] ∧ cert.root = s.sah.anchor ∧
      s.sah.sessions.length < 32) ∧
    (∃ (cert : Cert) (s : State), s.sah.up = true ∧ (cert.valid = false ∨ 32 ≤ s.sah.sessions.length)) ∧
    (∃ (sid : Nat) (x : Session) (s : State), sessionOf s sid = some x ∧ tsorted s.sah.sessions = true ∧ x.lastAt + msec (1000 *
      rSahSessionIdle s) ≤ s.now) :=
  ⟨⟨zeros 60, node, by decide⟩,
   ⟨List.replicate 6 255 ++ zeros 8, node, by decide⟩,
   ⟨{ node with sah := { node.sah with held := true, fillFrames := 1 } }, by decide⟩,
   ⟨{ node with sah := { node.sah with held := true } }, by decide⟩,
   ⟨{ root := [1] }, { node with sah := { node.sah with anchor := [1] } }, by decide⟩,
   ⟨{ valid := false }, node, by decide⟩,
   ⟨1, {}, { node with now := 10 ^ 15 }, by decide⟩⟩

theorem witness_NasidomRuns :
    (∃ (q : Ask) (index sub offset role : Nat) (s : State), taken s q role = true ∧ 1 ≤ role ∧ role ≤ 3 ∧ 0xB000 ≤ index ∧ index < 65536) ∧
    (∃ (q : Ask) (s : State), taken s q 1 = true) ∧
    (∃ (q : Ask) (value : Nat) (s : State), taken s q 1 = true ∧ 1 ≤ value ∧ value ≤ 1000000 ∧ tsorted s.regs = true ∧ (∀ x, sessionOf s
      q.sid = some x → x.staged = none)) ∧
    (∃ (q : Ask) (part : Bytes) (s : State), taken s q 1 = true ∧ part.length ≤ 8192 ∧ (∀ x, sessionOf s q.sid = some x → x.staged =
      none)) ∧
    (∃ (q : Ask) (value : Nat) (s : State), taken s q 1 = true ∧ value < 47 ∧ (∀ x, sessionOf s q.sid = some x → x.staged = none)) ∧
    (∃ (q : Ask) (slot low high severity start : Nat) (s : State), taken s q 1 = true ∧ slot < 16 ∧ severity < 4 ∧ low < 65536 ∧ high <
      65536 ∧ (∀ x, sessionOf s q.sid = some x → tfind x.subs slot = none)) ∧
    (∃ (q : Ask) (slot : Nat) (s : State), taken s q 1 = true ∧ slot < 16 ∧ (∀ x, sessionOf s q.sid = some x → tsorted x.subs = true)) ∧
    (∃ (q : Ask) (slot seq : Nat) (x : Session) (u : Sub) (s : State), taken s q 1 = true ∧ slot < 16 ∧ sessionOf s q.sid = some x ∧
      tfind x.subs slot = some u) ∧
    (∃ (q : Ask) (s : State), taken s q 1 = true) ∧
    (∃ (q : Ask) (value role : Nat) (s : State), taken s q role = true ∧ 2 ≤ role ∧ role ≤ 3) ∧
    (∃ (sid : Nat) (x : Session) (d : Done) (s : State), sessionOf s sid = some x ∧ x.subs = [] ∧ x.dones = [d] ∧ d.due ≤ s.now) :=
  ⟨⟨q1, 0xB000, 0, 0, 1, node, by decide⟩,
   ⟨q1, node, by decide⟩,
   ⟨q1, 7, node, ⟨by decide, by decide, by decide, by decide, fun x h => (Option.some.inj h) ▸ rfl⟩⟩,
   ⟨q1, [1], node, ⟨by decide, by decide, fun x h => (Option.some.inj h) ▸ rfl⟩⟩,
   ⟨q1, 46, node, ⟨by decide, by decide, fun x h => (Option.some.inj h) ▸ rfl⟩⟩,
   ⟨q1, 0, 0, 0xFFFF, 0, 1, node, ⟨by decide, by decide, by decide, by decide, by decide, fun x h => (Option.some.inj h) ▸ rfl⟩⟩,
   ⟨q1, 0, { node with sah := { node.sah with sessions := [(1, { subs := [(0, {})] })] } }, ⟨by decide, by decide, fun x h =>
      (Option.some.inj h) ▸ rfl⟩⟩,
   ⟨q1, 0, 1, { subs := [(0, {})] }, {}, { node with sah := { node.sah with sessions := [(1, { subs := [(0, {})] })] } }, by decide⟩,
   ⟨q1, node, by decide⟩,
   ⟨q1, 7, 2, { node with sah := { node.sah with sessions := [(1, { role := 2 })] } }, by decide⟩,
   ⟨1, { dones := [{}] }, {}, { node with sah := { node.sah with sessions := [(1, { dones := [{}] })] } }, by decide⟩⟩

theorem witness_RdmaRuns :
    (∃ (q : Ask) (addr qp mtu n : Nat) (s : State), taken s q 1 = true ∧ 1024 ≤ mtu ∧ mtu ≤ 4096 ∧ tfresh s.sah.qps 4096 1 = some n) ∧
    (∃ (q : Ask) (qp : Nat) (p : Qp) (s : State), taken s q 1 = true ∧ tfind s.sah.qps qp = some p ∧ tsorted s.sah.qps = true ∧
      s.sah.drains = []) ∧
    (∃ (q : Ask) (base length part n : Nat) (s : State), taken s q 1 = true ∧ part < 64 ∧ length ≠ 0 ∧ length % 65536 = 0 ∧ base + length
      ≤ 2 ^ 62 ∧ tfresh s.sah.regions 4096 1 = some n) ∧
    (∃ (q : Ask) (rkey : Nat) (r : Region) (s : State), taken s q 1 = true ∧ tfind s.sah.regions rkey = some r ∧ tsorted s.sah.regions =
      true) ∧
    (∃ (q : Ask) (pga length qp addr rkey n : Nat) (p : Qp) (s : State), taken s q 1 = true ∧ tfind s.sah.qps qp = some p ∧ p.error =
      false ∧ length ≠ 0 ∧ pga + length ≤ 2 ^ 62 ∧ tfresh s.sah.drains 64 0 = some n ∧ s.sah.rdmaStats.length = 5) ∧
    (∃ (qp rkey va : Nat) (data : Bytes) (p : Qp) (r : Region) (s : State), tfind s.sah.qps qp = some p ∧ tfind s.sah.regions rkey = some
      r ∧ rdmaAllowed p r va data.length false = true ∧ rdmaWindow s (r.base + va) = false ∧ data.length = 64 ∧ 64 ≤ p.mtu ∧ (r.base +
      va) % 64 = 0 ∧ pgaCoord (r.base + va) ≠ hereAt s ∧ rdmaPartner s (r.base + va) = none) ∧
    (∃ (qp rkey va : Nat) (p : Qp) (r : Region) (s : State), tfind s.sah.qps qp = some p ∧ tfind s.sah.regions rkey = some r ∧
      rdmaAllowed p r va 64 true = true ∧ rdmaWindow s (r.base + va) = false ∧ (r.base + va) % 64 = 0 ∧ pgaCoord (r.base + va) ≠ hereAt s
      ∧ rdmaPartner s (r.base + va) = none) ∧
    (∃ (qp rkey va : Nat) (data : Bytes) (p : Qp) (r : Region) (s : State), tfind s.sah.qps qp = some p ∧ tfind s.sah.regions rkey = some
      r ∧ rdmaAllowed p r va data.length false = false ∧ s.sah.rdmaStats.length = 5) ∧
    (∃ (drain bytes : Nat) (d : Drain) (s : State), tfind s.sah.drains drain = some d ∧ min d.sent (d.acked + bytes) < d.length) ∧
    (∃ (drain bytes : Nat) (d : Drain) (s : State), tfind s.sah.drains drain = some d ∧ tsorted s.sah.drains = true ∧ d.length ≤ min
      d.sent (d.acked + bytes)) :=
  ⟨⟨q1, 5, 6, 1024, 1, node, by decide⟩,
   ⟨q1, 1, {}, { node with sah := { node.sah with qps := [(1, {})] } }, by decide⟩,
   ⟨q1, 0, 65536, 0, 1, node, by decide⟩,
   ⟨q1, 1, {}, { node with sah := { node.sah with regions := [(1, {})] } }, by decide⟩,
   ⟨q1, 0, 64, 1, 0, 0, 0, {}, { node with sah := { node.sah with qps := [(1, {})] } }, by decide⟩,
   ⟨1, 1, 0, zeros 64, {}, { base := 2 ^ 50, length := 65536, read := true, write := true },
      { node with sah := { node.sah with qps := [(1, {})], regions := [(1,
                                         { base := 2 ^ 50, length := 65536, read := true, write := true })] } }, by decide⟩,
   ⟨1, 1, 0, {}, { base := 2 ^ 50, length := 65536, read := true, write := true },
      { node with sah := { node.sah with qps := [(1, {})], regions := [(1,
                                         { base := 2 ^ 50, length := 65536, read := true, write := true })] } }, by decide⟩,
   ⟨1, 1, 65536, zeros 64, {}, { base := 2 ^ 50, length := 65536, read := true, write := true },
      { node with sah := { node.sah with qps := [(1, {})], regions := [(1,
                                         { base := 2 ^ 50, length := 65536, read := true, write := true })] } }, by decide⟩,
   ⟨0, 64, { sent := 64, length := 128 }, { node with sah := { node.sah with drains := [(0, { sent := 64, length := 128 })] } }, by
      decide⟩,
   ⟨0, 64, { sent := 64, length := 64 }, { node with sah := { node.sah with drains := [(0, { sent := 64, length := 64 })] } }, by decide⟩⟩

theorem witness_ControllerRuns :
    (∃ (power : Nat) (temps : List Int) (s : State), bitOf s.sah.coresUp 1 = true) ∧
    (∃ (temps : List Int) (s : State), (∃ x ∈ temps, (120 : Int) ≤ x)) ∧
    (∃ (temps : List Int) (s : State), (∃ x ∈ temps, (105 : Int) ≤ x) ∧ (∀ x ∈ temps, x < 120)) ∧
    (∃ (w : StoredWrite) (rest : List StoredWrite) (s : State), s.sah.stored = w :: rest ∧ s.fw.waiting = none ∧ w.key = 0x881002) ∧
    (∃ (q : Ask) (value : Nat) (s : State), taken s q 1 = true ∧ value ≤ 255) ∧
    (∃ (q : Ask) (major minor : Nat) (name : Bytes) (s : State), taken s q 1 = true ∧ major ≤ 255 ∧ minor ≤ 255 ∧ name.length ≤ 255) ∧
    (∃ (q : Ask) (value : Nat) (s : State), taken s q 1 = true ∧ value < 2 ^ 64) :=
  ⟨⟨5, [40], node, by decide⟩,
   ⟨[120], node, ⟨120, by simp⟩⟩,
   ⟨[105], node, ⟨⟨105, by simp⟩, by simp⟩⟩,
   ⟨{ key := 0x881002 }, [], { node with sah := { node.sah with stored := [{ key := 0x881002 }] } }, by decide⟩,
   ⟨q1, 1, node, by decide⟩,
   ⟨q1, 1, 0, [], node, by decide⟩,
   ⟨q1, 7, node, by decide⟩⟩

theorem witness_FirmwareRuns :
    (∃ (q : Ask) (data : Bytes) (s : State), taken s q 1 = true ∧ stagingBusy s = false ∧ data.length ≤ 65535 ∧ rFwStageOffset s +
      data.length ≤ 33554432 ∧ tsorted s.regs = true) ∧
    (∃ (q : Ask) (s : State), taken s q 1 = true ∧ imageValid s (slotOf s (otherSlot s)) = true) ∧
    (∃ (q : Ask) (s : State), taken s q 1 = true ∧ imageValid s (slotOf s (otherSlot s)) = false) ∧
    (∃ (q : Ask) (s : State), taken s q 1 = true ∧ s.fw.ready = true ∧ s.fw.waiting = none ∧ s.sah.stored ≠ []) ∧
    (∃ (q : Ask) (s : State), taken s q 1 = true ∧ s.fw.trial = true) ∧
    (∃ (q : Ask) (s : State), taken s q 1 = true ∧ s.fw.trial = true) ∧
    (∃ (q : Ask) (s : State), taken s q 1 = true ∧ s.fw.trial = true) ∧
    (∃ (q : Ask) (s : State), taken s q 1 = true) ∧
    (∃ (core due : Nat) (s : State), tfind s.fw.kickDue core = some due ∧ s.fw.wdSuspended = false ∧ due ≤ s.now ∧ s.fw.trial = false ∧
      s.fw.firings.length < 7) ∧
    (∃ (due : Nat) (s : State), s.fw.handoffDue = some due ∧ due ≤ s.now) ∧
    (∃ (core : Nat) (s : State), core < 4 ∧ s.fw.wdSuspended = false ∧ bitOf s.sah.coresUp core = true) ∧
    (∃ s : State, s.fw.update = 2 ∧ s.fw.restartDue ≤ s.now) ∧
    (∃ (entry : Nat) (s : State), firmwareHeld s = true) ∧
    (∃ (n st base : Nat) (m : Migrate) (s : State), firmwareHeld s = true ∧ tfind s.pga.migrates n = some m) ∧
    (∃ s : State, bitOf s.sah.coresUp 4 = true ∧ s.fw.rotBusy = none) ∧
    (∃ (due : Nat) (s : State), s.fw.rotBusy = some due ∧ due ≤ s.now) ∧
    (∃ (core place : Nat) (s : State), core < 4 ∧ bitOf s.sah.coresUp core = true ∧ 1 ≤ place ∧ place ≤ 3) :=
  ⟨⟨q1, [1], node, by decide⟩,
   ⟨q1, { node with fw := { slots := [(1, goodImage)] } }, by decide⟩,
   ⟨q1, node, by decide⟩,
   ⟨q1, { node with fw := { ready := true }, sah := { node.sah with stored := [{}] } }, by decide⟩,
   ⟨q1, { node with fw := { trial := true } }, by decide⟩,
   ⟨q1, { node with fw := { trial := true } }, by decide⟩,
   ⟨q1, { node with fw := { trial := true } }, by decide⟩,
   ⟨q1, node, by decide⟩,
   ⟨0, 5, { node with fw := { kickDue := [(0, 5)], wdSuspended := false } }, by decide⟩,
   ⟨5, { node with fw := { handoffDue := some 5 } }, by decide⟩,
   ⟨0, { node with fw := { wdSuspended := false } }, by decide⟩,
   ⟨{ node with fw := { update := 2 } }, by decide⟩,
   ⟨0, { node with fw := { update := 2 } }, by decide⟩,
   ⟨0, 0, 0, {}, { node with fw := { update := 2 }, pga := { migrates := [(0, {})] } }, by decide⟩,
   ⟨node, by decide⟩,
   ⟨5, { node with fw := { rotBusy := some 5 } }, by decide⟩,
   ⟨0, 2, node, by decide⟩⟩

theorem witness_ColdStartRuns :
    (∃ (width : Nat) (s : State), 1000 ≤ width) ∧
    (∃ s : State, s.rst.resetN = false ∧ s.rst.vddAux = true ∧ s.sah.tripped = false ∧ s.rst.pllLocked = true ∧ s.rst.inReset = true ∧ (∃
      v, chooseImage { s with rst := { s.rst with resetN := true } } = some v) ∧ drivesPins s.jtag.opcode = false) ∧
    (∃ s : State, s.rst.pllLocked = true) ∧
    (∃ s : State, s.rst.pllLocked = false) ∧
    (∃ (stack : Nat) (repaired marks : List (Nat × Nat)) (s : State), s.rst.step = 2 ∧ stack < nStacks s ∧ (∀ k, k < nStacks s → k ≠
      stack → (stackOf s k).trained = true)) ∧
    (∃ (stack : Nat) (repaired marks : List (Nat × Nat)) (s : State), s.rst.step = 2 ∧ stack < nStacks s) ∧
    (∃ (repaired : List Nat) (s : State), s.rst.step = 3 ∧ s.rst.nodeState = 0 ∧ s.car.tiered = false ∧ tget 1 s.store 0x380001 = 0) ∧
    (∃ (repaired failed : List Nat) (marks : List (Nat × Nat)) (checker : Nat) (s : State), s.rst.step = 3 ∧ s.rst.nodeState = 0 ∧
      checker ≠ 0) ∧
    (∃ (found : List (Nat × TargetPage)) (s : State), s.rst.step = 5 ∧ s.rst.nodeState = 0 ∧ s.car.tiered = true ∧ s.stk.formatted =
      false ∧ s.pga.book = [] ∧ (findTargets found s).stk.targets ≠ []) ∧
    (∃ (found : List (Nat × TargetPage)) (lost torn : List Nat) (s : State), s.rst.step = 5 ∧ s.rst.nodeState = 0 ∧ s.car.tiered = true ∧
      (findTargets found s).stk.targets = []) ∧
    (∃ s : State, s.rst.holdEnd ≤ s.now) ∧
    (∃ s : State, s.rst.vddAux = false) :=
  ⟨⟨1000, node, by decide⟩,
   ⟨{ node with rst := { pllLocked := true, vddAux := true, resetN := false, inReset := true }, jtag := { opcode := 0xFF },
                fw := { slots := [(0, goodImage)] } }, ⟨by decide, by decide, by decide, by decide, by decide, ⟨_, rfl⟩, by decide⟩⟩,
   ⟨node, by decide⟩,
   ⟨{ node with rst := { node.rst with pllLocked := false } }, by decide⟩,
   ⟨7, [], [], { node with rst := { step := 2 }, mem := { hbmStacks := (List.range 7).map fun k => (k, { trained := true }) } }, by
      decide⟩,
   ⟨7, [], [], { node with rst := { node.rst with step := 2 } }, by decide⟩,
   ⟨[], { node with rst := { node.rst with step := 3, nodeState := 0 }, store := [(0x380001, 0)] }, by decide⟩,
   ⟨[], [], [], 1, { node with rst := { node.rst with step := 3, nodeState := 0 } }, by decide⟩,
   ⟨[(0, {})], { node with rst := { node.rst with step := 5, nodeState := 0 }, car := {}, stk := { formatted := false } }, by decide⟩,
   ⟨(List.range 8).map fun k => (k, { commands := false }), [], [],
      { node with rst := { node.rst with step := 5, nodeState := 0 }, car := {}, stk := { formatted := false } }, by decide⟩,
   ⟨node, by decide⟩,
   ⟨{ node with rst := { node.rst with vddAux := false } }, by decide⟩⟩

theorem witness_RecoveryRuns :
    (∃ (width : Nat) (s : State), s.rst.resetN = true ∧ s.rst.recoverN = true ∧ 1000 ≤ width ∧ (s.rst.nodeState = 1 ∨ s.rst.nodeState =
      3) ∧ (∀ f ∈ s.car.frames, f.2.state ≠ 1)) ∧
    (∃ (quad : Nat) (s : State), quad < nQuads s ∧ (∀ c ∈ s.cle.chunks, c.2.quad ≠ quad) ∧ tsorted s.tlb.near = true) ∧
    (∃ (stack pc : Nat) (s : State), stack < nStacks s ∧ pc < 64 ∧ s.rst.nodeState = 1 ∧ (stackOf s stack).changing = none ∧
      inSelfRefresh s (stackOf s stack) = false ∧ pc ∉ pausedNow s (stackOf s stack) ∧ (∀ f ∈ s.car.frames, f.2.state ≠ 1)) ∧
    (∃ (stop : Nat) (s : State), stop < 2 ^ 16 ∧ s.rst.nodeState = 1 ∧ (∀ f ∈ s.car.frames, f.2.state ≠ 1)) ∧
    (∃ (untrained programmed : List Nat) (s : State), s.rst.recovering = true ∧ (reloadCritical s).1 = none ∧ s.ras.nodeEvents = [] ∧
      s.lnk.ports = [] ∧ s.pga.grants = [] ∧ s.pga.revokes = [] ∧ s.pga.migrates = [] ∧ s.win.out = [] ∧ s.cxl.ports = []) ∧
    (∃ (trained : Bool) (untrained programmed : List Nat) (s : State), s.rst.recovering = true ∧ (trained = false ∨ (reloadCritical s).1
      ≠ none)) ∧
    (∃ s : State, s.ras.windowStart + msec (1000 * rRasCeWindow s) ≤ s.now) :=
  ⟨⟨1000, node, by decide⟩,
   ⟨0, node, by decide⟩,
   ⟨0, 0, node, by decide⟩,
   ⟨0, node, by decide⟩,
   ⟨[], [], { node with rst := { node.rst with recovering := true }, cxl := {} }, by decide⟩,
   ⟨false, [], [], { node with rst := { node.rst with recovering := true } }, by decide⟩,
   ⟨{ node with now := 10 ^ 18 }, by decide⟩⟩

theorem witness_TestsRun :
    (∃ (q : Ask) (s : State), taken s q 1 = true ∧ s.rst.nodeState = 1 ∧ (∀ f ∈ s.car.frames, f.2.state ≠ 1)) ∧
    (∃ (q : Ask) (s : State), taken s q 1 = true ∧ s.rst.resetN = true) ∧
    (∃ (q : Ask) (quad : Nat) (s : State), taken s q 1 = true ∧ quad < nQuads s) ∧
    (∃ (q : Ask) (stack : Nat) (s : State), taken s q 1 = true ∧ stack < nStacks s ∧ isDrained s (stackOf s stack) = true) ∧
    (∃ (q : Ask) (stack : Nat) (s : State), taken s q 1 = true ∧ stack < nStacks s ∧ isDrained s (stackOf s stack) = false) ∧
    (∃ (q : Ask) (quad : Nat) (passed : Bool) (s : State), taken s q 1 = true ∧ quad < nQuads s ∧ isDrained s (stackOf s (quad / 64)) =
      true) ∧
    (∃ (q : Ask) (port : Nat) (s : State), taken s q 1 = true ∧ port < 24 ∧ portExists s port = true ∧ isSplit s port = false ∧ (∀ ld, ld
      < 16 → ldBound s port ld = false)) ∧
    (∃ (q : Ask) (port : Nat) (s : State), taken s q 1 = true ∧ port < 24 ∧ portExists s port = true ∧ isSplit s port = false) ∧
    (∃ (q : Ask) (port failures : Nat) (s : State), taken s q 1 = true ∧ port < 24 ∧ portExists s port = true ∧ (portOf s port).held =
      true) ∧
    (∃ (q : Ask) (port failures : Nat) (s : State), taken s q 1 = true ∧ port < 7 ∧ bitOf (rMarPortEnable s) port = false) ∧
    (∃ (q : Ask) (channel failures : Nat) (s : State), taken s q 1 = true ∧ channel < 64 ∧ (s.car.tiered = false ∨ tget 0 s.stk.chanState
      channel ≠ 1)) :=
  ⟨⟨q1, node, by decide⟩,
   ⟨q1, node, by decide⟩,
   ⟨q1, 0, node, by decide⟩,
   ⟨q1, 0, { node with mem := { hbmStacks := [(0, { drained := true })] } }, by decide⟩,
   ⟨q1, 0, node, by decide⟩,
   ⟨q1, 0, true, { node with mem := { hbmStacks := [(0, { drained := true })] } }, by decide⟩,
   ⟨q1, 0, node, by decide⟩,
   ⟨q1, 0, node, by decide⟩,
   ⟨q1, 0, 0, portIn { held := true }, by decide⟩,
   ⟨q1, 0, 0, { node with regs := [(0x100001, 0x111), (0x100002, 0)] }, by decide⟩,
   ⟨q1, 0, 0, node, by decide⟩⟩

theorem witness_BoundaryScanRuns :
    (∃ (shift sampled : Nat) (s : State), s.rst.vddAux = true ∧ s.rst.resetN = false ∧ shift < 2 ^ boundaryLength s ∧ sampled < 2 ^
      boundaryLength s) ∧
    (∃ (shift sampled : Nat) (s : State), s.rst.vddAux = true ∧ shift < 2 ^ boundaryLength s ∧ sampled < 2 ^ boundaryLength s) ∧
    (∃ s : State, s.rst.vddAux = true) ∧
    (∃ s : State, s.rst.vddAux = true) ∧
    (∃ s : State, s.rst.vddAux = true ∧ s.rst.resetN = false) ∧
    (∃ s : State, s.rst.vddAux = true ∧ s.rst.resetN = false) ∧
    (∃ (shift idles : Nat) (s : State), s.rst.vddAux = true ∧ s.rst.resetN = false ∧ shift < 2 ^ boundaryLength s) ∧
    (∃ (shift ticks : Nat) (s : State), s.rst.vddAux = true ∧ s.rst.resetN = false ∧ shift < 2 ^ boundaryLength s) ∧
    (∃ (opcode : Nat) (s : State), s.rst.vddAux = true ∧ 8 ≤ opcode ∧ opcode < 256) ∧
    (∃ (shift sampled : Nat) (s : State), s.rst.vddAux = true ∧ s.rst.resetN = true) :=
  ⟨⟨0, 0, { node with rst := { node.rst with resetN := false } }, ⟨rfl, rfl, Nat.two_pow_pos _, Nat.two_pow_pos _⟩⟩,
   ⟨0, 0, node, ⟨rfl, Nat.two_pow_pos _, Nat.two_pow_pos _⟩⟩,
   ⟨node, by decide⟩,
   ⟨node, by decide⟩,
   ⟨{ node with rst := { node.rst with resetN := false } }, by decide⟩,
   ⟨{ node with rst := { node.rst with resetN := false } }, by decide⟩,
   ⟨0, 3, { node with rst := { node.rst with resetN := false } }, ⟨rfl, rfl, Nat.two_pow_pos _⟩⟩,
   ⟨0, 3, { node with rst := { node.rst with resetN := false } }, ⟨rfl, rfl, Nat.two_pow_pos _⟩⟩,
   ⟨9, node, by decide⟩,
   ⟨0, 0, node, by decide⟩⟩

theorem witness_MemoryBytesFrame :
    (∃ (c : Instr) (s t : State), mayStoreBytes c = false ∧ exec c s = .next t) :=
  ⟨.claim 0, node, emit (.claim 0 0x100) node, rfl, rfl⟩

theorem witness_AttachmentFrame :
    (∃ (c : Instr) (s t : State), isScan c = true ∧ exec c s = .next t) ∧
    (∃ (c : Instr) (s t : State), isAdmission c = true ∧ exec c s = .next t) :=
  ⟨⟨.idcode, node, (emit (.tdo 0x14800987) (emit (.tdo 1) { node with jtag := { node.jtag with opcode := 2 } })), rfl, rfl⟩,
   ⟨.spdmHeartbeat 0 0 1, tdiIn { part := 0, spdm := { sessions := [(1, 2)] } }, emit (.spdm 0 0 0 []) (tdiIn
      { part := 0, spdm := { sessions := [(1, 2)] } }), rfl, rfl⟩⟩

theorem witness_ManagementFrame :
    (∃ (c : Instr) (s t : State), isSession c = true ∧ exec c s = .next t) ∧
    (∃ (c : Instr) (s t : State), isFirmware c = true ∧ exec c s = .next t) :=
  ⟨⟨.noticeResend 9, node, node, rfl, rfl⟩,
   ⟨.rootOfTrustRestartDone, node, node, rfl, rfl⟩⟩

theorem witness_EngineFrame :
    (∃ (c : Instr) (s t : State), isLink c = true ∧ exec c s = .next t) ∧
    (∃ (c : Instr) (s t : State), isFlash c = true ∧ exec c s = .next t) :=
  ⟨⟨.lnkRetryInterval 0, node, node, rfl, rfl⟩,
   ⟨.garbageCollection, node, node, rfl, rfl⟩⟩

theorem witness_AbsentIndexRefused :
    (∃ index sub : Nat, 0xB000 ≤ index ∧ index < 65536) ∧
    (∃ (q : Ask) (index sub offset role : Nat) (s : State), taken s q role = true ∧ 1 ≤ role ∧ role ≤ 3 ∧ dictFind index sub = none) ∧
    (∃ (q : Ask) (index sub offset role : Nat) (last : Bool) (part : Bytes) (s : State), taken s q role = true ∧ 1 ≤ role ∧ role ≤ 3 ∧
      dictFind index sub = none) :=
  ⟨⟨0xB000, 0, by decide⟩,
   ⟨q1, 0xB000, 0, 0, 1, node, by decide⟩,
   ⟨q1, 0xB000, 0, 0, 1, true, [], node, by decide⟩⟩

theorem witness_IdentityCodes :
    (∃ s : State, s.rst.vddAux = true ∧ Inv s) :=
  ⟨node, ⟨rfl, rfl, by decide, by decide⟩⟩

theorem witness_EndOfInterrupt :
    (∃ (core source p : Nat) (rest : List (Nat × Nat)) (s : State), core < 4 ∧ source < 256 ∧ (sicOf s core).stack = (source, p) :: rest) ∧
    (∃ (core source : Nat) (s : State), core < 4 ∧ source < 256 ∧ (sicOf s core).stack = []) ∧
    (∃ (core source top p : Nat) (rest : List (Nat × Nat)) (s : State), core < 4 ∧ source < 256 ∧ top ≠ source ∧ (sicOf s core).stack =
      (top, p) :: rest) ∧
    (∃ (core due : Nat) (s : State), tfind s.fw.kickDue core = some due ∧ s.fw.wdSuspended = false ∧ due ≤ s.now) :=
  ⟨⟨0, 3, 1, [], { node with evt := { sic := [(0, { stack := [(3, 1)] })] } }, by decide⟩,
   ⟨0, 3, node, by decide⟩,
   ⟨0, 3, 0, 0, [], { node with evt := { sic := [(0, { stack := [(0, 0)] })] } }, by decide⟩,
   ⟨0, 5, { node with fw := { kickDue := [(0, 5)], wdSuspended := false } }, by decide⟩⟩

theorem witness_ClaimTakesHighest :
    (∃ (core : Nat) (s : State), core < 4 ∧ (∃ src, mayTake s core src)) ∧
    (∃ (core : Nat) (s : State), core < 4 ∧ (∀ src, ¬ mayTake s core src)) :=
  ⟨⟨0, { node with evt := { sic := [(0, { config := [(3, 0x41)], pending := [3] })] } }, ⟨by decide, 3, by decide, .inr (by decide), .inl
      (by decide)⟩⟩,
   ⟨0, node, ⟨by decide, fun src h => nomatch h.1⟩⟩⟩

theorem witness_ClaimStacksBounded :
    (∃ s t : State, stacksOrdered s ∧ step s = .next t) ∧
    (∃ (s : State) (core : Nat), stacksOrdered s) :=
  ⟨⟨node, Machine.idle node, ⟨fun core => ⟨.nil, fun e h => nomatch h⟩, rfl⟩⟩,
   ⟨node, 0, fun core => ⟨.nil, fun e h => nomatch h⟩⟩⟩

theorem witness_RecoverPin :
    (∃ (width : Nat) (s : State), s.rst.resetN = true ∧ s.rst.recoverN = true ∧ 1000 ≤ width ∧ s.rst.nodeState = 1) ∧
    (∃ (width : Nat) (s : State), width < 1000) ∧
    (∃ (width : Nat) (s : State), s.rst.recoverN = false) ∧
    (∃ (width : Nat) (s : State), s.rst.resetN = false) ∧
    (∃ (width : Nat) (s : State), 1000 ≤ width) ∧
    (∃ (width : Nat) (s : State), width < 1000) ∧
    (∃ (c : Instr) (s t : State), s.rst.inReset = true ∧ s.rst.resetN = false ∧ c ≠ .nodeResetNRelease ∧ exec c s = .next t) :=
  ⟨⟨1000, node, by decide⟩,
   ⟨999, node, by decide⟩,
   ⟨1000, { node with rst := { node.rst with recoverN := false } }, by decide⟩,
   ⟨1000, { node with rst := { node.rst with resetN := false } }, by decide⟩,
   ⟨1000, node, by decide⟩,
   ⟨999, node, by decide⟩,
   ⟨.rootPllRelock, State.reset, State.reset, rfl, rfl, by decide, rfl⟩⟩

theorem witness_ScanEndsAtReset :
    (∃ s : State, s.rst.resetN = false ∧ s.rst.vddAux = true ∧ s.jtag.opcode ∈ [0x00, 0x04, 0x05, 0x06, 0x07]) :=
  ⟨{ State.reset with rst := { State.reset.rst with resetN := false, vddAux := true }, jtag := { State.reset.jtag with opcode := 4 } },
      by decide⟩

theorem witness_AddressMap :
    (∃ (a b : Nat) (s : State), nStacks s ≠ 0 ∧ lineStack s (a / 64) = lineStack s (b / 64) ∧ linePc s (a / 64) = linePc s (b / 64) ∧
      lineRow s (a / 64) = lineRow s (b / 64) ∧ lineBank s (a / 64) = lineBank s (b / 64) ∧ a % 1024 = b % 1024) :=
  ⟨64, 64, node, by decide⟩

theorem witness_DecoderArithmetic :
    (∃ (d : Decoder) (h : Nat), d.committed = true ∧ d.base ≤ h ∧ h < d.base + d.size ∧ 1 ≤ d.ways ∧ 1 ≤ d.gran) ∧
    (∃ (d : Decoder) (h h' x : Nat), 1 ≤ d.ways ∧ 1 ≤ d.gran ∧ hdmHit d h = some x ∧ hdmHit d h' = some x) :=
  ⟨⟨{ committed := true, size := 64 }, 63, by decide⟩,
   ⟨{ committed := true, size := 64 }, 63, 63, 63, by decide⟩⟩

theorem witness_UnwrittenLineReadsZero :
    (∃ (l part dpaLine : Nat) (s : State), (lineMeta s l).valid = false ∧ (lineMeta s l).poison = false ∧ lineDecodes (tfind (stackOf s
      (lineStack s l)).marks (linePc s l)) ((tfind s.mem.damage l).getD []) = true) :=
  ⟨0, 0, 0, node, by decide⟩

theorem witness_WrittenLineReadsBack :
    (∃ (l part dpaLine : Nat) (data : Bytes) (s : State), Memory.wf s.mem = true ∧ keyHeld s part ∧ data.length = 64) :=
  ⟨0, 0, 0, zeros 64, node, ⟨rfl, by unfold keyHeld; decide, rfl⟩⟩

theorem witness_AppliedRequestFrame :
    (∃ (entry : Nat) (h : BookEntry) (x : Txn) (s : State), s.car.tiered = false ∧ tsorted s.mem.data = true ∧ 1 ≤ x.req.lines ∧
      x.req.view < 10 ∧ x.lines = reqLines h x.req) :=
  ⟨0, home0, { req := { lines := 1 }, lines := [0] }, node, by decide⟩

theorem witness_StepKeepsInvariant : ∃ s t : State, Inv s ∧ step s = .next t :=
  ⟨node, Machine.idle node, ⟨rfl, by decide, by decide⟩, rfl⟩

theorem witness_WholeMachineFrame : ∃ (c : Instr) (s t : State), exec c s = .next t :=
  ⟨.idcode, node, emit (.tdo 0x14800987) (emit (.tdo 1) { node with jtag := { node.jtag with opcode := 2 } }), rfl⟩

theorem test_well_formed_0 :
    ([.ringInject 0 0 0 true, .ringEject 0, .reserveTimeout 0, .pgaRevoke q1 0, .pgaMigrate q1 0 0, .pgaRebind q1 0 0 0, .reserve {},
      .perstDeassert 0, .cxlPortReset q1 0 0, .portTrained 0 0 0, .cxlTrainingFails 0 0, .memRd {} 0, .memWr {} (zeros 64) true,
      .memWrPtl {} (zeros 64) 0 true, .birsp 0 0 0 0 0, .biconflict 0 0 0 true, .biDecoderProgram 0 0 none, .hdmDecoderCommit 0 0 0 {},
      .identify 0 0, .getEventRecords 0 0 0, .setTimestamp 0 0 0, .getLog 0 0 (zeros 16) 0 0, .getPoisonList 0 0 0 0 [], .injectPoison 0
      0 0, .clearPoison 0 0 0 (zeros 64), .getDynamicCapacityConfiguration 0 0 0 0, .getDynamicCapacityExtentList 0 0 0 0,
      .unsupportedMailbox 0 0 0, .sqTail 0 0 0 0 true, .alertLatchClear 0] : List Instr).all Instr.wf = true := by decide +kernel

theorem test_well_formed_1 :
    ([.channelFenced 0 0, .ldgChannelReadmit q1 0 0, .autoReadmit 0, .ldgClearPoison q1 0, .carModeNext q1 0, .fillArrives 0 {},
      .writeBackDone 0, .programDone 0 0, .relocationDone 0 0 {}, .flashPatrol 0 {}, .mapLoadDone [] [] [], .nodeRecoveryEnd true [] [],
      .carCommit q1 0 0 0, .segmentListFetch 0, .stageRetry 0 0, .refreshDue 0, .retrainingPause 0 0 0, .hbmRetrainStack q1 0 0,
      .targetFailure 0, .invalidateRequest 0 0 0 none 0 0, .tlbInvalidate q1 0 0 0, .engineInvalidateAck 0 0, .pageGroupResponse 0 0 0,
      .priEnable 0 0 0, .contextAssign q1 0, .unbindComplete 0, .winRearm q1 0, .marNodeCoord q1 0, .marPortEnable q1 0 0, .packetRoute
      none {} 0] : List Instr).all Instr.wf = true := by decide +kernel

theorem test_well_formed_2 :
    ([.tagQuarantineEnd 0, .chunkWriteDiscard 0 0, .dataFlit 0 {}, .ackReport 0, .phyTrained 0 true 0, .twnAttach q1 0 0 none, .twnDetach
      q1 0 0, .twnSwap q1 0, .schedulerSelect 0, .wheelSlot 0 0, .wghBurst q1 0 0, .wghOverhead q1 0 0, .partitionCreate q1 0,
      .lckLdPartition q1 0 0 0, .lckAttest q1 (zeros 32), .getCertificate 0 0 0 0, .challenge 0 0 0 (zeros 32), .getMeasurements 0 0 0
      (zeros 32), .keyExchange 0 0 (zeros 32), .finish 0 0 0, .keyUpdate 0 0 0 0, .chunkSend 0 0 0 true [], .keyProg 0 0 0 0,
      .getDeviceInterfaceReport 0 0 0 0 0, .startInterfaceRequest 0 0 0 0, .ideIntegrityFailure 0 0 0, .holdoffEnd 0 0 0, .maskClear 0 0
      0 none, .irqCqCoalesce q1 0 0, .claim 0] : List Instr).all Instr.wf = true := by decide +kernel

theorem test_well_formed_3 :
    ([.eoi 0 0, .frameReceived (zeros 14) true, .nasidomRead q1 0 0 0, .nasidomWrite q1 0x9001 0 0 true [], .subscribeAdd q1 0 0 0 0 0,
      .subscribeRemove q1 0, .subscribeAcknowledge q1 0 0, .rdmaQpOpen q1 0 0 0, .rdmaQpClose q1 0, .rdmaRegionRegister q1 0 0 0 0,
      .rdmaRegionRemove q1 0, .sahDrain q1 0 0 0 0 0, .rdmaWrite 0 0 0 [], .rdmaRead 0 0 0 0, .fwHostDeclare q1 0 0 [], .sahWallTime q1
      0, .tstSliceReset q1 0, .tstCxlHold q1 0, .tstNandChannel q1 0 0 0, .bypass 8, .sourceConfigWrite 0 0 0] : List Instr).all Instr.wf
      = true := by decide +kernel

theorem test_ill_formed_0 :
    ([.ringInject 23 0 0 true, .ringInject 0 23 0 true, .ringEject 23, .reserveTimeout (2 ^ 20), .pgaRevoke q1 (2 ^ 32), .pgaMigrate q1
      (2 ^ 32) 0, .pgaMigrate q1 0 65536, .pgaRebind q1 (2 ^ 64) 0 0, .pgaRebind q1 0 (2 ^ 64) 0, .pgaRebind q1 0 0 (2 ^ 64), .reserve
      { opcode := 256 }, .reserve { dest := 4096 }, .reserve { src := 4096 }, .reserve { tag := 65536 }, .reserve { dir := 2 }, .reserve
      { pga := 2 ^ 62 }, .reserve { partition := 64 }, .reserve { waypoint := 4096 }, .reserve { hops := 128 }, .reserve
      { seq := 2 ^ 32 }, .reserve { wgen := 65536 }, .reserve { status := 256 }, .reserve { view := 16 }, .reserve { aux := 2 ^ 64 },
      .reserve { payload := zeros 1025 }, .perstDeassert 24, .perstDeassert 64, .cxlPortReset q1 24 0, .cxlPortReset q1 0 256,
      .portTrained 24 0 0] : List Instr).all (fun c => !c.wf) = true := by decide +kernel

theorem test_ill_formed_1 :
    ([.portTrained 64 0 0, .portTrained 0 256 0, .portTrained 0 0 256, .cxlTrainingFails 24 0, .cxlTrainingFails 64 0, .cxlTrainingFails
      0 256, .memRd { port := 24 } 0, .memRd { ld := 16 } 0, .memRd { hpa := 2 ^ 64 } 0, .memRd { tag := 65536 } 0, .memRd { snp := 4 }
      0, .memRd { mval := 4 } 0, .memWr {} [] true, .memWr { port := 24 } (zeros 64) true, .memWrPtl {} (zeros 64) (2 ^ 64) true,
      .memWrPtl {} [] 0 true, .memWrPtl { port := 24 } (zeros 64) 0 true, .birsp 24 0 0 0 0, .birsp 64 0 0 0 0, .birsp 0 16 0 0 0, .birsp
      0 0 4096 0 0, .birsp 0 0 0 6 0, .birsp 0 0 0 0 4, .biconflict 24 0 0 true, .biconflict 64 0 0 true, .biconflict 0 16 0 true,
      .biconflict 0 0 4096 true, .biDecoderProgram 24 0 none, .biDecoderProgram 0 16 none, .biDecoderProgram 0 0 (some (4096))] : List
      Instr).all (fun c => !c.wf) = true := by decide +kernel

theorem test_ill_formed_2 :
    ([.hdmDecoderCommit 24 0 0 {}, .hdmDecoderCommit 0 16 0 {}, .hdmDecoderCommit 0 0 10 {}, .hdmDecoderCommit 0 0 0 { base := 2 ^ 64 },
      .hdmDecoderCommit 0 0 0 { size := 2 ^ 64 }, .hdmDecoderCommit 0 0 0 { dpa := 2 ^ 64 }, .identify 24 0, .identify 0 16,
      .getEventRecords 24 0 0, .getEventRecords 0 16 0, .getEventRecords 0 0 256, .setTimestamp 24 0 0, .setTimestamp 0 16 0,
      .setTimestamp 0 0 (2 ^ 64), .getLog 24 0 (zeros 16) 0 0, .getLog 0 16 (zeros 16) 0 0, .getLog 0 0 (zeros 16) (2 ^ 32) 0, .getLog 0
      0 (zeros 16) 0 (2 ^ 32), .getLog 0 0 [] 0 0, .getPoisonList 24 0 0 0 [], .getPoisonList 0 16 0 0 [], .getPoisonList 0 0 (2 ^ 64) 0
      [], .getPoisonList 0 0 0 (2 ^ 64) [], .getPoisonList 0 0 0 0 [2 ^ 64], .injectPoison 24 0 0, .injectPoison 0 16 0, .injectPoison 0
      0 (2 ^ 64), .clearPoison 24 0 0 (zeros 64), .clearPoison 0 16 0 (zeros 64), .clearPoison 0 0 (2 ^ 64) (zeros 64)] : List Instr).all
      (fun c => !c.wf) = true := by decide +kernel

theorem test_ill_formed_3 :
    ([.clearPoison 0 0 0 [], .getDynamicCapacityConfiguration 24 0 0 0, .getDynamicCapacityConfiguration 0 16 0 0,
      .getDynamicCapacityConfiguration 0 0 256 0, .getDynamicCapacityConfiguration 0 0 0 256, .getDynamicCapacityExtentList 24 0 0 0,
      .getDynamicCapacityExtentList 0 16 0 0, .getDynamicCapacityExtentList 0 0 (2 ^ 32) 0, .getDynamicCapacityExtentList 0 0 0 (2 ^ 32),
      .unsupportedMailbox 24 0 0, .unsupportedMailbox 0 16 0, .unsupportedMailbox 0 0 65536, .sqTail 24 0 0 0 true, .sqTail 0 16 0 0
      true, .sqTail 0 0 (2 ^ 20) 0 true, .sqTail 0 0 0 (2 ^ 32) true, .alertLatchClear (2 ^ 32), .channelFenced 16 0, .channelFenced 0 3,
      .ldgChannelReadmit q1 16 0, .ldgChannelReadmit q1 0 256, .autoReadmit 16, .ldgClearPoison q1 (2 ^ 64), .carModeNext q1 256,
      .fillArrives (2 ^ 34) {}, .fillArrives 0 { steps := List.replicate 17 0 }, .fillArrives 0 { errors := 65536 }, .fillArrives 0
      { altered := [16] }, .writeBackDone (2 ^ 34), .programDone 0 16] : List Instr).all (fun c => !c.wf) = true := by decide +kernel

theorem test_ill_formed_4 :
    ([.relocationDone 0 16 {}, .relocationDone 0 0 { altered := [16] }, .flashPatrol 0 { altered := [16] }, .mapLoadDone [(512, {})] []
      [], .mapLoadDone [(0, { data := 2 ^ 32 })] [] [], .mapLoadDone [(0, { spare := 65536 })] [] [], .mapLoadDone [(0,
      { planes := 256 })] [] [], .mapLoadDone [(0, { pages := 2 ^ 32 })] [] [], .mapLoadDone [(0, { luns := 256 })] [] [], .mapLoadDone
      [(0, { groups := 2 ^ 32 })] [] [], .mapLoadDone [(0, { bad := [(65536, 0)] })] [] [], .mapLoadDone [(0, { bad := [(0, 16)] })] []
      [], .nodeRecoveryEnd true [512] [], .carCommit q1 (2 ^ 64) 0 0, .carCommit q1 0 (2 ^ 64) 0, .carCommit q1 0 0 256,
      .segmentListFetch 4096, .stageRetry 4096 0, .stageRetry 0 (2 ^ 34), .refreshDue 16, .retrainingPause 16 0 0, .retrainingPause 0 64
      0, .hbmRetrainStack q1 16 0, .hbmRetrainStack q1 0 256, .targetFailure 512, .invalidateRequest 24 0 0 none 0 0, .invalidateRequest
      0 16 0 none 0 0, .invalidateRequest 0 0 32 none 0 0, .invalidateRequest 0 0 0 (some (2 ^ 20)) 0 0, .invalidateRequest 0 0 0 none (2
      ^ 64) 0] : List Instr).all (fun c => !c.wf) = true := by decide +kernel

theorem test_ill_formed_5 :
    ([.tlbInvalidate q1 65536 0 0, .tlbInvalidate q1 0 (2 ^ 64) 0, .tlbInvalidate q1 0 0 (2 ^ 64), .engineInvalidateAck 0 1024,
      .pageGroupResponse 512 0 0, .pageGroupResponse 0 16 0, .pageGroupResponse 0 0 (2 ^ 20), .priEnable 24 0 0, .priEnable 0 16 0,
      .priEnable 0 0 (2 ^ 32), .contextAssign q1 256, .unbindComplete 4096, .winRearm q1 (2 ^ 32), .marNodeCoord q1 65536, .marPortEnable
      q1 7 0, .marPortEnable q1 0 256, .packetRoute (some (7)) {} 0, .packetRoute none { opcode := 256 } 0, .tagQuarantineEnd 65536,
      .chunkWriteDiscard 4096 0, .chunkWriteDiscard 0 65536, .dataFlit 7 {}, .dataFlit 0 { ftype := 4 }, .dataFlit 0 { vc := 8 },
      .dataFlit 0 { seq := 4096 }, .dataFlit 0 { ack := 4096 }, .dataFlit 0 { cvc := 8 }, .dataFlit 0 { credit := 4096 }, .dataFlit 0
      { first := 256 }, .dataFlit 0 { rsvd := 8 }] : List Instr).all (fun c => !c.wf) = true := by decide +kernel

theorem test_ill_formed_6 :
    ([.dataFlit 0 { payload := zeros 245 }, .dataFlit 0 { crc := 2 ^ 32 }, .ackReport 7, .phyTrained 7 true 0, .phyTrained 0 true (2 ^
      32), .twnAttach q1 (2 ^ 32) 0 none, .twnAttach q1 0 256 none, .twnDetach q1 (2 ^ 32) 0, .twnDetach q1 0 256, .twnSwap q1 256,
      .schedulerSelect 47, .wheelSlot 47 0, .wheelSlot 0 8, .wghBurst q1 256 0, .wghBurst q1 0 (2 ^ 32), .wghOverhead q1 256 0,
      .wghOverhead q1 0 256, .partitionCreate q1 64, .lckLdPartition q1 24 0 0, .lckLdPartition q1 0 16 0, .lckLdPartition q1 0 0 256,
      .lckAttest q1 [], .getCertificate 24 0 0 0, .getCertificate 0 16 0 0, .getCertificate 0 0 65536 0, .getCertificate 0 0 0 65536,
      .challenge 24 0 0 (zeros 32), .challenge 0 16 0 (zeros 32), .challenge 0 0 256 (zeros 32), .challenge 0 0 0 []] : List Instr).all
      (fun c => !c.wf) = true := by decide +kernel

theorem test_ill_formed_7 :
    ([.getMeasurements 24 0 0 (zeros 32), .getMeasurements 0 16 0 (zeros 32), .getMeasurements 0 0 256 (zeros 32), .getMeasurements 0 0 0
      [], .keyExchange 24 0 (zeros 32), .keyExchange 0 16 (zeros 32), .keyExchange 0 0 [], .finish 24 0 0, .finish 0 16 0, .finish 0 0 (2
      ^ 32), .keyUpdate 24 0 0 0, .keyUpdate 0 16 0 0, .keyUpdate 0 0 (2 ^ 32) 0, .keyUpdate 0 0 0 256, .chunkSend 24 0 0 true [],
      .chunkSend 0 16 0 true [], .chunkSend 0 0 65536 true [], .keyProg 24 0 0 0, .keyProg 0 16 0 0, .keyProg 0 0 (2 ^ 32) 0, .keyProg 0
      0 0 256, .getDeviceInterfaceReport 24 0 0 0 0, .getDeviceInterfaceReport 0 16 0 0 0, .getDeviceInterfaceReport 0 0 (2 ^ 32) 0 0,
      .getDeviceInterfaceReport 0 0 0 65536 0, .getDeviceInterfaceReport 0 0 0 0 65536, .startInterfaceRequest 24 0 0 0,
      .startInterfaceRequest 0 16 0 0, .startInterfaceRequest 0 0 (2 ^ 32) 0, .startInterfaceRequest 0 0 0 (2 ^ 256)] : List Instr).all
      (fun c => !c.wf) = true := by decide +kernel

theorem test_ill_formed_8 :
    ([.ideIntegrityFailure 24 0 0, .ideIntegrityFailure 0 16 0, .ideIntegrityFailure 0 0 256, .holdoffEnd 24 0 0, .holdoffEnd 0 16 0,
      .holdoffEnd 0 0 64, .maskClear 24 0 0 none, .maskClear 0 16 0 none, .maskClear 0 0 2048 none, .maskClear 0 0 0 (some (2 ^ 64, 0)),
      .maskClear 0 0 0 (some (0, 2 ^ 32)), .irqCqCoalesce q1 65536 0, .irqCqCoalesce q1 0 65536, .claim 4, .eoi 4 0, .eoi 0 256,
      .frameReceived [] true, .nasidomRead q1 65536 0 0, .nasidomRead q1 0 256 0, .nasidomRead q1 0 0 (2 ^ 32), .nasidomWrite q1 65536 0
      0 true [], .nasidomWrite q1 0x9001 256 0 true [], .nasidomWrite q1 0x9001 0 (2 ^ 32) true [], .nasidomWrite q1 0x3800 1 0 true [],
      .subscribeAdd q1 256 0 0 0 0, .subscribeAdd q1 0 65536 0 0 0, .subscribeAdd q1 0 0 65536 0 0, .subscribeAdd q1 0 0 0 256 0,
      .subscribeAdd q1 0 0 0 0 (2 ^ 64), .subscribeRemove q1 256] : List Instr).all (fun c => !c.wf) = true := by decide +kernel

theorem test_ill_formed_9 :
    ([.subscribeAcknowledge q1 256 0, .subscribeAcknowledge q1 0 (2 ^ 64), .rdmaQpOpen q1 0 (2 ^ 32) 0, .rdmaQpOpen q1 0 0 65536,
      .rdmaQpClose q1 (2 ^ 32), .rdmaRegionRegister q1 (2 ^ 64) 0 0 0, .rdmaRegionRegister q1 0 (2 ^ 64) 0 0, .rdmaRegionRegister q1 0 0
      256 0, .rdmaRegionRegister q1 0 0 0 256, .rdmaRegionRemove q1 (2 ^ 32), .sahDrain q1 (2 ^ 64) 0 0 0 0, .sahDrain q1 0 (2 ^ 64) 0 0
      0, .sahDrain q1 0 0 (2 ^ 32) 0 0, .sahDrain q1 0 0 0 (2 ^ 64) 0, .sahDrain q1 0 0 0 0 (2 ^ 32), .rdmaWrite (2 ^ 24) 0 0 [],
      .rdmaWrite 0 (2 ^ 32) 0 [], .rdmaWrite 0 0 (2 ^ 64) [], .rdmaRead (2 ^ 24) 0 0 0, .rdmaRead 0 (2 ^ 32) 0 0, .rdmaRead 0 0 (2 ^ 64)
      0, .rdmaRead 0 0 0 (2 ^ 32), .fwHostDeclare q1 256 0 [], .fwHostDeclare q1 0 256 [], .sahWallTime q1 (2 ^ 64), .tstSliceReset q1
      65536, .tstCxlHold q1 24, .tstNandChannel q1 64 0 0, .tstNandChannel q1 0 256 0, .bypass 256] : List Instr).all (fun c => !c.wf) =
      true := by decide +kernel

theorem test_ill_formed_10 :
    ([.bypass 7, .sourceConfigWrite 4 0 0, .sourceConfigWrite 0 256 0, .sourceConfigWrite 0 0 256] : List Instr).all (fun c => !c.wf) =
      true := by decide +kernel

/-- The worked example of interleaved extents after R50: LDA offset 0x0D23_4540 of a 4-way extent is on member 1. -/
theorem test_interleaved_extent :
    let x : ISet := { ways := 4, granule := 2 ^ 21
                      members := [(0x173, 0x4000000000), (0x174, 0x1200000000), (0x175, 0x4000000000), (0x176, 0x800000000)] }
    extentPga { State.reset with pga := { isets := [(0, x)] } } { ilv := true } 0x0D234540 = 0x05D0001203434540 := by decide +kernel

/-- A node of a 16 × 16 × 16 torus. -/
def torus (coord : Nat) (failed : List Nat) : State :=
  { State.reset with regs := [(0x100000, coord), (0x100001, 0xFFF), (0x100002, 127)], mar := { failed := failed },
                     lnk := { ports := (List.range 7).map fun p => (p, { state := 3 }) } }

/-- The worked example of routing after R349: from (14, 3, 9) to (2, 12, 9) the packet goes + in x and from (2, 3, 9) − in y; with the y link
between (2, 1, 9) and (2, 0, 9) failed it goes + from (2, 1, 9) and from (2, 3, 9). -/
theorem test_route_directions :
    chooseDir (torus 0x93E []) 0x9C2 0 = some 0 ∧ chooseDir (torus 0x932 []) 0x9C2 1 = some 1 ∧
    chooseDir (torus 0x912 [0x1902]) 0x9C2 1 = some 0 ∧ chooseDir (torus 0x932 [0x1902]) 0x9C2 1 = some 0 := by
  decide +kernel

/-- In the same example the hop 15 → 0 of x crosses the date line, and 14 → 15 does not. -/
theorem test_date_line : dateLine (torus 0x93F []) 0 0 = true ∧ dateLine (torus 0x93E []) 0 0 = false := by decide +kernel

/-- The worked example after R446: 50,000 MB/s is 3,200 B at every refill of 64 ns. -/
theorem test_refill_bytes :
    (refillClass node 1 { nextRate := 50000 }).credit = 3200 * 65536 ∧
    (refillClass node 100 { nextRate := 50000 }).credit = 65536 * 65536 := by decide +kernel

/-- The worked example after R516: a frame of 1,024 B takes a slot of 1,088 B. -/
theorem test_slot_bytes : slotBytes (zeros 1024) = 1088 := by decide +kernel

/-- The worked example after R552: firmware with host interface 2.5 that serves minors 3 to 5. -/
theorem test_compatible :
    let s : State := { node with fw := { running := { bytes := [(8, 0x00), (9, 0x07), (10, 0x04), (11, 0x00), (12, 0x02), (13, 0x05),
                                                                (14, 0x03), (15, 0x01)] } } }
    fwVersion s = 0x0103050200040700 ∧ compatible s 2 4 = true ∧ compatible s 2 2 = false ∧ compatible s 3 0 = false := by
  decide +kernel

/-- The first descriptor of the worked example in chapter 9: OPCODE 0x05, SRC_FMT 1, DST_FMT 3, CHAIN, QUIET, TAG 7. -/
theorem test_descriptor_convert :
    let d : Bytes := packLE [(8, 0x0000000700113105)]
    dOp d = 5 ∧ dSrcFmt d = 1 ∧ dDstFmt d = 3 ∧ dChain d = true ∧ dQuiet d = true ∧ dTag d = 7 ∧ dIrq d = false := by decide +kernel

/-- The second descriptor: OPCODE 0x11, IRQ, COUNTER, TAG 8. -/
theorem test_descriptor_commit :
    let d : Bytes := packLE [(8, 0x0000000800480011)]
    dOp d = 0x11 ∧ dIrq d = true ∧ dCounter d = true ∧ dTag d = 8 ∧ dChain d = false := by decide +kernel

/-- The published check value of CRC-32C, the polynomial of R374, over the digits 1 to 9. -/
theorem test_crc32c : crc32c [0x31, 0x32, 0x33, 0x34, 0x35, 0x36, 0x37, 0x38, 0x39] = 0xE3069283 := by decide +kernel

/-- IEEE 754: 1 + 1 is 2; 1 + 2⁻²⁴ is a tie and goes to the even value; the largest finite value plus itself overflows. -/
theorem test_fp32_add :
    fp32Add 0x3F800000 0x3F800000 false false = 0x40000000 ∧ fp32Add 0x3F800000 0x33800000 false false = 0x3F800000 ∧
    fp32Add 0x7F7FFFFF 0x7F7FFFFF false false = 0x7F800000 ∧ fp32Add 0x7F7FFFFF 0x7F7FFFFF false true = 0x7F7FFFFF := by
  decide +kernel

/-- The state a step answers, and the state before it if it answers none. -/
def after (o : Host.Outcome State Fault Refusal) (s : State) : State := match o with | .next t => t | _ => s

/-- R629: IDCODE scans out 0x14800987. -/
theorem test_idcode : (after (exec .idcode node) node).out = [.tdo 0x14800987, .tdo 1] := by decide +kernel

/-- R495: of two pending sources the one of the lower priority number is claimed. -/
theorem test_claim_takes_lower_number :
    let s : State := { node with evt := { sic := [(0, { config := [(3, 0x45), (4, 0x42)], pending := [3, 4] })] } }
    (after (exec (.claim 0) s) s).out = [.claim 0 4] := by decide +kernel

/-- A step takes the command at the front of the queue and leaves the rest. -/
theorem test_step_takes_front :
    let s : State := { node with pending := [.claim 0, .idcode] }
    (after (step s) s).pending = [.idcode] ∧ (after (step s) s).out = [.claim 0 0x100] := by decide +kernel

/-- R524: a write of RAS_CE_THRESHOLD with a value of 4 bytes is taken and answered OK. -/
theorem test_nasidom_write :
    (after (exec (.nasidomWrite q1 0x9001 0 0 true [5, 0, 0, 0]) node) node).out = [.nasidom 1 1 0 0 []] ∧
    rRasCeThreshold (after (exec (.nasidomWrite q1 0x9001 0 0 true [5, 0, 0, 0]) node) node) = 5 := by decide +kernel

end Sys2Proof.Tests
end

section
/-! PROOFS. Requests of management sessions: what answering one may change, where the action of a request that is taken runs (R519 to
R530), and the refusal of an index without an entry (R14). -/
namespace Sys2Proof.Machine

/-! ### What answering a request may change -/

/-- `t` is `s` but for the sessions, the count of frames sent, and what is sent: sharper than `Answers`, which lets all of Sahtin's state
change. -/
def Replies (s t : State) : Prop :=
  ∃ out sessions stats, t = { s with out := out, sah := { s.sah with sessions := sessions, ethStats := stats } }

variable {s t : State}

theorem Replies.refl : Replies s s := ⟨_, _, _, rfl⟩

theorem Replies.trans {u : State} (h : Replies s t) (k : Replies t u) : Replies s u := by
  obtain ⟨_, _, _, rfl⟩ := h
  obtain ⟨_, _, _, rfl⟩ := k
  exact ⟨_, _, _, rfl⟩

theorem Replies.eq_update (h : Replies s t) : t = { s with sah := t.sah, out := t.out } := by
  obtain ⟨_, _, _, rfl⟩ := h
  rfl

theorem Replies.now_eq (h : Replies s t) : t.now = s.now := by
  obtain ⟨_, _, _, rfl⟩ := h
  rfl

theorem Replies.stored_eq (h : Replies s t) : t.sah.stored = s.sah.stored := by
  obtain ⟨_, _, _, rfl⟩ := h
  rfl

theorem sendFrame_replies (e : Emit) : Replies s (sendFrame e s) := ⟨_, _, _, rfl⟩

theorem setSession_replies (n : Nat) (x : Session) : Replies s (setSession n x s) := ⟨_, _, _, rfl⟩

theorem acceptOverdue_replies (n : Nat) : Replies s (acceptOverdue n s) := by
  unfold acceptOverdue
  split
  · exact Replies.refl
  · exact (setSession_replies _ _).trans
      (each_induct Replies.refl fun _ _ _ ht => ht.trans (sendFrame_replies _))

/-! ### Reading a session back -/

@[simp] theorem sessionOf_setSession_same (n : Nat) (x : Session) : sessionOf (setSession n x s) n = some x :=
  tfind_tput_same _ _ _

@[simp] theorem sessionOf_sendFrame (e : Emit) (n : Nat) : sessionOf (sendFrame e s) n = sessionOf s n := rfl

/-- A session once its overdue requests have been answered ACCEPTED (R525, R530). -/
def acceptedBy (now : Nat) (x : Session) : Session :=
  let late := x.running.filter fun r => !r.2.2.2 && decide (r.2.1 + execLimit ≤ now)
  { x with
    running := x.running.map fun r => if r.2.1 + execLimit ≤ now then (r.1, r.2.1, r.2.2.1, true) else r
    cache := (late.foldl (fun c r => (r.1, stAccepted, 0, []) :: c) x.cache).take 64 }

theorem sessionOf_acceptOverdue {n : Nat} {x : Session} (h : sessionOf s n = some x) :
    sessionOf (acceptOverdue n s) n = some (acceptedBy s.now x) := by
  unfold acceptOverdue
  rw [h]
  exact each_induct (P := fun t => sessionOf t n = some (acceptedBy s.now x)) (sessionOf_setSession_same _ _)
    fun _ _ _ ht => (sessionOf_sendFrame _ _).trans ht

/-- The session of a request whose action runs: the request counts as outstanding from now (R525). -/
def admitted (s : State) (q : Ask) (key : Nat) (x : Session) : Session :=
  let y := acceptedBy s.now { x with lastAt := s.now }
  { y with running := y.running ++ [(q.req, s.now, key, false)] }

/-- Answering a request of an open session sends the answer last, and changes nothing but the session and what is sent. -/
theorem reply_of_session {q : Ask} {x : Session} (status total : Nat) (body : Bytes) (h : sessionOf s q.sid = some x) :
    (∃ rest, (reply q status total body s).out = .nasidom q.sid q.req status total body :: rest) ∧
      Replies s (reply q status total body s) := by
  unfold reply
  rw [h]
  exact ⟨⟨_, rfl⟩, (setSession_replies _ _).trans (sendFrame_replies _)⟩

end Sys2Proof.Machine

namespace Sys2Proof.Claims
open Sys2Proof.Machine

variable {s : State} {q : Ask}

/-! ### A request that is taken runs its action -/

/-- A taken request comes from an open session of its role, in a well-formed header, and is new. -/
theorem taken_iff {role : Nat} :
    taken s q role = true ↔
      s.sah.up = true ∧ q.version = 1 ∧ q.reserved = 0 ∧
        ∃ x, sessionOf s q.sid = some x ∧ x.role = role ∧ newFor x q.req = true ∧ undeclared x = false := by
  unfold taken
  cases sessionOf s q.sid with
  | none => simp only [Bool.and_false, Bool.false_eq_true, reduceCtorEq, false_and, exists_false, and_false]
  | some x =>
    simp only [Bool.and_eq_true, beq_iff_eq, and_assoc, Bool.not_eq_eq_eq_not, Bool.not_true, Option.some.injEq, exists_eq_left']

/-- A new request passes the four tests of R530: it is not cached, not running, not stale, and not one too many. -/
theorem newFor_passes {x : Session} {req : Nat} (h : newFor x req = true) :
    x.cache.find? (fun c => c.1 == req) = none ∧ x.running.any (fun r => r.1 == req) = false ∧
      (!x.cache.isEmpty && x.cache.all fun c => decide (req < c.1)) = false ∧
      ¬ 64 ≤ (x.running.filter fun r => !r.2.2.2).length := by
  simp only [newFor, Bool.and_eq_true, decide_eq_true_eq] at h
  obtain ⟨⟨⟨hcache, hrunning⟩, holdest⟩, hroom⟩ := h
  refine ⟨?_, ?_, ?_, ?_⟩
  · simpa only [List.find?_eq_none, List.all_eq_true, bne_iff_ne, beq_iff_eq, ne_eq] using hcache
  · simpa only [List.any_eq_false, List.all_eq_true, bne_iff_ne, beq_iff_eq, ne_eq] using hrunning
  · rw [Bool.and_eq_false_iff]
    rcases Bool.or_eq_true_iff.mp holdest with hempty | hold
    · exact .inl (by rw [hempty]; rfl)
    · obtain ⟨c, hc, hle⟩ := List.any_eq_true.mp hold
      refine .inr (List.all_eq_false.mpr ⟨c, hc, ?_⟩)
      simp only [decide_eq_true_eq] at hle ⊢
      omega
  · have hlen := List.length_filter_le (fun r => !r.2.2.2) x.running
    omega

/-- The action of a taken request of an allowed role runs, in a state where it is outstanding. -/
theorem ask_of_taken {role roles : Nat} (key : Nat) (changes : Bool) (act : Session → State → State) (h : taken s q role = true)
    (hrole : bitOf roles (if role = 1 then 0 else if role = 2 then 1 else 2) = true) :
    ∃ x t, sessionOf s q.sid = some x ∧ x.role = role ∧ Replies s t ∧
      ask q roles key changes act s = act (admitted s q key x) (setSession q.sid (admitted s q key x) t) := by
  obtain ⟨hup, hversion, hreserved, x, hx, rfl, hnew, hdeclared⟩ := taken_iff.1 h
  obtain ⟨hcache, hrunning, hstale, hroom⟩ := newFor_passes hnew
  have hopen : sessionOf (acceptOverdue q.sid (setSession q.sid { x with lastAt := s.now } s)) q.sid =
      some (acceptedBy s.now { x with lastAt := s.now }) :=
    sessionOf_acceptOverdue (sessionOf_setSession_same _ _)
  have hreplies : Replies s (acceptOverdue q.sid (setSession q.sid { x with lastAt := s.now } s)) :=
    (setSession_replies _ _).trans (acceptOverdue_replies _)
  refine ⟨x, _, hx, rfl, hreplies, ?_⟩
  simp only [ask, hup, hx, hcache, hrunning, hstale, hversion, hreserved, hroom, hrole, hdeclared, hopen, hreplies.now_eq, admitted,
    Bool.not_true, Bool.false_eq_true, ↓reduceIte, bne_self_eq_false, Bool.or_self, Bool.and_false]

/-- A taken request that every role may make, and whose action answers a status at once, is answered it and changes nothing but its session
and what is sent. -/
theorem ask_answers {role status : Nat} (key : Nat) (changes : Bool) {act : Session → State → State} (h : taken s q role = true)
    (hact : ∀ x t, sessionOf t q.sid = some x →
      ∃ y u, Replies t u ∧ sessionOf u q.sid = some y ∧ act x t = reply q status 0 [] u) :
    answered (ask q 7 key changes act s) q status = true ∧ Replies s (ask q 7 key changes act s) := by
  have hrole : bitOf 7 (if role = 1 then 0 else if role = 2 then 1 else 2) = true := by
    by_cases hwarden : role = 1
    · rw [if_pos hwarden]; decide
    · by_cases htenant : role = 2
      · rw [if_neg hwarden, if_pos htenant]; decide
      · rw [if_neg hwarden, if_neg htenant]; decide
  obtain ⟨x, t, -, -, ht, hrun⟩ := ask_of_taken key changes act h hrole
  obtain ⟨y, u, hu, hy, hanswer⟩ := hact (admitted s q key x) _ (sessionOf_setSession_same q.sid _)
  obtain ⟨⟨rest, hout⟩, hreply⟩ := reply_of_session status 0 [] hy
  rw [hrun, hanswer]
  exact ⟨by simp only [answered, hout, BEq.rfl, Bool.and_self], ht.trans ((setSession_replies _ _).trans (hu.trans hreply))⟩

/-! ### An index without an entry (R14) -/

/-- Every entry lies below the reserved indices, which start at 0xB000 (R13, R539). -/
theorem dict_index_lt : ∀ e ∈ dict, e.index < 0xB000 := by
  simp only [dict, List.forall_mem_append]
  and_intros <;> decide

theorem dictFind_reserved {index sub : Nat} (h : 0xB000 ≤ index) : dictFind index sub = none := by
  refine List.find?_eq_none.mpr fun e he hmatch => ?_
  simp only [Bool.and_eq_true, beq_iff_eq] at hmatch
  obtain ⟨⟨hindex, -⟩, -⟩ := hmatch
  have := dict_index_lt e he
  omega

/-- A READ of an absent index is a request whose action answers ABSENT. -/
theorem exec_nasidomRead_absent {index sub : Nat} (offset : Nat) (h : dictFind index sub = none) :
    exec (.nasidomRead q index sub offset) s =
      .next (ask q 7 (dictKey index sub) false (fun _ s => reply q stAbsent 0 [] s) s) := by
  change execNasidomRead q index sub offset s = _
  simp only [execNasidomRead, h]

/-- A WRITE of an absent index is a request whose action discards the staged parts (R524) and answers ABSENT. -/
theorem exec_nasidomWrite_absent {index sub : Nat} (offset : Nat) (last : Bool) (part : Bytes) (h : dictFind index sub = none) :
    exec (.nasidomWrite q index sub offset last part) s =
      .next (ask q 7 (dictKey index sub) true
        (fun x s => reply q stAbsent 0 [] (setSession q.sid { x with staged := none } s)) s) := by
  change execNasidomWrite q index sub offset last part s = _
  simp only [execNasidomWrite, h]

/-- Settles O49: the dictionary ends below 0xB000, and the request for an absent index runs an action that only answers ABSENT. -/
theorem absentIndexRefused : Obligations.AbsentIndexRefused := by
  unfold Obligations.AbsentIndexRefused
  refine ⟨fun _ _ hindex _ => dictFind_reserved hindex, ?_, ?_⟩
  · intro q index sub offset role s htaken _ _ habsent
    obtain ⟨hanswer, hreplies⟩ := ask_answers (status := stAbsent) (dictKey index sub) false htaken
      fun x t hx => ⟨x, t, Replies.refl, hx, rfl⟩
    exact ⟨_, exec_nasidomRead_absent offset habsent, hanswer, hreplies.eq_update⟩
  · intro q index sub offset role last part s htaken _ _ habsent
    obtain ⟨hanswer, hreplies⟩ := ask_answers (status := stAbsent) (dictKey index sub) true htaken
      fun x t _ => ⟨{ x with staged := none }, _, setSession_replies q.sid _, sessionOf_setSession_same _ _, rfl⟩
    exact ⟨_, exec_nasidomWrite_absent offset last part habsent, hanswer, hreplies.eq_update, hreplies.stored_eq⟩

end Sys2Proof.Claims
end

section
/-! PROOFS. Where a DRAM line lies (R51, R185), and how a line reads and is written (R203, R205): a read gives what the line resolves to and
changes counts only; a written line holds what was written. -/
namespace Sys2Proof.Machine

variable {s t : State} {l part dpaLine : Nat}

/-! ### Places -/

/-- The piece in which a line lies on its pseudo-channel (R51). -/
theorem addrPiece_lineOffset (s : State) (l : Nat) : addrPiece (lineOffset s l) = l / 1024 / nStacks s := by
  unfold addrPiece lineOffset
  omega

/-- Row and bank together number the piece (R185). -/
theorem lineRow_mul_add_lineBank (s : State) (l : Nat) : lineRow s l * 32 + lineBank s l = l / 1024 / nStacks s :=
  (Nat.div_add_mod' _ 32).trans (addrPiece_lineOffset s l)

/-- The 64 KiB block of an address. -/
theorem lineBlock_of_addr (a : Nat) : a / 64 / 1024 = a / 65536 := Nat.div_div_eq_div_mul a 64 1024

theorem lineStack_of_addr (a : Nat) (s : State) : lineStack s (a / 64) = a / 65536 % nStacks s := by
  rw [lineStack, lineBlock_of_addr]

theorem linePc_of_addr (a : Nat) (s : State) :
    linePc s (a / 64) = (a / 1024 % 64 + a / 65536 / nStacks s) % 64 := by
  rw [linePc, lineBlock_of_addr, Nat.div_div_eq_div_mul]

/-- Blocks that lie on one stack at one height are one block. -/
theorem block_eq_of_place {b c n : Nat} (hstack : b % n = c % n) (hheight : b / n = c / n) : b = c := by
  rw [← Nat.div_add_mod b n, ← Nat.div_add_mod c n, hstack, hheight]

/-- Blocks are rotated over the pseudo-channels: at one height, pieces on one pseudo-channel are one piece. -/
theorem piece_eq_of_rotated {p q r : Nat} (h : (p % 64 + r) % 64 = (q % 64 + r) % 64) : p % 64 = q % 64 := by omega

/-- Block, piece and byte within the piece give back the address. -/
theorem addr_eq_of_parts {a b : Nat} (hblock : a / 65536 = b / 65536) (hpiece : a / 1024 % 64 = b / 1024 % 64)
    (hbyte : a % 1024 = b % 1024) : a = b := by omega

/-! ### What reading a line changes -/

/-- `t` is `s` but for the stacks' own records, the events and the error counts: no line, no key and no register differs. -/
def Tallies (s t : State) : Prop :=
  ∃ hbm evt ras, t = { s with mem := { s.mem with hbmStacks := hbm }, evt := evt, ras := ras }

theorem Tallies.refl : Tallies s s := ⟨_, _, _, rfl⟩

theorem Tallies.trans {u : State} (h : Tallies s t) (k : Tallies t u) : Tallies s u := by
  obtain ⟨_, _, _, rfl⟩ := h
  obtain ⟨_, _, _, rfl⟩ := k
  exact ⟨_, _, _, rfl⟩

theorem Tallies.partOf_eq (h : Tallies s t) (p : Nat) : partOf t p = partOf s p := by
  obtain ⟨_, _, _, rfl⟩ := h
  rfl

theorem Tallies.memory_wf (h : Tallies s t) (hwf : Memory.wf s.mem = true) : Memory.wf t.mem = true := by
  obtain ⟨_, _, _, rfl⟩ := h
  exact hwf

theorem each_tallies {α : Type} {f : α → State → State} (items : List α) (hf : ∀ a t, Tallies t (f a t)) : Tallies s (each items f s) :=
  each_induct Tallies.refl fun a _ t ht => ht.trans (hf a t)

theorem setStack_tallies (k : Nat) (x : Stack) : Tallies s (setStack k x s) := ⟨_, _, _, rfl⟩

theorem hbmCount_tallies (k i n : Nat) : Tallies s (hbmCount k i n s) := setStack_tallies _ _

theorem openLine_tallies (l : Nat) : Tallies s (openLine l s) := setStack_tallies _ _

theorem raise_tallies (code sev : Nat) (who : Option Nat) (detail : Bytes) : Tallies s (raise code sev who detail s) := by
  obtain ⟨_, hraise⟩ := raise_eq (s := s) code sev who detail
  rw [hraise]
  exact ⟨_, _, _, rfl⟩

theorem corrected_tallies (k unit : Nat) : Tallies s (corrected k unit s) := by
  unfold corrected
  dsimp only
  split
  · exact Tallies.trans ⟨_, _, _, rfl⟩ (raise_tallies _ _ _ _)
  · exact ⟨_, _, _, rfl⟩

theorem markDevice_tallies (k pc dev : Nat) : Tallies s (markDevice k pc dev s) := by
  unfold markDevice
  dsimp only
  split
  · exact Tallies.refl
  · exact (setStack_tallies _ _).trans (raise_tallies _ _ _ _)

theorem countSymbol_tallies (k pc dev : Nat) (counted : Bool) : Tallies s (countSymbol k pc dev counted s) := by
  unfold countSymbol
  dsimp only
  split
  · exact ((setStack_tallies _ _).trans (corrected_tallies _ _)).trans (markDevice_tallies _ _ _)
  · exact (setStack_tallies _ _).trans (corrected_tallies _ _)

theorem countCorrections_tallies (l : Nat) (d : List (Nat × Nat)) (counted : Bool) : Tallies s (countCorrections l d counted s) :=
  (each_tallies d fun _ _ => countSymbol_tallies _ _ _ _).trans (each_tallies _ fun _ _ => markDevice_tallies _ _ _)

theorem readLine_tallies (l part dpaLine : Nat) (s : State) : Tallies s (readLine l part dpaLine s).2 := by
  have hopen : Tallies s (hbmCount (lineStack s l) 0 1 (openLine l s)) := (openLine_tallies l).trans (hbmCount_tallies _ _ _)
  unfold readLine
  dsimp only
  split
  · dsimp only
    split
    · exact (hopen.trans (countCorrections_tallies _ _ _)).trans (hbmCount_tallies _ _ _)
    · exact hopen.trans (countCorrections_tallies _ _ _)
  · exact hopen.trans (hbmCount_tallies _ _ _)

/-! ### What reading a line gives -/

@[simp] theorem stackOf_setStack_same (k : Nat) (x : Stack) : stackOf (setStack k x s) k = x := by
  simp only [stackOf, setStack, tfind_tput_same, Option.getD_some]

@[simp] theorem marks_hbmCount (k i n : Nat) : (stackOf (hbmCount k i n s) k).marks = (stackOf s k).marks := by
  rw [hbmCount, stackOf_setStack_same]

@[simp] theorem marks_openLine (l : Nat) : (stackOf (openLine l s) (lineStack s l)).marks = (stackOf s (lineStack s l)).marks := by
  rw [openLine, stackOf_setStack_same]

/-- A line that decodes gives what it resolves to (R203): opening its row and counting the read change neither the marks that the decoder
uses nor the line. -/
theorem readLine_of_decodes
    (h : lineDecodes (tfind (stackOf s (lineStack s l)).marks (linePc s l)) ((tfind s.mem.damage l).getD []) = true) :
    (readLine l part dpaLine s).1 = resolveLine s l part dpaLine := by
  have hmarks : (stackOf (hbmCount (lineStack s l) 0 1 (openLine l s)) (lineStack s l)).marks = (stackOf s (lineStack s l)).marks :=
    (marks_hbmCount _ _ _).trans (marks_openLine l)
  unfold readLine
  dsimp only
  rw [hmarks]
  exact congrArg Prod.fst (if_pos h)

/-- A sound line that was never written resolves to zeros for every partition: no key is consulted (R60). -/
theorem resolveLine_unwritten (hvalid : (lineMeta s l).valid = false) (hpoison : (lineMeta s l).poison = false) :
    resolveLine s l part dpaLine = ⟨zeros 64, 0⟩ := by
  simp only [resolveLine, hvalid, hpoison, Bool.false_eq_true, ↓reduceIte, Bool.not_false]

/-! ### What writing a line leaves -/

/-- A byte inside a written range reads as written. -/
theorem byte_putBytes_inside {a i : Nat} {bs : Bytes} (hwf : Memory.wf s.mem = true) (hi : i < bs.length) :
    tget 0 (putBytes a bs s).mem.data (a + i) = bs[i] := by
  induction bs generalizing a i s with
  | nil => exact absurd hi (Nat.not_lt_zero i)
  | cons b bs ih =>
    cases i with
    | zero => exact (byte_putBytes_other (.inl (Nat.lt_succ_self a))).trans (byte_putByte_same hwf)
    | succ i =>
      have hrest := ih (a := a + 1) (putByte_wf (a := a) (b := b) hwf) (Nat.lt_of_succ_lt_succ hi)
      rwa [Nat.add_assoc, Nat.add_comm 1 i] at hrest

/-- Writing bytes leaves the lines' metadata. -/
theorem putBytes_info (a : Nat) (bs : Bytes) : (putBytes a bs s).mem.info = s.mem.info := by
  induction bs generalizing a s with
  | nil => rfl
  | cons b bs ih => exact ih (a + 1)

theorem rawLine_putBytes {data : Bytes} (hwf : Memory.wf s.mem = true) (hlen : data.length = 64) :
    rawLine (putBytes (l * 64) data s) l = data := by
  refine List.ext_getElem (by simp [rawLine, hlen]) fun i _ hi => ?_
  simp only [rawLine, List.getElem_map, List.getElem_range]
  exact byte_putBytes_inside hwf hi

theorem lineMeta_setMeta_same {m : LineMeta} (h : tsorted s.mem.info = true) : lineMeta (setMeta l m s) l = m :=
  tget_tset_same h

/-- A written line holds its bytes. -/
theorem rawLine_writeLine {data : Bytes} {poison : Bool} (hwf : Memory.wf s.mem = true) (hlen : data.length = 64) :
    rawLine (writeLine l part dpaLine data poison s) l = data :=
  rawLine_putBytes (s := hbmCount (lineStack s l) 1 1 (openLine l s)) hwf hlen

/-- A written line is valid under the partition's current epoch and seed (R205). -/
theorem lineMeta_writeLine {data : Bytes} {poison : Bool} (hwf : Memory.wf s.mem = true) :
    lineMeta (writeLine l part dpaLine data poison s) l =
      { valid := true, poison := poison, epoch := (partOf s part).current, part := part, seed := (partOf s part).seedCur,
        line := dpaLine } := by
  obtain ⟨-, hinfo, -⟩ := memory_wf_iff.1 hwf
  refine lineMeta_setMeta_same ?_
  dsimp only
  rw [putBytes_info]
  exact tcanon_tsorted hinfo

/-! ### Partial writes -/

theorem length_mergeBytes (old new : Bytes) (be : Nat) : (mergeBytes old new be).length = old.length := by
  fun_induction mergeBytes old new be with
  | case1 o os n ns be ih => simp only [List.length_cons, ih]
  | case2 os be => rfl
  | case3 new be => rfl

/-- A partial write to a line that reads good writes the merge of both (R205). -/
theorem mergeLine_of_good {old data : Bytes} {be requester : Nat} {poison : Bool} (h : (readLine l part dpaLine s).1 = ⟨old, 0⟩) :
    mergeLine l part dpaLine data be poison requester s =
      writeLine l part dpaLine (mergeBytes old data be) poison (readLine l part dpaLine s).2 := by
  simp only [mergeLine, h, reportLine, mergeBase, Nat.zero_lt_succ, ↓reduceIte, Bool.false_or]

end Sys2Proof.Machine

namespace Sys2Proof.Claims
open Sys2Proof.Machine

/-- Settles O56: the place is R51's by arithmetic on the address, and it gives back the block, the piece and the byte. -/
theorem addressMap : Obligations.AddressMap := by
  unfold Obligations.AddressMap
  refine ⟨fun a s => ⟨lineStack_of_addr a s, linePc_of_addr a s, ?_⟩, ?_⟩
  · rw [lineRow_mul_add_lineBank, lineBlock_of_addr]
  · intro a b s _ hstack hpc hrow hbank hbyte
    rw [lineStack_of_addr, lineStack_of_addr] at hstack
    rw [linePc_of_addr, linePc_of_addr] at hpc
    have hheight : a / 65536 / nStacks s = b / 65536 / nStacks s := by
      rw [← lineBlock_of_addr, ← lineBlock_of_addr, ← lineRow_mul_add_lineBank, ← lineRow_mul_add_lineBank, hrow, hbank]
    rw [hheight] at hpc
    exact addr_eq_of_parts (block_eq_of_place hstack hheight) (piece_eq_of_rotated hpc) hbyte

/-- Settles O58: the line resolves to zeros without a key, so a partial store writes the merge with zeros, as a full store does. -/
theorem unwrittenLineReadsZero : Obligations.UnwrittenLineReadsZero := by
  unfold Obligations.UnwrittenLineReadsZero
  intro l part dpaLine s hvalid hpoison hdecodes
  have hread : (readLine l part dpaLine s).1 = ⟨zeros 64, 0⟩ :=
    (readLine_of_decodes hdecodes).trans (resolveLine_unwritten hvalid hpoison)
  refine ⟨hread, fun hwf data be requester _ => ?_⟩
  have htallies := readLine_tallies l part dpaLine s
  have hwf' := htallies.memory_wf hwf
  rw [mergeLine_of_good hread]
  refine ⟨rawLine_writeLine hwf' ?_, ?_⟩
  · rw [length_mergeBytes, zeros, List.length_replicate]
  · rw [lineMeta_writeLine hwf', htallies.partOf_eq]

end Sys2Proof.Claims
end

section
/-! PROOFS. Which host addresses an HDM decoder claims and the DPA that it gives them (R94): the DPA keeps the byte within a granule and the
number of the interleave round, and the decoder's position fixes the granule within the round. -/
namespace Sys2Proof.Machine

variable {d : Decoder} {h x : Nat}

/-- The rule of R94 for an address in a committed decoder's range: the model's guards against zero ways and granularity do not act. -/
theorem hdmHit_of_inRange (hcommitted : d.committed = true) (hbase : d.base ≤ h) (hlimit : h < d.base + d.size) (hways : 1 ≤ d.ways)
    (hgran : 1 ≤ d.gran) :
    hdmHit d h = if (h - d.base) / d.gran % d.ways = d.pos then
      some (d.dpa + (h - d.base) / (d.gran * d.ways) * d.gran + (h - d.base) % d.gran) else none := by
  have hin : ¬(!d.committed || h < d.base || d.base + d.size ≤ h) = true := by simp [hcommitted, hbase, hlimit]
  rw [hdmHit, if_neg hin, Nat.max_eq_right hways, Nat.max_eq_right hgran]

/-- A decoder gives a DPA to no address outside its range, and to none while it is not committed (R93, R94). -/
theorem inRange_of_hdmHit (hhit : hdmHit d h = some x) : d.committed = true ∧ d.base ≤ h ∧ h < d.base + d.size := by
  unfold hdmHit at hhit
  split at hhit
  case isTrue => cases hhit
  case isFalse hin => simpa [and_assoc] using hin

/-- What an address that a decoder translates satisfies: it lies in a granule of the decoder's position, and its DPA is R94's. -/
theorem place_of_hdmHit (hways : 1 ≤ d.ways) (hgran : 1 ≤ d.gran) (hhit : hdmHit d h = some x) :
    d.base ≤ h ∧ (h - d.base) / d.gran % d.ways = d.pos ∧
      d.dpa + (h - d.base) / (d.gran * d.ways) * d.gran + (h - d.base) % d.gran = x := by
  obtain ⟨hcommitted, hbase, hlimit⟩ := inRange_of_hdmHit hhit
  rw [hdmHit_of_inRange hcommitted hbase hlimit hways hgran, Option.ite_none_right_eq_some, Option.some_inj] at hhit
  exact ⟨hbase, hhit⟩

/-- A round's number and the byte within a granule can be told apart in their sum. -/
theorem round_and_byte_eq {q q' o o' g : Nat} (hgran : 1 ≤ g) (hsum : q * g + o % g = q' * g + o' % g) : q = q' ∧ o % g = o' % g := by
  have hround : q = q' := by
    simpa [Nat.mul_comm _ g, Nat.mul_add_div hgran, Nat.div_eq_of_lt (Nat.mod_lt _ hgran)] using congrArg (· / g) hsum
  subst hround
  exact ⟨rfl, Nat.add_left_cancel hsum⟩

/-- Offsets at one target position that share round and byte are one offset: round and position number the granule, granule and byte the
offset. -/
theorem offset_eq_of_place {o o' g w : Nat} (hgran : 1 ≤ g) (hpos : o / g % w = o' / g % w)
    (hsum : o / (g * w) * g + o % g = o' / (g * w) * g + o' % g) : o = o' := by
  obtain ⟨hround, hbyte⟩ := round_and_byte_eq hgran hsum
  rw [← Nat.div_div_eq_div_mul, ← Nat.div_div_eq_div_mul] at hround
  exact block_eq_of_place hbyte (block_eq_of_place hpos hround)

/-- A decoder gives no two addresses one DPA (R94). -/
theorem hdmHit_injective {h' : Nat} (hways : 1 ≤ d.ways) (hgran : 1 ≤ d.gran) (hhit : hdmHit d h = some x) (hhit' : hdmHit d h' = some x) :
    h = h' := by
  obtain ⟨hbase, hpos, hdpa⟩ := place_of_hdmHit hways hgran hhit
  obtain ⟨hbase', hpos', hdpa'⟩ := place_of_hdmHit hways hgran hhit'
  rw [← hdpa', Nat.add_assoc, Nat.add_assoc] at hdpa
  have hoffset : h - d.base = h' - d.base := offset_eq_of_place hgran (hpos.trans hpos'.symm) (Nat.add_left_cancel hdpa)
  rw [← Nat.sub_add_cancel hbase, hoffset, Nat.sub_add_cancel hbase']

end Sys2Proof.Machine

namespace Sys2Proof.Claims
open Sys2Proof.Machine

/-- Settles O57: in range the decoder's rule is R94's, the worked example follows from it, and a DPA gives back round, position and byte, and
so the address. -/
theorem decoderArithmetic : Obligations.DecoderArithmetic := by
  unfold Obligations.DecoderArithmetic
  refine ⟨fun _ _ => hdmHit_of_inRange, ?_, fun _ _ _ _ => hdmHit_injective⟩
  rw [hdmHit_of_inRange rfl (by decide) (by decide) (by decide) (by decide)]
  rfl

end Sys2Proof.Claims
end

section
/-! PROOFS. The interrupt controllers of the management cores (R494 to R496): an end of interrupt, its management fault and the watchdog that
ends a halt, and the source that a claim takes, the first of those that may interrupt. -/
namespace Sys2Proof.Machine

variable {s : State} {core source top p src : Nat} {rest : List (Nat × Nat)}

/-! ### Reading a core's controller -/

/-- Mapping a table's values maps what is found. -/
theorem tfind_map_values {α β : Type} (f : α → β) (t : Tbl α) (k : Nat) :
    tfind (t.map fun e => (e.1, f e.2)) k = (tfind t k).map f := by
  induction t with
  | nil => rfl
  | cons e t ih =>
    simp only [List.map_cons, tfind]
    split
    · rfl
    · exact ih

@[simp] theorem sicOf_setSic_same (core : Nat) (k : Sic) : sicOf (setSic core k s) core = k := by
  simp only [sicOf, setSic, tfind_tput_same, Option.getD_some]

@[simp] theorem sicOf_emit (e : Emit) (core : Nat) : sicOf (emit e s) core = sicOf s core := rfl

/-- Raising an event asserts no source: the event engine asserts it when it writes the event (R493, R500). -/
@[simp] theorem sicOf_raise (code sev : Nat) (who : Option Nat) (detail : Bytes) (core : Nat) :
    sicOf (raise code sev who detail s) core = sicOf s core := by
  unfold raise
  dsimp only
  split <;> rfl

/-! ### End of interrupt (R496) -/

/-- A controller that has recorded an end of interrupt that its top entry does not name, and asserts source 0. -/
def eoiFault (source top : Nat) (k : Sic) : Sic :=
  { k with faultEoi := source, faultTop := top, pending := if 0 ∈ k.pending then k.pending else 0 :: k.pending }

theorem zero_mem_eoiFault_pending (source top : Nat) (k : Sic) : 0 ∈ (eoiFault source top k).pending := by
  unfold eoiFault
  dsimp only
  split
  case isTrue hpending => exact hpending
  case isFalse => exact List.mem_cons_self

theorem eoi_operands (hcore : core < 4) (hsource : source < 256) : ¬ (decide (4 ≤ core) || decide (256 ≤ source)) = true := by
  simp only [Bool.or_eq_true, decide_eq_true_eq]
  omega

theorem exec_eoi_pop (hcore : core < 4) (hsource : source < 256) (hstack : (sicOf s core).stack = (source, p) :: rest) :
    exec (.eoi core source) s = .next (setSic core { sicOf s core with stack := rest } s) := by
  change execEoi core source s = _
  unfold execEoi
  rw [if_neg (eoi_operands hcore hsource)]
  simp only [hstack, ↓reduceIte]

theorem exec_eoi_empty (hcore : core < 4) (hsource : source < 256) (hstack : (sicOf s core).stack = []) :
    ∃ t, exec (.eoi core source) s = .next t ∧ sicOf t core = eoiFault source 0 (sicOf s core) := by
  refine ⟨raise 0x3001 2 none (packLE [(1, source), (1, 0)]) (setSic core (eoiFault source 0 (sicOf s core)) s), ?_, ?_⟩
  · change execEoi core source s = _
    unfold execEoi
    rw [if_neg (eoi_operands hcore hsource)]
    simp only [hstack, eoiFault]
  · rw [sicOf_raise, sicOf_setSic_same]

theorem exec_eoi_mismatch (hcore : core < 4) (hsource : source < 256) (hother : top ≠ source)
    (hstack : (sicOf s core).stack = (top, p) :: rest) :
    ∃ t, exec (.eoi core source) s = .next t ∧
      sicOf t core = { eoiFault source top (sicOf s core) with halted := (sicOf s core).halted || top == 0 } := by
  refine ⟨raise 0x3001 2 none (packLE [(1, source), (1, top)])
    (setSic core { eoiFault source top (sicOf s core) with halted := (sicOf s core).halted || top == 0 } s), ?_, ?_⟩
  · change execEoi core source s = _
    unfold execEoi
    rw [if_neg (eoi_operands hcore hsource)]
    simp only [hstack, if_neg hother, eoiFault]
  · rw [sicOf_raise, sicOf_setSic_same]

/-! ### The watchdog ends a halt (R496, R567, R569) -/

/-- The controller of a core that has stopped: what was claimed is forgotten, and the core is not halted. -/
def coreStopped (k : Sic) : Sic := { k with stack := [], halted := false }

def coresStopped (sics : Tbl Sic) : Tbl Sic := sics.map fun e => (e.1, coreStopped e.2)

theorem not_halted_of_coresStopped {sics : Tbl Sic} (hstopped : s.evt.sic = coresStopped sics) (core : Nat) :
    (sicOf s core).halted = false := by
  rw [sicOf, hstopped, coresStopped, tfind_map_values]
  cases tfind sics core <;> rfl

/-- Whether Sahtin reverts, stays stopped or restarts, a watchdog that fires stops its cores. -/
theorem exec_watchdog_due {due : Nat} (hkick : tfind s.fw.kickDue core = some due) (hruns : s.fw.wdSuspended = false)
    (hdue : due ≤ s.now) :
    ∃ t sics, exec (.watchdog core) s = .next t ∧ t.evt.sic = coresStopped sics := by
  have hfires : ¬ (s.fw.wdSuspended || decide (s.now < due)) = true := by
    simp only [hruns, Bool.false_or, decide_eq_true_eq]
    omega
  change ∃ t sics, execWatchdog core s = .next t ∧ _
  simp only [execWatchdog, hkick, if_neg hfires]
  split
  case isTrue hreverts => exact ⟨_, _, rfl, rfl⟩
  case isFalse htrial =>
    split
    case isTrue hstays => exact ⟨_, _, rfl, rfl⟩
    case isFalse hrestarts => exact ⟨_, _, rfl, rfl⟩

/-! ### The source that a claim takes (R495) -/

/-- The order in which sources are claimed: by priority, at a tie by number. -/
def ClaimedBefore (k : Sic) (a b : Nat) : Prop :=
  srcPriority k a < srcPriority k b ∨ (srcPriority k a = srcPriority k b ∧ a ≤ b)

theorem ClaimedBefore.refl (k : Sic) (a : Nat) : ClaimedBefore k a a := .inr ⟨rfl, Nat.le_refl a⟩

theorem ClaimedBefore.trans {k : Sic} {a b c : Nat} (hab : ClaimedBefore k a b) (hbc : ClaimedBefore k b c) : ClaimedBefore k a c := by
  unfold ClaimedBefore at *
  omega

/-- The better of two sources is one of them and comes before both. -/
theorem betterSrc_cases (k : Sic) (a b : Nat) :
    (betterSrc k a b = a ∧ ClaimedBefore k a b) ∨ (betterSrc k a b = b ∧ ClaimedBefore k b a) := by
  unfold betterSrc ClaimedBefore
  simp only [Bool.or_eq_true, Bool.and_eq_true, decide_eq_true_eq, beq_iff_eq]
  split
  case isTrue hb => exact .inr ⟨rfl, by omega⟩
  case isFalse ha => exact .inl ⟨rfl, by omega⟩

/-- The best of a list of sources is one of them and comes before all. -/
theorem foldl_betterSrc_first (k : Sic) (a : Nat) (as : List Nat) :
    as.foldl (betterSrc k) a ∈ a :: as ∧ ∀ o ∈ a :: as, ClaimedBefore k (as.foldl (betterSrc k) a) o := by
  induction as generalizing a with
  | nil => exact ⟨List.mem_cons_self, fun o ho => List.mem_singleton.mp ho ▸ ClaimedBefore.refl k a⟩
  | cons b as ih =>
    obtain ⟨hmem, hfirst⟩ := ih (betterSrc k a b)
    obtain ⟨hbest, hrest⟩ := List.forall_mem_cons.mp hfirst
    simp only [List.foldl_cons, List.mem_cons, forall_eq_or_imp] at hmem ⊢
    rcases betterSrc_cases k a b with ⟨hbetter, hbefore⟩ | ⟨hbetter, hbefore⟩
    · rw [hbetter] at hmem hbest hrest ⊢
      exact ⟨hmem.imp_right .inr, hbest, hbest.trans hbefore, hrest⟩
    · rw [hbetter] at hmem hbest hrest ⊢
      exact ⟨.inr hmem, hbest.trans hbefore, hbest, hrest⟩

theorem claimed_eq_none {k : Sic} : claimed k core = none ↔ k.pending.filter (interrupts k core) = [] := by
  unfold claimed
  split
  case h_1 hnone => exact iff_of_true rfl hnone
  case h_2 a as hsome => exact iff_of_false (Option.some_ne_none _) (hsome ▸ List.cons_ne_nil a as)

/-- The claimed source is the first in that order among the sources that may interrupt. -/
theorem first_of_claimed {k : Sic} (hclaim : claimed k core = some src) :
    src ∈ k.pending.filter (interrupts k core) ∧ ∀ o ∈ k.pending.filter (interrupts k core), ClaimedBefore k src o := by
  unfold claimed at hclaim
  split at hclaim
  case h_1 => cases hclaim
  case h_2 a as hsome =>
    cases hclaim
    rw [hsome]
    exact foldl_betterSrc_first k a as

theorem exec_claim_none (hcore : core < 4) (hclaim : claimed (sicOf s core) core = none) :
    exec (.claim core) s = .next (emit (.claim core 0x100) s) := by
  change execClaim core s = _
  simp only [execClaim, if_neg (Nat.not_le.mpr hcore), hclaim]

theorem exec_claim_some (hcore : core < 4) (hclaim : claimed (sicOf s core) core = some src) :
    ∃ t, exec (.claim core) s = .next t ∧ t.out = .claim core src :: s.out ∧
      (sicOf t core).stack = (src, srcPriority (sicOf s core) src) :: (sicOf s core).stack := by
  change ∃ t, execClaim core s = .next t ∧ _
  simp only [execClaim, if_neg (Nat.not_le.mpr hcore), hclaim]
  refine ⟨_, rfl, rfl, ?_⟩
  rw [sicOf_emit, sicOf_setSic_same]

end Sys2Proof.Machine

namespace Sys2Proof.Claims
open Sys2Proof.Machine

/-- Settles O51: the four outcomes are the branches of an end of interrupt, and a watchdog that fires stops the cores, which clears every
halt. -/
theorem endOfInterrupt : Obligations.EndOfInterrupt := by
  unfold Obligations.EndOfInterrupt
  refine ⟨fun _ _ _ _ _ => exec_eoi_pop, ?_, ?_, ?_⟩
  · intro core source s hcore hsource hstack
    obtain ⟨t, ht, hsic⟩ := exec_eoi_empty hcore hsource hstack
    rw [← hstack]
    exact ⟨t, ht, by rw [hsic]; exact ⟨rfl, rfl, zero_mem_eoiFault_pending source 0 _, rfl⟩⟩
  · intro core source top p rest s hcore hsource hother hstack
    obtain ⟨t, ht, hsic⟩ := exec_eoi_mismatch hcore hsource hother hstack
    rw [← hstack]
    exact ⟨t, ht, by rw [hsic]; exact ⟨rfl, rfl, rfl, zero_mem_eoiFault_pending source top _, rfl⟩⟩
  · intro core due s hkick hruns hdue
    obtain ⟨t, sics, ht, hstopped⟩ := exec_watchdog_due hkick hruns hdue
    exact ⟨t, ht, not_halted_of_coresStopped hstopped⟩

variable {s : State} {core src : Nat}

theorem srcPriority_sicOf (s : State) (core src : Nat) : srcPriority (sicOf s core) src = priority s core src := by
  simp only [srcPriority, priority, bits, Nat.pow_zero, Nat.div_one, Nat.reducePow]

/-- R494 and R495's condition is the model's test on the pending sources. -/
theorem mayTake_iff : mayTake s core src ↔ src ∈ (sicOf s core).pending.filter (interrupts (sicOf s core) core) := by
  have haimed : srcAimed (sicOf s core) core src = true ↔
      src = 0 ∨ (tget 15 (sicOf s core).config src / 64 % 2 = 1 ∧ tget 15 (sicOf s core).config src / 16 % 4 = core) := by
    simp only [srcAimed, bitOf, bits, Nat.reducePow, Bool.or_eq_true, Bool.and_eq_true, beq_iff_eq]
  rw [List.mem_filter, interrupts, Bool.and_eq_true, haimed, mayTake]
  cases hstack : (sicOf s core).stack with
  | nil => simp only [true_or]
  | cons top rest =>
    simp only [srcPriority_sicOf, decide_eq_true_eq, reduceCtorEq, false_or, List.cons.injEq]
    exact and_congr_right fun _ => and_congr_right fun _ =>
      ⟨fun ⟨_, _, ⟨htop, _⟩, hlt⟩ => htop ▸ hlt, fun hlt => ⟨top, rest, ⟨rfl, rfl⟩, hlt⟩⟩

theorem claimed_eq_none_iff : claimed (sicOf s core) core = none ↔ ∀ src, ¬ mayTake s core src := by
  simp only [claimed_eq_none, List.eq_nil_iff_forall_not_mem, mayTake_iff]

/-- A claimed source may interrupt, and comes first among those that may. -/
theorem claimed_first (hclaim : claimed (sicOf s core) core = some src) :
    mayTake s core src ∧
      ∀ o, mayTake s core o → priority s core src < priority s core o ∨ (priority s core src = priority s core o ∧ src ≤ o) := by
  obtain ⟨hmem, hfirst⟩ := first_of_claimed hclaim
  refine ⟨mayTake_iff.mpr hmem, fun o ho => ?_⟩
  simpa only [ClaimedBefore, srcPriority_sicOf] using hfirst o (mayTake_iff.mp ho)

/-- Settles O52: the claimed source is the first by priority and number of those that may interrupt, and there is none where no source may. -/
theorem claimTakesHighest : Obligations.ClaimTakesHighest := by
  unfold Obligations.ClaimTakesHighest
  refine ⟨fun core s hcore ⟨o, ho⟩ => ?_, fun core s hcore hidle => ?_⟩
  · obtain ⟨src, hclaim⟩ := Option.ne_none_iff_exists'.mp fun hnone => claimed_eq_none_iff.mp hnone o ho
    obtain ⟨hmay, hfirst⟩ := claimed_first hclaim
    obtain ⟨t, ht, hout, hstack⟩ := exec_claim_some hcore hclaim
    rw [srcPriority_sicOf] at hstack
    exact ⟨src, t, hmay, hfirst, ht, hout, hstack⟩
  · exact ⟨_, exec_claim_none hcore (claimed_eq_none_iff.mpr hidle), rfl, rfl⟩

end Sys2Proof.Claims
end

section
/-! PROOFS. The test access port (R627 to R632): what IDCODE and USERCODE shift out, and how a rise of NODE_RESET_N ends an instruction that
drives pins and begins the cold boot. -/
namespace Sys2Proof.Machine

variable {s t : State}

/-! ### Loading an instruction (R628) -/

theorem tap_always (act : State → State) (hpower : s.rst.vddAux = true) : tap true act s = .next (act s) := by
  simp only [tap, hpower, Bool.not_true, Bool.false_eq_true, ↓reduceIte, Bool.and_false]

@[simp] theorem loadOpcode_out (opcode out : Nat) (j : Jtag) : (loadOpcode opcode out j s).out = .tdo out :: .tdo 1 :: s.out := rfl

/-- USERCODE's value by field, for counts that fit a byte (R629). -/
theorem usercode_fields {n dies : Nat} (hn : n < 256) (hdies : dies < 256) :
    bits (n + 256 * dies) 0 8 = n ∧ bits (n + 256 * dies) 8 8 = dies ∧ bits (n + 256 * dies) 16 16 = 0 ∧ n + 256 * dies < 2 ^ 32 := by
  simp only [bits, Nat.reducePow]
  omega

/-! ### The image that boots (R558) -/

/-- Whatever the test access port and the pins, the same image boots. -/
theorem chooseImage_comm (j : Jtag) (r : Rst) :
    chooseImage { s with jtag := j, rst := r } = (chooseImage s).map fun t => { t with jtag := j, rst := r } := by
  have htrial : trialBoot { s with jtag := j, rst := r } = { trialBoot s with jtag := j, rst := r } := by
    simp only [trialBoot, writeControl]
    split
    · rfl
    · split <;> rfl
  have hvalid (i : Nat) : imageValid { trialBoot s with jtag := j, rst := r } (slotOf { trialBoot s with jtag := j, rst := r } i) =
      imageValid (trialBoot s) (slotOf (trialBoot s) i) := rfl
  simp only [chooseImage, htrial, hvalid]
  split
  · rfl
  · split <;> rfl

/-- Choosing an image changes the firmware's state alone. -/
theorem chooseImage_eq (h : chooseImage s = some t) : ∃ fw, t = { s with fw := fw } := by
  obtain ⟨fw, htrial⟩ : ∃ fw, trialBoot s = { s with fw := fw } := by
    unfold trialBoot
    split
    · exact ⟨_, rfl⟩
    · split <;> exact ⟨_, rfl⟩
  simp only [chooseImage, htrial] at h
  split at h
  · cases h; exact ⟨_, rfl⟩
  · split at h
    · cases h; exact ⟨_, rfl⟩
    · cases h

/-! ### A cold boot begins (R575) -/

@[simp] theorem startBoot_jtag : (startBoot s).jtag = s.jtag := by
  unfold startBoot
  split
  · rfl
  · split
    case h_1 => rfl
    case h_2 t hchosen =>
      obtain ⟨fw, rfl⟩ := chooseImage_eq hchosen
      rfl

@[simp] theorem startBoot_resetN : (startBoot s).rst.resetN = s.rst.resetN := by
  unfold startBoot
  split
  · rfl
  · split
    case h_1 => rfl
    case h_2 t hchosen =>
      obtain ⟨fw, rfl⟩ := chooseImage_eq hchosen
      rfl

/-- Nothing boots while NODE_RESET_N is low. -/
theorem startBoot_of_resetN_low (h : s.rst.resetN = false) : startBoot s = s := by
  simp only [startBoot, h, Bool.not_false, Bool.true_or, ↓reduceIte]

/-- Where nothing holds the node in reset and an image is valid, the boot begins. -/
theorem startBoot_begins (hresetN : s.rst.resetN = true) (htripped : s.sah.tripped = false) (hpower : s.rst.vddAux = true)
    (hlocked : s.rst.pllLocked = true) (hinReset : s.rst.inReset = true) (himage : (chooseImage s).isSome = true) :
    (startBoot s).rst.step = 2 ∧ (startBoot s).rst.inReset = false := by
  obtain ⟨t, hchosen⟩ := Option.isSome_iff_exists.mp himage
  simp only [startBoot, hresetN, htripped, hpower, hlocked, hinReset, hchosen, Bool.not_true, Bool.or_self, Bool.false_eq_true,
    ↓reduceIte, and_self]

end Sys2Proof.Machine

namespace Sys2Proof.Claims
open Sys2Proof.Machine

/-- Settles O50: both instructions act outside the compliance condition too, and an assembly's counts fit their bytes (R4). -/
theorem identityCodes : Obligations.IdentityCodes := by
  unfold Obligations.IdentityCodes
  intro s hpower ⟨_, hstacks, hdies⟩
  have hn : s.asm.hbmStacks < 256 := by
    simp only [List.mem_cons, List.not_mem_nil, or_false] at hstacks
    omega
  have hd : s.asm.dies < 256 := by
    simp only [List.mem_cons, List.not_mem_nil, or_false] at hdies
    omega
  exact ⟨⟨_, _, tap_always _ hpower, rfl, rfl, by decide⟩, _, _, tap_always _ hpower, rfl, usercode_fields hn hd⟩

theorem drivesPins_iff (opcode : Nat) : drivesPins opcode = true ↔ opcode ∈ [0x00, 0x04, 0x05, 0x06, 0x07] := by
  simp only [drivesPins, Bool.or_eq_true, beq_iff_eq, List.mem_cons, List.not_mem_nil, or_false, or_assoc]

/-- Settles O55: the release loads BYPASS and starts the boot, which leaves the test access port and the pin as they are. -/
theorem scanEndsAtReset : Obligations.ScanEndsAtReset := by
  unfold Obligations.ScanEndsAtReset
  refine ⟨drivesPins_iff, fun s hlow hpower hdrives => ?_⟩
  have hexec : exec .nodeResetNRelease s = .next (startBoot { s with
      jtag := { s.jtag with opcode := 0xFF, driven := none, highz := false }, rst := { s.rst with resetN := true } }) := by
    change execNodeResetNRelease s = _
    simp only [execNodeResetNRelease, hlow, hpower, (drivesPins_iff _).mpr hdrives, Bool.not_true, Bool.or_self, Bool.false_eq_true,
      ↓reduceIte]
  refine ⟨_, hexec, startBoot_jtag, startBoot_resetN, fun htripped hlocked hinReset himage => ?_⟩
  refine startBoot_begins rfl htripped hpower hlocked hinReset ?_
  rwa [chooseImage_comm, Option.isSome_map]

end Sys2Proof.Claims
end

section
/-! PROOFS. What leaves the reset state (`State.rst`) as it is: every shared operation but those of a cold reset, a boot, a node recovery, a
port's reset and the detectors (R572 to R586, R622). The lemma `f_rst` says so of the operation `f`; an operation that runs an action keeps the
reset state where the action keeps it. -/
namespace Sys2Proof.Machine

-- With this option proofs are elaborated in turn. These are very many and short: side by side they wait for one another, each in a thread with a
-- stack of its own, and the memory that the check allows has no room for so many stacks.
set_option deprecated.oldSectionVars true

variable {s t : State}

/-- `t` has the reset state of `s`. -/
def KeepsRst (s t : State) : Prop := t.rst = s.rst

@[simp] theorem keepsRst_iff : KeepsRst s t ↔ t.rst = s.rst := Iff.rfl
theorem KeepsRst.rst_eq (h : KeepsRst s t) : t.rst = s.rst := h
@[simp] theorem rst_ite (c : Prop) [Decidable c] (s t : State) : (if c then s else t).rst = if c then s.rst else t.rst := apply_ite State.rst c s t
@[simp] theorem snd_rst_ite {α : Type} (c : Prop) [Decidable c] (s t : α × State) :
    (if c then s else t).2.rst = if c then s.2.rst else t.2.rst := by split <;> rfl

@[simp] theorem each_rst {α : Type} {l : List α} {f : α → State → State} (hf : ∀ a t, KeepsRst t (f a t)) : (each l f s).rst = s.rst :=
  each_induct (P := fun t => t.rst = s.rst) rfl fun a _ t ht => (hf a t).rst_eq.trans ht

theorem foldl_snd_rst {α β : Type} {l : List α} {f : β × State → α → β × State} {a : β × State} (hf : ∀ a x, KeepsRst a.2 (f a x).2) :
    (l.foldl f a).2.rst = a.2.rst := by
  induction l generalizing a with
  | nil => rfl
  | cons x l ih => exact (ih (a := f a x)).trans (hf a x)

/-! ### Shared operations -/

@[simp] theorem sendFrame_rst (e) : (sendFrame e s).rst = s.rst := rfl
@[simp] theorem assertSource_rst (src) : (assertSource src s).rst = s.rst := rfl
@[simp] theorem deassertSource_rst (src) : (deassertSource src s).rst = s.rst := rfl
@[simp] theorem raise_rst (code sev part detail) : (raise code sev part detail s).rst = s.rst := by simp [raise]
@[simp] theorem countError_rst (structure_ cls) : (countError structure_ cls s).rst = s.rst := rfl
@[simp] theorem contained_rst (structure_ cls unit addr path requester part) :
    (contained structure_ cls unit addr path requester part s).rst = s.rst := by simp [contained]

@[simp] theorem corrected_rst (structure_ unit) : (corrected structure_ unit s).rst = s.rst := by
  simp only [corrected]
  repeat' split
  all_goals simp

@[simp] theorem security_rst (part detail) : (security part detail s).rst = s.rst := by simp [security]
@[simp] theorem sendVector_rst (k vec) : (sendVector k vec s).rst = s.rst := rfl
@[simp] theorem fireVector_rst (k vec) : (fireVector k vec s).rst = s.rst := by simp [fireVector]
@[simp] theorem releaseGroup_rst (k g) : (releaseGroup k g s).rst = s.rst := each_rst fun _ _ => by simp
@[simp] theorem fireContext_rst (ctx) : (fireContext ctx s).rst = s.rst := by unfold fireContext; split <;> simp
@[simp] theorem countCompletion_rst (ctx) : (countCompletion ctx s).rst = s.rst := by unfold countCompletion; split <;> simp

@[simp] theorem acceptOverdue_rst (sid) : (acceptOverdue sid s).rst = s.rst := by
  unfold acceptOverdue
  split <;> simp

@[simp] theorem finish_rst (q key status body) : (finish q key status body s).rst = s.rst := by
  simp only [finish]
  repeat' split
  all_goals simp

@[simp] theorem reply_rst (q status total body) : (reply q status total body s).rst = s.rst := by unfold reply; split <;> rfl
@[simp] theorem refuse_rst (q status) : (refuse q status s).rst = s.rst := by unfold refuse; split <;> rfl

@[simp] theorem ask_rst {q roles key changes act} (h : ∀ x t, KeepsRst t (act x t)) : (ask q roles key changes act s).rst = s.rst :=
  ask_keeps (P := fun t => t.rst = s.rst) rfl (fun _ _ hk ht => by obtain ⟨_, _, rfl⟩ := hk; exact ht) fun _ _ ht => (h _ _).rst_eq.trans ht

@[simp] theorem storeLater_rst (q key sel value blob) : (storeLater q key sel value blob s).rst = s.rst := rfl

/-! ### Routing, schedulers and transaction tags -/

@[simp] theorem setLink_rst (port l) : (setLink port l s).rst = s.rst := rfl
@[simp] theorem setClass_rst (k c w) : (setClass k c w s).rst = s.rst := rfl
@[simp] theorem enqueue_rst (k c i) : (enqueue k c i s).rst = s.rst := rfl
@[simp] theorem setMarStats_rst (f) : (setMarStats f s).rst = s.rst := rfl
@[simp] theorem countMalformed_rst : (countMalformed s).rst = s.rst := rfl
@[simp] theorem countStray_rst : (countStray s).rst = s.rst := rfl
@[simp] theorem eject_rst (p) : (eject p s).rst = s.rst := rfl

@[simp] theorem enterTransit_rst (t) : (enterTransit t s).rst = s.rst := by
  simp only [enterTransit]
  repeat' split
  all_goals simp

@[simp] theorem toTransit_rst (p cls atWpt expires) : (toTransit p cls atWpt expires s).rst = s.rst := by simp [toTransit]
@[simp] theorem refillTransit_rst : (refillTransit s).rst = s.rst := by simp [refillTransit]
@[simp] theorem toSpill_rst (p cls) : (toSpill p cls s).rst = s.rst := by simp [toSpill]
@[simp] theorem sendOn_rst (port p cls enters gen) : (sendOn port p cls enters gen s).rst = s.rst := by simp [sendOn]
@[simp] theorem takeLeg_rst (old p) : (takeLeg old p s).rst = s.rst := by simp [takeLeg]
@[simp] theorem freeLeg_rst (p) : (freeLeg p s).rst = s.rst := by simp [freeLeg]
@[simp] theorem dropUnreachable_rst (p) : (dropUnreachable p s).rst = s.rst := rfl
@[simp] theorem doHop_rst (h p cls gen) : (doHop h p cls gen s).rst = s.rst := by unfold doHop; split <;> simp
@[simp] theorem countInjected_rst : (countInjected s).rst = s.rst := rfl

theorem routeWith_rst {send p cls arr here atWpt gen} (h : ∀ p c t, KeepsRst t (send p c t)) :
    (routeWith send p cls arr here atWpt gen s).rst = s.rst := by
  simp [routeWith, (h _ _ _).rst_eq]

theorem leaveWith_rst {send t} (h : ∀ p c t, KeepsRst t (send p c t)) : (leaveWith send t s).rst = s.rst := by
  simp [leaveWith, (h _ _ _).rst_eq, routeWith_rst h]

@[simp] theorem injectBehind_rst (n p cls) : (injectBehind n p cls s).rst = s.rst := by
  induction n generalizing p cls s with
  | zero => simp [injectBehind]
  | succ n ih =>
    unfold injectBehind
    rw [doHop_rst, each_rst fun _ _ => leaveWith_rst fun _ _ _ => ih _ _, countInjected_rst]

@[simp] theorem routeFrom_rst (p cls arr here atWpt gen) : (routeFrom p cls arr here atWpt gen s).rst = s.rst :=
  routeWith_rst fun _ _ _ => injectBehind_rst _ _ _

@[simp] theorem leaveTransit_rst (t) : (leaveTransit t s).rst = s.rst :=
  leaveWith_rst fun _ _ _ => injectBehind_rst _ _ _

@[simp] theorem transitFirst_rst (port c) : (transitFirst port c s).rst = s.rst := by simp [transitFirst]
@[simp] theorem inject_rst (p cls) : (inject p cls s).rst = s.rst := by simp [inject]
@[simp] theorem injectGen_rst (p cls) : (injectGen p cls s).rst = s.rst := by simp [injectGen]
@[simp] theorem injectOn_rst (port p cls enters) : (injectOn port p cls enters s).rst = s.rst := by simp [injectOn]
@[simp] theorem sendBypass_rst (opcode dest tag pga aux payload) : (sendBypass opcode dest tag pga aux payload s).rst = s.rst := by simp [sendBypass]
@[simp] theorem respondTo_rst (p status payload aux) : (respondTo p status payload aux s).rst = s.rst := by simp [respondTo]
@[simp] theorem openTag_rst (t p use npk cls gen) : (openTag t p use npk cls gen s).rst = s.rst := by simp [openTag]
@[simp] theorem tagStall_rst (w) : (tagStall w s).rst = s.rst := rfl
@[simp] theorem request_rst (p use npk cls gen) : (request p use npk cls gen s).rst = s.rst := by unfold request; split <;> simp
@[simp] theorem freeTagNow_rst (t) : (freeTagNow t s).rst = s.rst := rfl

/-! ### A home's answers -/

@[simp] theorem logAdd_rst (k log body) : (logAdd k log body s).rst = s.rst := by simp [logAdd]
@[simp] theorem accessRecord_rst (k lda entry op cause) : (accessRecord k lda entry op cause s).rst = s.rst := by simp [accessRecord]

@[simp] theorem countDown_rst (bind) : (countDown bind s).rst = s.rst := by
  unfold countDown
  repeat' split
  all_goals simp

@[simp] theorem sendHost_rst (h r) : (sendHost h r s).rst = s.rst := by unfold sendHost; split <;> simp
@[simp] theorem hostAnswer_rst (id r) : (hostAnswer id r s).rst = s.rst := by unfold hostAnswer; split <;> simp
@[simp] theorem rekeyUnitDone_rst (p r) : (rekeyUnitDone p r s).rst = s.rst := by simp [rekeyUnitDone]

@[simp] theorem deliver_rst (ref r) : (deliver ref r s).rst = s.rst := by
  unfold deliver
  repeat' split
  all_goals simp

@[simp] theorem useTaken_rst (p) : (useTaken p s).rst = s.rst := rfl
@[simp] theorem sendRsp_rst (dest tag pga part wgen twin isData cls r) :
    (sendRsp dest tag pga part wgen twin isData cls r s).rst = s.rst := by simp [sendRsp]
@[simp] theorem setAccept_rst (src tag v) : (setAccept src tag v s).rst = s.rst := rfl
@[simp] theorem acceptClosed_rst (src tag) : (acceptClosed src tag s).rst = s.rst := rfl

@[simp] theorem answer_rst (r rsp) : (answer r rsp s).rst = s.rst := by
  unfold answer
  repeat' split
  all_goals simp

/-! ### Order stamps and change maps -/

@[simp] theorem twinState_rst (entry t st) : (twinState entry t st s).rst = s.rst := rfl
@[simp] theorem twnCount_rst (i n) : (twnCount i n s).rst = s.rst := rfl
@[simp] theorem pairSend_rst (p cls) : (pairSend p cls s).rst = s.rst := by unfold pairSend; split <;> simp
@[simp] theorem stampSend_rst (p cls) : (stampSend p cls s).rst = s.rst := by simp [stampSend]
@[simp] theorem markUnits_rst (entry lines) : (markUnits entry lines s).rst = s.rst := by unfold markUnits; split <;> rfl

@[simp] theorem noteSince_rst (entry lines) : (noteSince entry lines s).rst = s.rst := by
  unfold noteSince
  repeat' split
  all_goals simp

@[simp] theorem stampEvent_rst (entry kind src tag both lines writes) : (stampEvent entry kind src tag both lines writes s).rst = s.rst := by
  simp only [stampEvent]
  repeat' split
  all_goals simp

/-! ### DRAM lines -/

@[simp] theorem hbmCount_rst (k i n) : (hbmCount k i n s).rst = s.rst := rfl
@[simp] theorem openLine_rst (l) : (openLine l s).rst = s.rst := rfl
@[simp] theorem openLines_rst (k lo stat want) : (openLines k lo stat want s).rst = s.rst := by simp [openLines]
@[simp] theorem trainLevel_rst (stack k) : (trainLevel stack k s).rst = s.rst := rfl
@[simp] theorem markDevice_rst (k pc dev) : (markDevice k pc dev s).rst = s.rst := by simp [markDevice]
@[simp] theorem countSymbol_rst (k pc dev counted) : (countSymbol k pc dev counted s).rst = s.rst := by simp [countSymbol]
@[simp] theorem countCorrections_rst (l d counted) : (countCorrections l d counted s).rst = s.rst := by simp [countCorrections]
@[simp] theorem putByte_rst (a b) : (putByte a b s).rst = s.rst := rfl

@[simp] theorem putBytes_rst (a b) : (putBytes a b s).rst = s.rst := by
  induction b generalizing s a with
  | nil => rfl
  | cons _ b ih =>
    simp [putBytes, ih]

@[simp] theorem setMeta_rst (l m) : (setMeta l m s).rst = s.rst := rfl
@[simp] theorem readLine_rst (l part dpaLine) : (readLine l part dpaLine s).2.rst = s.rst := by simp [readLine]
@[simp] theorem reportLine_rst (r l dpaLine part path requester) : (reportLine r l dpaLine part path requester s).rst = s.rst := by simp [reportLine]
@[simp] theorem writeLine_rst (l part dpaLine data poison) : (writeLine l part dpaLine data poison s).rst = s.rst := by simp [writeLine]
@[simp] theorem mergeLine_rst (l part dpaLine data be poison requester) :
    (mergeLine l part dpaLine data be poison requester s).rst = s.rst := by simp [mergeLine]
@[simp] theorem clearLine_rst (l) : (clearLine l s).rst = s.rst := by simp [clearLine]
@[simp] theorem poisonLine_rst (l part dpaLine) : (poisonLine l part dpaLine s).rst = s.rst := by simp [poisonLine]
@[simp] theorem writeCritical_rst (w value) : (writeCritical w value s).rst = s.rst := by simp [writeCritical]
@[simp] theorem noteCritical_rst (key value) : (noteCritical key value s).rst = s.rst := by unfold noteCritical; split <;> simp
@[simp] theorem writeGeneration_rst (g) : (writeGeneration g s).rst = s.rst := rfl
@[simp] theorem initCritical_rst : (initCritical s).rst = s.rst := by simp [initCritical]

@[simp] theorem reloadCritical_rst : (reloadCritical s).2.rst = s.rst :=
  foldl_snd_rst fun _ _ => by split <;> rfl

/-! ### The Storekeeper's shared operations -/

@[simp] theorem setGroup_rst (g x) : (setGroup g x s).rst = s.rst := rfl
@[simp] theorem setMap_rst (b m) : (setMap b m s).rst = s.rst := rfl
@[simp] theorem stkCount_rst (i n) : (stkCount i n s).rst = s.rst := rfl
@[simp] theorem compareFree_rst : (compareFree s).rst = s.rst := by simp [compareFree]
@[simp] theorem takeSystem_rst (g) : (takeSystem g s).rst = s.rst := rfl

@[simp] theorem takePairs_rst (n) : (takePairs n s).2.rst = s.rst := by
  induction n generalizing s with
  | zero => rfl
  | succ n ih =>
    simp only [takePairs]
    split <;> simp [ih]

@[simp] theorem programRecord_rst (seq) : (programRecord seq s).rst = s.rst := by unfold programRecord; split <;> rfl
@[simp] theorem journalPair_rst : (journalPair s).rst = s.rst := by simp [journalPair]
@[simp] theorem addRecord_rst (j) : (addRecord j s).rst = s.rst := by simp [addRecord]
@[simp] theorem markPlanes_rst (g mask) : (markPlanes g mask s).rst = s.rst := rfl
@[simp] theorem openGroup_rst (lun kind) : (openGroup lun kind s).rst = s.rst := by unfold openGroup; split <;> simp
@[simp] theorem keepOpen_rst (lun) : (keepOpen lun s).rst = s.rst := by simp [keepOpen]
@[simp] theorem keepAll_rst : (keepAll s).rst = s.rst := by simp [keepAll]
@[simp] theorem checkFree_rst : (checkFree s).rst = s.rst := by simp [checkFree]
@[simp] theorem checkWorn_rst : (checkWorn s).rst = s.rst := by simp [checkWorn]
@[simp] theorem retireGroup_rst (g cause) : (retireGroup g cause s).rst = s.rst := by simp [retireGroup]
@[simp] theorem creditSpan_rst (lun d own) : (creditSpan lun d own s).rst = s.rst := rfl
@[simp] theorem creditTime_rst (lun o) : (creditTime lun o s).rst = s.rst := rfl
@[simp] theorem startProgram_rst (lun n p) : (startProgram lun n p s).rst = s.rst := rfl
@[simp] theorem startErase_rst (lun g) : (startErase lun g s).rst = s.rst := rfl
@[simp] theorem readNow_rst (lun b) : (readNow lun b s).rst = s.rst := rfl
@[simp] theorem readWaiting_rst (lun p) : (readWaiting lun p s).rst = s.rst := each_rst fun _ _ => by simp
@[simp] theorem trySuspend_rst (lun) : (trySuspend lun s).rst = s.rst := by unfold trySuspend; split <;> simp

@[simp] theorem serveLun_rst (lun) : (serveLun lun s).rst = s.rst := by
  simp only [serveLun]
  repeat' split
  all_goals simp

@[simp] theorem lunEnded_rst (lun) : (lunEnded lun s).rst = s.rst := by unfold lunEnded; split <;> simp
@[simp] theorem readUnit_rst (b p) : (readUnit b p s).rst = s.rst := by simp [readUnit]
@[simp] theorem placeUnit_rst (lun g u src) : (placeUnit lun g u src s).rst = s.rst := by simp [placeUnit]
@[simp] theorem sweptGroups_rst (gone) : (sweptGroups gone s).rst = s.rst := rfl
@[simp] theorem refreshLater_rst (g) : (refreshLater g s).rst = s.rst := by simp [refreshLater]
@[simp] theorem closeIfFull_rst (g) : (closeIfFull g s).rst = s.rst := by simp [closeIfFull]

@[simp] theorem countRead_rst (p r) : (countRead p r s).rst = s.rst := by
  unfold countRead
  cases hgroup : tfind s.stk.groups (unitGroup s p) with
  | none => simp [hgroup]
  | some x => simp [hgroup]

@[simp] theorem clearUnits_rst (first count waits arg) : (clearUnits first count waits arg s).rst = s.rst := by simp [clearUnits]

/-! ### The DRAM cache -/

@[simp] theorem carCount_rst (i n) : (carCount i n s).rst = s.rst := rfl
@[simp] theorem lookTag_rst (b) : (lookTag b s).rst = s.rst := by simp [lookTag]

@[simp] theorem touchLine_rst (dl isRead) : (touchLine dl isRead s).rst = s.rst := by
  unfold touchLine
  repeat' split
  all_goals simp

@[simp] theorem dirtyLine_rst (dl) : (dirtyLine dl s).rst = s.rst := by
  unfold dirtyLine
  repeat' split
  all_goals simp

@[simp] theorem readDpa_rst (dl part) : (readDpa dl part s).2.rst = s.rst := by unfold readDpa; split <;> simp
@[simp] theorem writeDpa_rst (dl part data poison) : (writeDpa dl part data poison s).rst = s.rst := by unfold writeDpa; split <;> simp
@[simp] theorem mergePart_rst (dl part data be poison requester) :
    (mergePart dl part data be poison requester s).rst = s.rst := by unfold mergePart; split <;> simp
@[simp] theorem mergeDpa_rst (dl part data be poison requester) : (mergeDpa dl part data be poison requester s).rst = s.rst := by simp [mergeDpa]
@[simp] theorem poisonDpa_rst (dl part) : (poisonDpa dl part s).rst = s.rst := by unfold poisonDpa; split <;> simp
@[simp] theorem poisonCounted_rst (dl part) : (poisonCounted dl part s).rst = s.rst := by simp [poisonCounted]

@[simp] theorem clearPoisonDpa_rst (dl) : (clearPoisonDpa dl s).rst = s.rst := by
  simp only [clearPoisonDpa]
  repeat' split
  all_goals simp

@[simp] theorem reportDpa_rst (r dl part path requester) : (reportDpa r dl part path requester s).rst = s.rst := by unfold reportDpa; split <;> simp
@[simp] theorem wipeFrame_rst (b f) : (wipeFrame b f s).rst = s.rst := rfl
@[simp] theorem freeFrame_rst (b) : (freeFrame b s).rst = s.rst := by unfold freeFrame; split <;> rfl
@[simp] theorem dropBlock_rst (b) : (dropBlock b s).rst = s.rst := by simp [dropBlock]
@[simp] theorem takeFrame_rst (b part cls) : (takeFrame b part cls s).rst = s.rst := rfl
@[simp] theorem readFrame_rst (b f) : (readFrame b f s).rst = s.rst := by simp [readFrame]
@[simp] theorem cannotPlace_rst (b) : (cannotPlace b s).rst = s.rst := by unfold cannotPlace; split <;> simp
@[simp] theorem launchWriteBack_rst (b place) : (launchWriteBack b place s).rst = s.rst := by unfold launchWriteBack; split <;> simp

@[simp] theorem startWriteBack_rst (b) : (startWriteBack b s).rst = s.rst := by
  simp only [startWriteBack]
  repeat' split
  all_goals simp

@[simp] theorem pumpWriteBacks_rst (fuel) : (pumpWriteBacks fuel s).rst = s.rst := by
  induction fuel generalizing s with
  | zero => rfl
  | succ fuel ih =>
    simp only [pumpWriteBacks]
    repeat' split
    all_goals simp [ih]

@[simp] theorem commitsAfter_rst (b) : (commitsAfter b s).rst = s.rst := by simp [commitsAfter]
@[simp] theorem writeBackEnds_rst (b) : (writeBackEnds b s).rst = s.rst := by unfold writeBackEnds; split <;> simp
@[simp] theorem fillLines_rst (b f data poison) : (fillLines b f data poison s).rst = s.rst := by unfold fillLines; split <;> rfl
@[simp] theorem rekeyFailed_rst (p) : (rekeyFailed p s).rst = s.rst := rfl
@[simp] theorem fillEnds_rst (b data poison err) : (fillEnds b data poison err s).rst = s.rst := by unfold fillEnds; split <;> simp
@[simp] theorem pumpLanded_rst : (pumpLanded s).rst = s.rst := by simp [pumpLanded]
@[simp] theorem fillFails_rst (b) : (fillFails b s).rst = s.rst := by simp [fillFails]
@[simp] theorem requestFill_rst (b part cls) : (requestFill b part cls s).rst = s.rst := by simp [requestFill]
@[simp] theorem startFill_rst (b part cls) : (startFill b part cls s).rst = s.rst := by simp [startFill]
@[simp] theorem markStaged_rst (r) : (markStaged r s).rst = s.rst := by unfold markStaged; split <;> rfl

/-! ### The Ledger -/

@[simp] theorem homeError_rst (r status) : (homeError r status s).rst = s.rst := by simp [homeError]

@[simp] theorem growChain_rst (k n c) : (growChain k n c s).2.rst = s.rst := by
  induction n generalizing s c with
  | zero => rfl
  | succ n ih =>
    simp [growChain, ih]

@[simp] theorem setEntry_rst (line e) : (setEntry line e s).rst = s.rst := by simp [setEntry]
@[simp] theorem touchEntries_rst (lines) : (touchEntries lines s).rst = s.rst := rfl
@[simp] theorem recordHolder_rst (line h view owned) : (recordHolder line h view owned s).rst = s.rst := by simp [recordHolder]
@[simp] theorem removeHolder_rst (line h) : (removeHolder line h s).rst = s.rst := by unfold removeHolder; split <;> simp
@[simp] theorem setSlice_rst (k x) : (setSlice k x s).rst = s.rst := rfl
@[simp] theorem freshId_rst : (freshId s).2.rst = s.rst := rfl
@[simp] theorem sendSnoop_rst (port ld kind pga tag lines) : (sendSnoop port ld kind pga tag lines s).rst = s.rst := rfl
@[simp] theorem launchRecall_rst (rid) : (launchRecall rid s).rst = s.rst := by unfold launchRecall; split <;> simp
@[simp] theorem pumpSnoops_rst : (pumpSnoops s).rst = s.rst := by simp [pumpSnoops]

@[simp] theorem recallHolder_rst (owner line kind stop h) : (recallHolder owner line kind stop h s).2.rst = s.rst :=
  foldl_snd_rst fun _ _ => rfl

@[simp] theorem recallThose_rst (owner kind stop who) : (recallThose owner kind stop who s).2.rst = s.rst := by
  have hfold (l : List (Nat × List (Nat × Nat))) (a : List Nat × State) : (l.foldl (fun acc w => w.2.foldl (fun acc h =>
      let r := recallHolder owner w.1 kind stop h acc.2
      (acc.1 ++ r.1, r.2)) acc) a).2.rst = a.2.rst :=
    foldl_snd_rst fun _ _ => foldl_snd_rst fun _ _ => recallHolder_rst _ _ _ _ _
  simp only [recallThose, rst_ite, pumpSnoops_rst, hfold, ite_self]

@[simp] theorem recallHolders_rst (owner line kind stop hs) : (recallHolders owner line kind stop hs s).2.rst = s.rst := by simp [recallHolders]
@[simp] theorem recallLines_rst (owner kind stop lines) : (recallLines owner kind stop lines s).2.rst = s.rst := by simp [recallLines]
@[simp] theorem applyAnswer_rst (line h view ans) : (applyAnswer line h view ans s).rst = s.rst := by unfold applyAnswer; split <;> simp
@[simp] theorem endRecall_rst (rid ans) : (endRecall rid ans s).rst = s.rst := by unfold endRecall; split <;> simp
@[simp] theorem timeoutRecall_rst (rid) : (timeoutRecall rid s).rst = s.rst := by unfold timeoutRecall; split <;> simp

@[simp] theorem readSpan_rst (dpa n part path requester) : (readSpan dpa n part path requester s).2.rst = s.rst :=
  foldl_snd_rst fun _ _ => by simp

@[simp] theorem writeSpan_rst (dpa part requester data poison) : (writeSpan dpa part requester data poison s).rst = s.rst := by simp [writeSpan]
@[simp] theorem readShown_rst (h view dpa part path requester) : (readShown h view dpa part path requester s).2.rst = s.rst := by simp [readShown]
@[simp] theorem writeParts_rst (dpa part requester data be poison) :
    (writeParts dpa part requester data be poison s).rst = s.rst := by simp [writeParts]
@[simp] theorem writeShown_rst (h view dpa part requester data be poison) :
    (writeShown h view dpa part requester data be poison s).rst = s.rst := by simp [writeShown]

@[simp] theorem readShownLines_rst (h view part path requester n dpa) : (readShownLines h view part path requester n dpa s).2.rst = s.rst := by
  induction n generalizing s dpa with
  | zero => rfl
  | succ n ih =>
    simp [readShownLines, ih]

@[simp] theorem writeShownLines_rst (h view part requester poison be n dpa data) :
    (writeShownLines h view part requester poison be n dpa data s).rst = s.rst := by
  induction n generalizing s be dpa data with
  | zero => rfl
  | succ n ih =>
    simp [writeShownLines, ih]

/-! ### Accumulating windows -/

@[simp] theorem winCount_rst (i n) : (winCount i n s).rst = s.rst := rfl
@[simp] theorem classify_rst (src seq) : (classify src seq s).2.rst = s.rst := by simp [classify]
@[simp] theorem classifyFollower_rst (src seq) : (classifyFollower src seq s).2.rst = s.rst := by simp [classifyFollower]
@[simp] theorem windowReadLine_rst (entry h off) : (windowReadLine entry h off s).2.rst = s.rst := by simp [windowReadLine]

@[simp] theorem windowRead_rst (entry h n off) : (windowRead entry h n off s).2.rst = s.rst := by
  induction n generalizing s off with
  | zero => rfl
  | succ n ih =>
    simp [windowRead, ih]

@[simp] theorem completeWindow_rst (entry follower) : (completeWindow entry follower s).rst = s.rst := by simp [completeWindow]

@[simp] theorem applyContribution_rst (entry h off r follower) : (applyContribution entry h off r follower s).2.rst = s.rst := by
  unfold applyContribution
  cases helems : enabledElems (winOf s entry).inFmt r.be with
  | none => simp [helems]
  | some en => simp [helems]

@[simp] theorem contribute_rst (entry h r follower) : (contribute entry h r follower s).2.rst = s.rst := by simp [contribute]

@[simp] theorem windowAccess_rst (entry h r follower) : (windowAccess entry h r follower s).2.rst = s.rst := by
  simp only [windowAccess]
  repeat' split
  all_goals simp

/-! ### A home's transactions -/

@[simp] theorem sendRecalls_rst (id t) : (sendRecalls id t s).2.rst = s.rst := by
  refine foldl_snd_rst fun _ _ => ?_
  split <;> simp

@[simp] theorem recallVictim_rst (id t) : (recallVictim id t s).2.rst = s.rst := by
  unfold recallVictim
  repeat' split
  all_goals simp

@[simp] theorem learnMiss_rst (key b) : (learnMiss key b s).rst = s.rst := rfl

@[simp] theorem makeRoom_rst (b) : (makeRoom b s).rst = s.rst := by
  unfold makeRoom
  repeat' split
  all_goals simp

@[simp] theorem takeHistory_rst (b part) : (takeHistory b part s).rst = s.rst := by simp [takeHistory]

@[simp] theorem historyFill_rst (b) : (historyFill b s).rst = s.rst := by
  simp only [historyFill]
  repeat' split
  all_goals simp

@[simp] theorem pumpHistory_rst : (pumpHistory s).rst = s.rst := by
  unfold pumpHistory
  split
  · rfl
  · split
    · rfl
    · exact each_rst fun _ _ => by split <;> simp

@[simp] theorem needFrame_rst (b r) : (needFrame b r s).rst = s.rst := by simp [needFrame]
@[simp] theorem homeOperation_rst (h r) : (homeOperation h r s).2.rst = s.rst := by simp [homeOperation]

@[simp] theorem recordLines_rst (t) : (recordLines t s).rst = s.rst := by
  simp only [recordLines]
  repeat' split
  all_goals simp

@[simp] theorem noteWrite_rst (entry h lines) : (noteWrite entry h lines s).rst = s.rst := by
  simp only [noteWrite]
  repeat' split
  all_goals simp

@[simp] theorem copyToFollower_rst (entry r) : (copyToFollower entry r s).rst = s.rst := by unfold copyToFollower; split <;> simp

@[simp] theorem unitLines_rst (part ls) : (unitLines part ls s).2.rst = s.rst := by
  induction ls generalizing s with
  | nil => rfl
  | cons _ ls ih =>
    simp [unitLines, ih]

@[simp] theorem writeCopied_rst (part mask ls b) : (writeCopied part mask ls b s).rst = s.rst := by
  induction ls generalizing s b with
  | nil => rfl
  | cons _ ls ih =>
    simp [writeCopied, ih]

@[simp] theorem applyRequest_rst (entry h t) : (applyRequest entry h t s).2.rst = s.rst := by simp [applyRequest]
@[simp] theorem unblock_rst (id) : (unblock id s).2.rst = s.rst := rfl
@[simp] theorem notePeakOpen_rst (k) : (notePeakOpen k s).rst = s.rst := rfl
@[simp] theorem blockNext_rst (id t l) : (blockNext id t l s).2.rst = s.rst := by simp [blockNext]
@[simp] theorem countAccess_rst (lines) : (countAccess lines s).rst = s.rst := by simp [countAccess]
@[simp] theorem restartTxn_rst (id t) : (restartTxn id t s).rst = s.rst := rfl

@[simp] theorem stepTxn_rst (id) : (stepTxn id s).2.rst = s.rst := by
  simp only [stepTxn]
  repeat' split
  all_goals simp

@[simp] theorem runTxns_rst (fuel ids) : (runTxns fuel ids s).rst = s.rst := by
  induction fuel generalizing s ids with
  | zero => rfl
  | succ fuel ih => cases ids <;> simp [runTxns, ih]

@[simp] theorem passTxns_rst (id t) : (passTxns id t s).rst = s.rst := by simp [passTxns]

@[simp] theorem pumpFills_rst (fuel ids) : (pumpFills fuel ids s).rst = s.rst := by
  induction fuel generalizing s ids with
  | zero => rfl
  | succ fuel ih =>
    simp only [pumpFills]
    split <;> simp [ih]

@[simp] theorem wakeFills_rst : (wakeFills s).rst = s.rst := by simp [wakeFills]
@[simp] theorem wakeVictims_rst : (wakeVictims s).rst = s.rst := by simp [wakeVictims]
@[simp] theorem wakeLines_rst (lines) : (wakeLines lines s).rst = s.rst := by simp [wakeLines]
@[simp] theorem txnRecallEnded_rst (id rid) : (txnRecallEnded id rid s).rst = s.rst := by unfold txnRecallEnded; split <;> simp

@[simp] theorem releaseConflicts_rst (port ld pga) : (releaseConflicts port ld pga s).rst = s.rst := by
  simp only [releaseConflicts]
  split <;> simp

@[simp] theorem answerProbes_rst (holder pga) : (answerProbes holder pga s).rst = s.rst := by
  refine each_rst fun _ _ => ?_
  dsimp only
  repeat' split
  all_goals simp

@[simp] theorem meetConflicts_rst (r) : (meetConflicts r s).rst = s.rst := by unfold meetConflicts; split <;> simp
@[simp] theorem denyRequest_rst (r status) : (denyRequest r status s).rst = s.rst := by unfold denyRequest; split <;> simp
@[simp] theorem denyHere_rst (entry r) : (denyHere entry r s).rst = s.rst := by simp [denyHere]
@[simp] theorem noteWriteBack_rst (lines) : (noteWriteBack lines s).rst = s.rst := rfl
@[simp] theorem cacheEntry_rst (line) : (cacheEntry line s).rst = s.rst := by simp [cacheEntry]
@[simp] theorem lookUp_rst (lines) : (lookUp lines s).rst = s.rst := by simp [lookUp]
@[simp] theorem openTxn_rst (r lines) : (openTxn r lines s).rst = s.rst := by simp [openTxn]
@[simp] theorem serveOwner_rst (entry h r lines) : (serveOwner entry h r lines s).rst = s.rst := by simp [serveOwner]

@[simp] theorem serveRequest_rst (entry h r) : (serveRequest entry h r s).rst = s.rst := by
  simp only [serveRequest]
  repeat' split
  all_goals simp

@[simp] theorem forwardRequest_rst (h r) : (forwardRequest h r s).rst = s.rst := by unfold forwardRequest; split <;> simp

@[simp] theorem homeRequest_rst (r) : (homeRequest r s).rst = s.rst := by
  unfold homeRequest
  repeat' split
  all_goals simp

@[simp] theorem takeWait_rst (w) : (takeWait w s).rst = s.rst := rfl

@[simp] theorem pumpWaits_rst (fuel) : (pumpWaits fuel s).rst = s.rst := by
  induction fuel generalizing s with
  | zero => rfl
  | succ fuel ih =>
    simp only [pumpWaits]
    split <;> simp [ih]

@[simp] theorem returnCredits_rst : (returnCredits s).rst = s.rst := by simp [returnCredits]
@[simp] theorem pumpRing_rst : (pumpRing s).rst = s.rst := by simp [pumpRing]
@[simp] theorem arriveRequest_rst (r) : (arriveRequest r s).rst = s.rst := by simp [arriveRequest]

@[simp] theorem serveOwnerWrites_rst (line holder) : (serveOwnerWrites line holder s).rst = s.rst := by
  refine each_rst fun _ _ => ?_
  repeat' split
  all_goals simp

@[simp] theorem evictRecallEnded_rst (b) : (evictRecallEnded b s).rst = s.rst := by
  unfold evictRecallEnded
  repeat' split
  all_goals simp

/-! ### Requests on their way to a home -/

@[simp] theorem launch_rst (t p use npk cls gen) : (launch t p use npk cls gen s).rst = s.rst := by simp [launch]
@[simp] theorem originate_rst (p use npk cls gen) : (originate p use npk cls gen s).rst = s.rst := by unfold originate; split <;> simp
@[simp] theorem sendMem_rst (r pga partner gen) : (sendMem r pga partner gen s).rst = s.rst := by unfold sendMem; split <;> simp
@[simp] theorem engineRead_rst (ref pga lines part view partner) : (engineRead ref pga lines part view partner s).rst = s.rst := by simp [engineRead]
@[simp] theorem engineWrite_rst (ref pga lines part view data be partner) :
    (engineWrite ref pga lines part view data be partner s).rst = s.rst := by simp [engineWrite]

@[simp] theorem accepting_rst {p act} (h : ∀ t, KeepsRst t (act t)) : (accepting p act s).rst = s.rst := by
  unfold accepting
  split
  · simp
  · split <;> simp [(h _).rst_eq]

/-! ### Tiering -/

@[simp] theorem drainDirty_rst : (drainDirty s).rst = s.rst := by simp [drainDirty]
@[simp] theorem setCommit_rst (id c) : (setCommit id c s).rst = s.rst := rfl
@[simp] theorem commitPoint_rst (id) : (commitPoint id s).rst = s.rst := by unfold commitPoint; split <;> simp
@[simp] theorem startCommit_rst (c recallOp) : (startCommit c recallOp s).rst = s.rst := by simp [startCommit]
@[simp] theorem commitRecallEnded_rst (id rid) : (commitRecallEnded id rid s).rst = s.rst := by unfold commitRecallEnded; split <;> simp

@[simp] theorem answerCommit_rst (c) : (answerCommit c s).rst = s.rst := by
  unfold answerCommit
  repeat' split
  all_goals simp

@[simp] theorem haltStream_rst (n cause) : (haltStream n cause s).rst = s.rst := by unfold haltStream; split <;> simp
@[simp] theorem fetchPiece_rst (n x) : (fetchPiece n x s).rst = s.rst := by simp [fetchPiece]
@[simp] theorem fetchHeader_rst (n x) : (fetchHeader n x s).rst = s.rst := by simp [fetchHeader]
@[simp] theorem dueStep_rst (n) : (dueStep n s).rst = s.rst := by unfold dueStep; split <;> simp

@[simp] theorem stageAtHome_rst (r) : (stageAtHome r s).2.rst = s.rst := by
  unfold stageAtHome
  repeat' split
  all_goals simp

@[simp] theorem settleStage_rst (n block line status) : (settleStage n block line status s).rst = s.rst := by
  simp only [settleStage]
  repeat' split
  all_goals simp

@[simp] theorem sendStage_rst (n block line part) : (sendStage n block line part s).rst = s.rst := by
  simp only [sendStage]
  repeat' split
  all_goals simp

theorem stageOne_rst {n x t} (h : stageOne n x s = some t) : t.rst = s.rst := by
  simp only [stageOne] at h
  split at h
  · cases h
  · rw [← Option.some.inj (Option.ite_none_left_eq_some.mp h).2]
    simp

@[simp] theorem pumpStream_rst (fuel n) : (pumpStream fuel n s).rst = s.rst := by
  induction fuel generalizing s with
  | zero => rfl
  | succ fuel ih =>
    unfold pumpStream
    split
    · rfl
    · next x _ =>
      cases hstage : stageOne n x s with
      | none => simp [ih]
      | some t => simp [ih, stageOne_rst hstage]

@[simp] theorem answerStage_rst (r status) : (answerStage r status s).rst = s.rst := by unfold answerStage; split <;> simp

@[simp] theorem endStageFills_rst : (endStageFills s).rst = s.rst := by
  refine (each_rst fun _ _ => ?_).trans rfl
  dsimp only
  repeat' split
  all_goals simp

@[simp] theorem tryStage_rst (r) : (tryStage r s).rst = s.rst := by simp [tryStage]
@[simp] theorem pumpStageQueue_rst : (pumpStageQueue s).rst = s.rst := by simp [pumpStageQueue]

@[simp] theorem runCarter_rst (fuel) : (runCarter fuel s).rst = s.rst := by
  induction fuel generalizing s with
  | zero => rfl
  | succ fuel ih => simp [runCarter, ih]

@[simp] theorem stageAnswered_rst (n block line status) : (stageAnswered n block line status s).rst = s.rst := by simp [stageAnswered]

@[simp] theorem matchStreams_rst (port ld pga) : (matchStreams port ld pga s).rst = s.rst := by
  unfold matchStreams
  simp only []
  split
  · rfl
  · refine (runCarter_rst _).trans (each_rst fun _ _ => ?_)
    repeat' split
    all_goals simp

@[simp] theorem onStream_rst {q key act} (h : ∀ n x t, KeepsRst t (act n x t)) : (onStream q key act s).rst = s.rst :=
  ask_rst fun x t => by
    dsimp only
    split <;> simp [(h _ _ _).rst_eq]

/-! ### Operands -/

@[simp] theorem cacheLookup_rst (port n lda) : (cacheLookup port n lda s).rst = s.rst := by simp [cacheLookup]
@[simp] theorem countUp_rst (n) : (countUp n s).rst = s.rst := by unfold countUp; split <;> rfl

/-! ### Contributions and re-arming -/

@[simp] theorem clearRange_rst (lo hi) : (clearRange lo hi s).rst = s.rst := rfl
@[simp] theorem learnGen_rst (pga gen) : (learnGen pga gen s).rst = s.rst := by simp [learnGen]

@[simp] theorem applyHeld_rst (entry) : (applyHeld entry s).rst = s.rst := by
  unfold applyHeld
  rw [each_rst, setWin_rst]
  intro r t
  cases h : (contribute entry (bookOf s entry) r false t).1 with
  | none => simp [h]
  | some rsp => simp [h]

@[simp] theorem finishRearm_rst (entry) : (finishRearm entry s).rst = s.rst := by simp [finishRearm]
@[simp] theorem genAcked_rst (entry coord) : (genAcked entry coord s).rst = s.rst := by simp [genAcked]
@[simp] theorem resumeRearms_rst : (resumeRearms s).rst = s.rst := by simp [resumeRearms]

@[simp] theorem ackOwed_rst : (ackOwed s).rst = s.rst := by
  simp [ackOwed]
  refine each_rst fun _ _ => ?_
  repeat' split
  all_goals simp

@[simp] theorem genNoticed_rst (home pga gen) : (genNoticed home pga gen s).rst = s.rst := by simp [genNoticed]

@[simp] theorem stampContrib_rst (r home bind) : (stampContrib r home bind s).rst = s.rst := by
  simp only [stampContrib]
  repeat' split
  all_goals simp

@[simp] theorem pumpContribs_rst (fuel) : (pumpContribs fuel s).rst = s.rst := by
  induction fuel generalizing s with
  | zero => rfl
  | succ fuel ih =>
    simp only [pumpContribs]
    split <;> simp [ih]

@[simp] theorem setContrib_rst (home seq c) : (setContrib home seq c s).rst = s.rst := rfl
@[simp] theorem contribDone_rst (home seq rsp) : (contribDone home seq rsp s).rst = s.rst := by unfold contribDone; split <;> simp

@[simp] theorem drainContribs_rst (fuel) : (drainContribs fuel s).rst = s.rst := by
  induction fuel generalizing s with
  | zero => rfl
  | succ fuel ih =>
    simp only [drainContribs]
    split <;> simp [ih]

@[simp] theorem contributeTo_rst (r pga bind) : (contributeTo r pga bind s).rst = s.rst := by simp [contributeTo]

theorem markRelease_eq (src seq) : markRelease src seq s = (classify src seq s).2 := by
  have hfun : markRelease = fun src seq s => (classify src seq s).2 := rfl
  rw [hfun]

@[simp] theorem markRelease_rst (src seq) : (markRelease src seq s).rst = s.rst := by
  rw [markRelease_eq, classify_rst]

@[simp] theorem releaseAcked_rst (home seq) : (releaseAcked home seq s).rst = s.rst := by unfold releaseAcked; split <;> simp
@[simp] theorem sendRelease_rst (home seq) : (sendRelease home seq s).rst = s.rst := by simp [sendRelease]

/-! ### CXL ports -/

@[simp] theorem clearHolders_rst (mine) : (clearHolders mine s).rst = s.rst := by simp [clearHolders]
@[simp] theorem sendPurge_rst (k lds home) : (sendPurge k lds home s).rst = s.rst := by simp [sendPurge]
@[simp] theorem owePurge_rst (k lds) : (owePurge k lds s).rst = s.rst := by simp [owePurge]
@[simp] theorem sendPurges_rst (k) : (sendPurges k s).rst = s.rst := by unfold sendPurges; split <;> simp
@[simp] theorem startPurge_rst (k lds) : (startPurge k lds s).rst = s.rst := by simp [startPurge]
@[simp] theorem pumpPurges_rst : (pumpPurges s).rst = s.rst := by simp [pumpPurges]
@[simp] theorem resetLd_rst (port ld) : (resetLd port ld s).rst = s.rst := rfl
@[simp] theorem trainPort_rst (k) : (trainPort k s).rst = s.rst := rfl
@[simp] theorem hostRefused_rst (h status) : (hostRefused h status s).rst = s.rst := by simp [hostRefused]
@[simp] theorem sendHostMem_rst (id r pga partner port ld) : (sendHostMem id r pga partner port ld s).rst = s.rst := by simp [sendHostMem]
@[simp] theorem purgeAnswered_rst (k home) : (purgeAnswered k home s).rst = s.rst := by unfold purgeAnswered; split <;> simp
@[simp] theorem noteLinkErrors_rst (m) : (noteLinkErrors m s).rst = s.rst := by simp [noteLinkErrors]

@[simp] theorem hostRequest_rst (m kind opcode isWrite data be poison) : (hostRequest m kind opcode isWrite data be poison s).rst = s.rst := by
  simp only [hostRequest]
  repeat' split
  all_goals simp

/-! ### The lending book -/

@[simp] theorem bookChanged_rst : (bookChanged s).rst = s.rst := rfl
@[simp] theorem changeBook_rst (n e) : (changeBook n e s).rst = s.rst := rfl

theorem allocEntry_rst {e n t} (h : allocEntry e s = some (n, t)) : t.rst = s.rst := by
  unfold allocEntry at h
  split at h
  · cases h
  · split at h
    · cases h
    · cases h; rfl

@[simp] theorem entryState_rst (n st) : (entryState n st s).rst = s.rst := by unfold entryState; split <;> rfl
@[simp] theorem freeEntry_rst (n) : (freeEntry n s).rst = s.rst := rfl
@[simp] theorem dcEvent_rst (port ld type region base len) : (dcEvent port ld type region base len s).rst = s.rst := by simp [dcEvent]
@[simp] theorem manageDone_rst (p payload) : (manageDone p payload s).rst = s.rst := by simp [manageDone]
@[simp] theorem freeHome_rst (n) : (freeHome n s).rst = s.rst := by unfold freeHome; split <;> simp
@[simp] theorem unreferenceHere_rst (base src) : (unreferenceHere base src s).rst = s.rst := by unfold unreferenceHere; split <;> simp
@[simp] theorem unreference_rst (coord base partner) : (unreference coord base partner s).rst = s.rst := by unfold unreference; split <;> simp

@[simp] theorem failGrant_rst (n st) : (failGrant n st s).rst = s.rst := by
  unfold failGrant
  split
  · rfl
  · rw [finish_rst, each_rst fun _ _ => by rw [keepsRst_iff, unreference_rst], freeEntry_rst]

@[simp] theorem offerExtent_rst (n) : (offerExtent n s).rst = s.rst := by unfold offerExtent; split <;> simp
@[simp] theorem journal_rst (a) : (journal a s).rst = s.rst := rfl
@[simp] theorem recordBase_rst (n i st base g) : (recordBase n i st base g s).rst = s.rst := by simp [recordBase]
@[simp] theorem reserveAnswered_rst (k i coord st base) :
    (reserveAnswered k i coord st base s).rst = s.rst := by unfold reserveAnswered; split <;> simp

@[simp] theorem bindAnswered_rst (k coord base st len) : (bindAnswered k coord base st len s).rst = s.rst := by
  simp only [bindAnswered]
  repeat' split
  all_goals simp

@[simp] theorem answerReserve_rst (c st base) : (answerReserve c st base s).rst = s.rst := by unfold answerReserve; split <;> simp

@[simp] theorem pinBlock_rst (b part) : (pinBlock b part s).2.rst = s.rst := by
  simp only [pinBlock]
  repeat' split
  all_goals simp

@[simp] theorem pinBlocks_rst (part bs) : (pinBlocks part bs s).2.rst = s.rst := by
  induction bs generalizing s with
  | nil => rfl
  | cons _ bs ih =>
    simp [pinBlocks, ih]

@[simp] theorem grantReady_rst (n c) : (grantReady n c s).rst = s.rst := by simp [grantReady]
@[simp] theorem pumpPins_rst : (pumpPins s).rst = s.rst := by simp [pumpPins]
@[simp] theorem clearFinished_rst (n) : (clearFinished n s).rst = s.rst := by unfold clearFinished; split <;> simp
@[simp] theorem beginClear_rst (n) : (beginClear n s).rst = s.rst := by unfold beginClear; split <;> simp
@[simp] theorem clearRecallEnded_rst (n rid) : (clearRecallEnded n rid s).rst = s.rst := by unfold clearRecallEnded; split <;> simp

@[simp] theorem reserveHere_rst (c len part window) : (reserveHere c len part window s).rst = s.rst := by
  simp only [reserveHere]
  repeat' split
  all_goals simp
  all_goals exact allocEntry_rst (by assumption)

@[simp] theorem sendReserve_rst (n i home len part flags params) : (sendReserve n i home len part flags params s).rst = s.rst := by simp [sendReserve]

@[simp] theorem startGrant_rst (q key a len share window params) : (startGrant q key a len share window params s).rst = s.rst := by
  simp only [startGrant]
  repeat' split
  all_goals simp
  all_goals exact allocEntry_rst (by assumption)

@[simp] theorem acceptGrant_rst (n) : (acceptGrant n s).rst = s.rst := by unfold acceptGrant; split <;> simp

@[simp] theorem windowBindHere_rst (base part src) : (windowBindHere base part src s).2.2.rst = s.rst := by
  unfold windowBindHere
  repeat' split
  all_goals simp

@[simp] theorem recallBehind_rst (id base len coord port ld) : (recallBehind id base len coord port ld s).2.rst = s.rst := by simp [recallBehind]
@[simp] theorem revokeAnswered_rst (n home) : (revokeAnswered n home s).rst = s.rst := by unfold revokeAnswered; split <;> rfl
@[simp] theorem answerRevoke_rst (r) : (answerRevoke r s).rst = s.rst := by simp [answerRevoke]
@[simp] theorem revokeRecallHere_rst (src tag base len port ld) :
    (revokeRecallHere src tag base len port ld s).rst = s.rst := by simp [revokeRecallHere]
@[simp] theorem revokeRecallEnded_rst (id rid) : (revokeRecallEnded id rid s).rst = s.rst := by unfold revokeRecallEnded; split <;> simp
@[simp] theorem sendRevokeRecall_rst (n e x) : (sendRevokeRecall n e x s).rst = s.rst := by simp [sendRevokeRecall]
@[simp] theorem revokePoint_rst (n qs) : (revokePoint n qs s).rst = s.rst := by simp [revokePoint]
@[simp] theorem setMigrate_rst (n m) : (setMigrate n m s).rst = s.rst := rfl

@[simp] theorem readBlockLines_rst (part ls) : (readBlockLines part ls s).2.rst = s.rst := by
  induction ls generalizing s with
  | nil => rfl
  | cons _ ls ih =>
    simp [readBlockLines, ih]

@[simp] theorem sendBlock_rst (n h m b) : (sendBlock n h m b s).rst = s.rst := by
  change KeepsRst s (sendBlock n h m b s)
  have hbody := Eq.refl sendBlock
  conv at hbody => rhs; delta sendBlock
  rw [hbody]
  dsimp -zeta only
  obtain ⟨a, ha⟩ : ∃ a, a = readBlockLines h.part ((List.range 1024).map (· + b * 1024)) s := ⟨_, rfl⟩
  have hrst : a.2.rst = s.rst := by rw [ha, readBlockLines_rst]
  rw [← ha]
  dsimp only
  split <;> simp [hrst]

@[simp] theorem migrateBlocks_rst (n) : (migrateBlocks n s).rst = s.rst := by
  unfold migrateBlocks
  split
  · simp
  · exact each_rst fun _ _ => by split <;> simp

@[simp] theorem migrateRecalls_rst (n) : (migrateRecalls n s).rst = s.rst := by
  simp only [migrateRecalls]
  repeat' split
  all_goals simp

@[simp] theorem migrateAdvance_rst (n) : (migrateAdvance n s).rst = s.rst := by
  simp only [migrateAdvance]
  repeat' split
  all_goals simp

@[simp] theorem migrateRecallEnded_rst (n rid) : (migrateRecallEnded n rid s).rst = s.rst := by unfold migrateRecallEnded; split <;> simp
@[simp] theorem migrateCopied_rst (n b) : (migrateCopied n b s).rst = s.rst := by unfold migrateCopied; split <;> simp
@[simp] theorem migrateFails_rst (n st) : (migrateFails n st s).rst = s.rst := by unfold migrateFails; split <;> simp
@[simp] theorem migrateReserved_rst (n st base) : (migrateReserved n st base s).rst = s.rst := by unfold migrateReserved; split <;> simp
@[simp] theorem migrateHandedOver_rst (n) : (migrateHandedOver n s).rst = s.rst := by unfold migrateHandedOver; split <;> simp
@[simp] theorem migrationLost_rst (n st) : (migrationLost n st s).rst = s.rst := by unfold migrationLost; split <;> simp
@[simp] theorem useAnswer_rst (a) : (useAnswer a s).rst = s.rst := by unfold useAnswer; split <;> simp
@[simp] theorem replayJournal_rst (which) : (replayJournal which s).rst = s.rst := by simp [replayJournal]
@[simp] theorem rebind_rst (old new len) : (rebind old new len s).rst = s.rst := by simp [rebind]
@[simp] theorem pumpMigrates_rst : (pumpMigrates s).rst = s.rst := by simp [pumpMigrates]

/-! ### Contexts, jobs and chunks -/

@[simp] theorem setJob_rst (j x) : (setJob j x s).rst = s.rst := rfl
@[simp] theorem setChunk_rst (k c) : (setChunk k c s).rst = s.rst := rfl
@[simp] theorem cleCount_rst (i n) : (cleCount i n s).rst = s.rst := rfl
@[simp] theorem countStale_rst : (countStale s).rst = s.rst := rfl
@[simp] theorem stopFetch_rst (n all) : (stopFetch n all s).rst = s.rst := rfl
@[simp] theorem haltCtx_rst (n code) : (haltCtx n code s).rst = s.rst := by simp [haltCtx]
@[simp] theorem idleCheck_rst (n) : (idleCheck n s).rst = s.rst := by simp [idleCheck]

@[simp] theorem divide_rst (fuel j) : (divide fuel j s).rst = s.rst := by
  induction fuel generalizing s with
  | zero => rfl
  | succ fuel ih =>
    simp only [divide]
    repeat' split
    all_goals simp [ih]

@[simp] theorem startJob_rst (j x) : (startJob j x s).rst = s.rst := by simp [startJob]

@[simp] theorem startJobs_rst (ctx) : (startJobs ctx s).rst = s.rst := by
  refine each_rst fun _ _ => ?_
  repeat' split
  all_goals simp

@[simp] theorem finishJob_rst (j x) : (finishJob j x s).rst = s.rst := by simp [finishJob]
@[simp] theorem jobCompletes_rst (j x) : (jobCompletes j x s).rst = s.rst := by simp [jobCompletes]
@[simp] theorem dropChunk_rst (k) : (dropChunk k s).rst = s.rst := rfl
@[simp] theorem dropWaiting_rst (j) : (dropWaiting j s).rst = s.rst := rfl
@[simp] theorem settleChunk_rst (k c err) : (settleChunk k c err s).rst = s.rst := by unfold settleChunk; split <;> simp
@[simp] theorem chunkFails_rst (k c err) : (chunkFails k c err s).rst = s.rst := by unfold chunkFails; split <;> simp
@[simp] theorem issueChunk_rst (k c x q) : (issueChunk k c x q s).rst = s.rst := rfl

@[simp] theorem reissueChunk_rst (k) : (reissueChunk k s).rst = s.rst := by
  simp only [reissueChunk]
  repeat' split
  all_goals simp

/-! ### The Tally book -/

@[simp] theorem tlbCount_rst (i n) : (tlbCount i n s).rst = s.rst := rfl
@[simp] theorem pushNear_rst (quad e) : (pushNear quad e s).rst = s.rst := rfl

@[simp] theorem wake_rst (w) : (wake w s).rst = s.rst := by
  unfold wake
  repeat' split
  all_goals simp

@[simp] theorem failOperand_rst (code w) : (failOperand code w s).rst = s.rst := by
  simp only [failOperand]
  repeat' split
  all_goals simp

@[simp] theorem failWaiter_rst (code w) : (failWaiter code w s).rst = s.rst := by simp [failWaiter]
@[simp] theorem setEntryT_rst (n e) : (setEntryT n e s).rst = s.rst := rfl
@[simp] theorem delEntryT_rst (n) : (delEntryT n s).rst = s.rst := rfl

@[simp] theorem sendXlate_rst (ctx pasid port ld piece ws fault keep) : (sendXlate ctx pasid port ld piece ws fault keep s).rst = s.rst := by
  simp only [sendXlate]
  repeat' split
  all_goals simp

@[simp] theorem sendPageRequest_rst (i f) : (sendPageRequest i f s).rst = s.rst := rfl
@[simp] theorem takeFault_rst (f) : (takeFault f s).rst = s.rst := by unfold takeFault; split <;> rfl

@[simp] theorem openFault_rst (w ctx port ld pasid cva) : (openFault w ctx port ld pasid cva s).2.rst = s.rst := by
  simp only [openFault]
  repeat' split
  all_goals simp

@[simp] theorem resendPages_rst : (resendPages s).rst = s.rst := by simp [resendPages]

@[simp] theorem pumpFaults_rst (fuel) : (pumpFaults fuel s).rst = s.rst := by
  induction fuel generalizing s with
  | zero => rfl
  | succ fuel ih =>
    simp only [pumpFaults]
    split <;> simp [ih]

@[simp] theorem endFault_rst (i code) : (endFault i code s).rst = s.rst := by unfold endFault; split <;> simp

@[simp] theorem translate_rst (w quad ctx cva) : (translate w quad ctx cva s).2.rst = s.rst := by
  simp only [translate]
  repeat' split
  all_goals simp

@[simp] theorem endXReq_rst (id r) : (endXReq id r s).rst = s.rst := by unfold endXReq; split <;> simp

@[simp] theorem failXReq_rst (id code r) : (failXReq id code r s).rst = s.rst := by
  unfold failXReq
  repeat' split
  all_goals simp

@[simp] theorem recordPiece_rst (r e) : (recordPiece r e s).rst = s.rst := by
  simp only [recordPiece]
  repeat' split
  all_goals simp

@[simp] theorem useCompletion_rst (id r addr size perms) : (useCompletion id r addr size perms s).rst = s.rst := by
  simp only [useCompletion]
  split
  · simp
  · refine (each_rst fun w t => ?_).trans ?_
    · have h := openFault_rst (s := t) w r.ctx r.port r.ld r.pasid w.addr
      split
      · simp_all
      · repeat' split
        all_goals simp_all
    · simp

@[simp] theorem startInval_rst (iv) : (startInval iv s).rst = s.rst := rfl

@[simp] theorem pumpInvals_rst (fuel) : (pumpInvals fuel s).rst = s.rst := by
  induction fuel generalizing s with
  | zero => rfl
  | succ fuel ih =>
    simp only [pumpInvals]
    split <;> simp [ih]

@[simp] theorem requestInval_rst (iv) : (requestInval iv s).rst = s.rst := by simp [requestInval]
@[simp] theorem resendXlates_rst : (resendXlates s).rst = s.rst := by simp [resendXlates]
@[simp] theorem dropXlates_rst (n) : (dropXlates n s).rst = s.rst := by simp [dropXlates]

@[simp] theorem endInval_rst (id iv) : (endInval id iv s).rst = s.rst := by
  simp only [endInval, pumpInvals_rst, resendXlates_rst]
  refine (each_rst fun _ _ => ?_).trans ((each_rst fun _ _ => ?_).trans ?_)
  · simp
  · repeat' split
    all_goals simp
  · repeat' split
    all_goals simp

/-! ### Quads and queues -/

@[simp] theorem translateAll_rst (w quad ctx l p) : (translateAll w quad ctx l p s).2.rst = s.rst := by
  induction l generalizing s p with
  | nil => rfl
  | cons _ l ih =>
    simp [translateAll, ih]

@[simp] theorem parkChunk_rst (k fault) : (parkChunk k fault s).rst = s.rst := by unfold parkChunk; split <;> simp
@[simp] theorem openAccess_rst (a) : (openAccess a s).2.rst = s.rst := by simp [openAccess]
@[simp] theorem engineRecord_rst (ctx lda bind op cause) : (engineRecord ctx lda bind op cause s).rst = s.rst := by simp [engineRecord]
@[simp] theorem noteNoRun_rst (ctx no op) : (noteNoRun ctx no op s).rst = s.rst := by simp [noteNoRun]
@[simp] theorem matchRun_rst (ctx r) : (matchRun ctx r s).rst = s.rst := by simp [matchRun]
@[simp] theorem accessRun_rst (k c ctx r) : (accessRun k c ctx r s).2.rst = s.rst := by simp [accessRun]

@[simp] theorem sendGroup_rst (k c ctx x rest) : (sendGroup k c ctx x rest s).rst = s.rst := by
  have hfold (a : List Nat × State) : (rest.foldl (fun acc y => let b := accessRun k c ctx y.2.2 acc.2; (acc.1 ++ [b.1], b.2)) a).2.rst = a.2.rst :=
    foldl_snd_rst fun _ _ => accessRun_rst _ _ _ _
  simp only [sendGroup]
  repeat' split
  all_goals simp [hfold]

@[simp] theorem sendGroups_rst (k c ctx gs) : (sendGroups k c ctx gs s).2.rst = s.rst := by
  induction gs generalizing s with
  | nil => rfl
  | cons g gs ih => cases g <;> simp [sendGroups, ih]

@[simp] theorem accessRuns_rst (k c ctx rs) : (accessRuns k c ctx rs s).rst = s.rst := by
  simp only [accessRuns]
  repeat' split
  all_goals simp

@[simp] theorem driveCopy_rst (k c x) : (driveCopy k c x s).rst = s.rst := by
  simp only [driveCopy]
  repeat' split
  all_goals simp

@[simp] theorem driveLeft_rst (k c x) : (driveLeft k c x s).rst = s.rst := by
  simp only [driveLeft]
  repeat' split
  all_goals simp

@[simp] theorem driveElement_rst (k c x) : (driveElement k c x s).rst = s.rst := by
  simp only [driveElement]
  repeat' split
  all_goals simp

@[simp] theorem commitHere_rst (who lo len part recallOp twin) :
    (commitHere who lo len part recallOp twin s).rst = s.rst := by unfold commitHere; split <;> simp

@[simp] theorem sendCommit_rst (k c ctx cva n bind lda e recallOp part) : (sendCommit k c ctx cva n bind lda e recallOp part s).rst = s.rst := by
  simp only [sendCommit]
  repeat' split
  all_goals simp

@[simp] theorem commitStretch_rst (k ctx recallOp fuel cva hpa n) : (commitStretch k ctx recallOp fuel cva hpa n s).2.rst = s.rst := by
  induction fuel generalizing s cva hpa n with
  | zero => rfl
  | succ fuel ih =>
    simp only [commitStretch]
    repeat' split
    all_goals simp [ih]

@[simp] theorem commitEnds_rst (k) : (commitEnds k s).rst = s.rst := by unfold commitEnds; split <;> simp

@[simp] theorem driveCommit_rst (k fuel) : (driveCommit k fuel s).rst = s.rst := by
  induction fuel generalizing s with
  | zero => rfl
  | succ fuel ih =>
    simp only [driveCommit]
    repeat' split
    all_goals simp [ih]

@[simp] theorem driveChunk_rst (k) : (driveChunk k s).rst = s.rst := by
  unfold driveChunk
  repeat' split
  all_goals simp

@[simp] theorem chunkRead_rst (k a r) : (chunkRead k a r s).rst = s.rst := by unfold chunkRead; split <;> simp
@[simp] theorem chunkWritten_rst (k a r) : (chunkWritten k a r s).rst = s.rst := by unfold chunkWritten; split <;> simp
@[simp] theorem elementDone_rst (k a r) : (elementDone k a r s).rst = s.rst := by unfold elementDone; split <;> simp
@[simp] theorem commitPart_rst (k a r) : (commitPart k a r s).rst = s.rst := by unfold commitPart; split <;> simp

@[simp] theorem recordWritten_rst (n r) : (recordWritten n r s).rst = s.rst := by
  simp only [recordWritten]
  repeat' split
  all_goals simp

@[simp] theorem clerkTakes_rst (ref r) : (clerkTakes ref r s).rst = s.rst := by
  simp only [clerkTakes]
  repeat' split
  all_goals simp

@[simp] theorem driveCounter_rst (j) : (driveCounter j s).rst = s.rst := by
  simp only [driveCounter]
  repeat' split
  all_goals simp

@[simp] theorem pumpRecord_rst (n) : (pumpRecord n s).rst = s.rst := by
  simp only [pumpRecord]
  repeat' split
  all_goals simp

@[simp] theorem pumpFetch_rst (n) : (pumpFetch n s).rst = s.rst := by
  simp only [pumpFetch]
  repeat' split
  all_goals simp

@[simp] theorem takeAll_rst : (takeAll s).rst = s.rst := by simp [takeAll]

@[simp] theorem runClerk_rst (fuel) : (runClerk fuel s).rst = s.rst := by
  induction fuel generalizing s with
  | zero => rfl
  | succ fuel ih => simp [runClerk, ih]

/-! ### Translation commands -/

@[simp] theorem atsOff_rst (port ld) : (atsOff port ld s).rst = s.rst := by simp [atsOff]

/-! ### Commands of contexts, jobs and chunks -/

@[simp] theorem onCtx_rst {q key roles act} (h : ∀ n x t, KeepsRst t (act n x t)) : (onCtx q key roles act s).rst = s.rst := by
  simp [onCtx, (h _ _ _).rst_eq]

@[simp] theorem bindDone_rst (q n slice sliceLen) : (bindDone q n slice sliceLen s).rst = s.rst := by simp [bindDone]
@[simp] theorem useUnits_rst (first n f) : (useUnits first n f s).rst = s.rst := rfl
@[simp] theorem leaveSlice_rst (first ranks) : (leaveSlice first ranks s).rst = s.rst := by simp [leaveSlice]
@[simp] theorem ranksRead_rst (n q first) : (ranksRead n q first s).rst = s.rst := by simp [ranksRead]

@[simp] theorem pumpRanks_rst : (pumpRanks s).rst = s.rst := by
  refine each_rst fun _ _ => ?_
  repeat' split
  all_goals simp

@[simp] theorem pumpUnbinds_rst : (pumpUnbinds s).rst = s.rst := by
  refine each_rst fun _ _ => ?_
  dsimp only
  repeat' split
  all_goals simp

@[simp] theorem runQueues_rst : (runQueues s).rst = s.rst := by simp [runQueues]
@[simp] theorem firePending_rst (ctx) : (firePending ctx s).rst = s.rst := by simp [firePending]
@[simp] theorem strayWrite_rst (port ld) : (strayWrite port ld s).rst = s.rst := rfl
@[simp] theorem loseJob_rst (j x) : (loseJob j x s).rst = s.rst := by simp [loseJob]
@[simp] theorem loseTally_rst (n) : (loseTally n s).rst = s.rst := by unfold loseTally; split <;> simp

@[simp] theorem commitChunk_rst (k c x) : (commitChunk k c x s).rst = s.rst := by
  simp only [commitChunk]
  repeat' split
  all_goals simp

@[simp] theorem loseCounter_rst (job) : (loseCounter job s).rst = s.rst := by
  simp only [loseCounter]
  repeat' split
  all_goals simp

@[simp] theorem renewAccess_rst (id) : (renewAccess id s).rst = s.rst := by unfold renewAccess; split <;> rfl

/-! ### Partitions, keys and the Sweep -/

@[simp] theorem lckCount_rst (i) : (lckCount i s).rst = s.rst := rfl

@[simp] theorem changeDone_rst (c) : (changeDone c s).rst = s.rst := by
  simp only [changeDone]
  repeat' split
  all_goals simp

@[simp] theorem changeTable_rst (p kind) : (changeTable p kind s).rst = s.rst := by
  unfold changeTable
  repeat' split
  all_goals simp

@[simp] theorem tdiError_rst (k) : (tdiError k s).rst = s.rst := by simp [tdiError]
@[simp] theorem closeSessions_rst (p) : (closeSessions p s).rst = s.rst := rfl
@[simp] theorem sweepRecalls_rst (part) : (sweepRecalls part s).rst = s.rst := by simp [sweepRecalls]
@[simp] theorem sweepRecallEnded_rst (part rid) : (sweepRecallEnded part rid s).rst = s.rst := rfl

@[simp] theorem sweepClear_rst (part) : (sweepClear part s).rst = s.rst := by
  unfold sweepClear
  dsimp only
  split <;> simp

@[simp] theorem sweepEnds_rst (part) : (sweepEnds part s).rst = s.rst := by simp [sweepEnds]
@[simp] theorem rewriteBlock_rst (b part) : (rewriteBlock b part s).rst = s.rst := by unfold rewriteBlock; split <;> simp
@[simp] theorem rekeyLine_rst (dl l part x) : (rekeyLine dl l part x s).rst = s.rst := by simp [rekeyLine]
@[simp] theorem walkLine_rst (part line) : (walkLine part line s).rst = s.rst := by simp [walkLine]
@[simp] theorem rewindPasses_rst : (rewindPasses s).rst = s.rst := rfl

/-! ### Twin pairs -/

@[simp] theorem setRole_rst (n role st) : (setRole n role st s).rst = s.rst := by unfold setRole; split <;> rfl
@[simp] theorem twinNotice_rst (kind value pga) : (twinNotice kind value pga s).rst = s.rst := by simp [twinNotice]
@[simp] theorem goStale_rst (n) : (goStale n s).rst = s.rst := by simp [goStale]
@[simp] theorem goUnusable_rst (n) : (goUnusable n s).rst = s.rst := by simp [goUnusable]

@[simp] theorem commitFrom_rst (p respond) : (commitFrom p respond s).rst = s.rst := by
  simp only [commitFrom]
  repeat' split
  all_goals simp

@[simp] theorem stageFrom_rst (p respond) : (stageFrom p respond s).rst = s.rst := by
  simp only [stageFrom]
  repeat' split
  all_goals simp

@[simp] theorem noteRebound_rst (base) : (noteRebound base s).rst = s.rst := by unfold noteRebound; split <;> rfl
@[simp] theorem manageHere_rst (p respond) : (manageHere p respond s).rst = s.rst := by simp [manageHere]
@[simp] theorem stampOther_rst (p) : (stampOther p s).rst = s.rst := by unfold stampOther; split <;> simp
@[simp] theorem serveHere_rst (p) : (serveHere p s).rst = s.rst := by simp [serveHere]
@[simp] theorem serveHeld_rst : (serveHeld s).rst = s.rst := by simp [serveHeld]

@[simp] theorem goSolo_rst (n) : (goSolo n s).rst = s.rst := by
  simp only [goSolo]
  repeat' split
  all_goals simp

@[simp] theorem followGen_rst (n h r) : (followGen n h r s).rst = s.rst := by simp [followGen]

@[simp] theorem followApply_rst (p respond) : (followApply p respond s).2.rst = s.rst := by
  simp only [followApply]
  repeat' split
  all_goals simp

@[simp] theorem followRecall_rst (p) : (followRecall p s).rst = s.rst := by unfold followRecall; split <;> simp

@[simp] theorem writeUnitLine_rst (l part data m) : (writeUnitLine l part data m s).rst = s.rst := by
  unfold writeUnitLine
  repeat' split
  all_goals simp

@[simp] theorem followUnit_rst (tag) : (followUnit tag s).2.rst = s.rst := by
  unfold followUnit
  split
  · rfl
  · split
    · rfl
    · split
      · rfl
      · simp

@[simp] theorem eventDone_rst (dpa e) : (eventDone dpa e s).rst = s.rst := by unfold eventDone; split <;> simp
@[simp] theorem takeRole_rst (term) : (takeRole term s).rst = s.rst := by simp [takeRole]

@[simp] theorem applyEvent_rst (e) : (applyEvent e s).2.rst = s.rst := by
  unfold applyEvent
  repeat' split
  all_goals simp

@[simp] theorem runEvents_rst (fuel) : (runEvents fuel s).rst = s.rst := by
  induction fuel generalizing s with
  | zero => rfl
  | succ fuel ih =>
    simp only [runEvents]
    split <;> simp [ih]

@[simp] theorem twinned_rst {p act} (h : ∀ t, KeepsRst t (act t)) : (twinned p act s).rst = s.rst := by
  unfold twinned
  split <;> simp [(h _).rst_eq]

@[simp] theorem recallOwned_rst (n) : (recallOwned n s).rst = s.rst := by simp [recallOwned]
@[simp] theorem drainEvents_rst : (drainEvents s).rst = s.rst := by simp [drainEvents]

@[simp] theorem takeover_rst : (takeover s).rst = s.rst := by
  simp only [takeover]
  rw [serveHeld_rst, each_rst fun _ _ => recallOwned_rst _, each_rst, twnCount_rst]
  · simp
  · intro _ _
    rw [keepsRst_iff, setRole_rst]
    split <;> simp

@[simp] theorem startDelta_rst : (startDelta s).rst = s.rst := by
  simp only [startDelta]
  split <;> split
  · rfl
  · exact each_rst fun _ _ => by split <;> simp
  · rfl
  · exact each_rst fun _ _ => by split <;> simp

@[simp] theorem meetTerm_rst (term) : (meetTerm term s).rst = s.rst := by simp [meetTerm]

@[simp] theorem swapEnds_rst (term) : (swapEnds term s).rst = s.rst := by
  simp only [swapEnds]
  repeat' split
  all_goals simp

@[simp] theorem receiveEvent_rst (e) : (receiveEvent e s).rst = s.rst := by simp [receiveEvent]
@[simp] theorem syncEnds_rst (n) : (syncEnds n s).rst = s.rst := by unfold syncEnds; split <;> simp

@[simp] theorem sendUnit_rst : (sendUnit s).rst = s.rst := by
  unfold sendUnit
  repeat' split
  all_goals simp

@[simp] theorem unitDone_rst (n u) : (unitDone n u s).rst = s.rst := by unfold unitDone; split <;> simp
@[simp] theorem unitLost_rst (n u) : (unitLost n u s).rst = s.rst := by unfold unitLost; split <;> simp

@[simp] theorem joinOp_rst {p idx npk act} (h : ∀ l t, KeepsRst t (act l t)) : (joinOp p idx npk act s).rst = s.rst := by
  simp [joinOp, (h _ _).rst_eq]

@[simp] theorem unitArrived_rst (tag ps) : (unitArrived tag ps s).rst = s.rst := by simp [unitArrived]
@[simp] theorem receiveUnit_rst (p idx) : (receiveUnit p idx s).rst = s.rst := by simp [receiveUnit]

@[simp] theorem attachHere_rst (f) : (attachHere f s).rst = s.rst := by
  unfold attachHere
  split
  · rfl
  · split
    · rfl
    · next halloc => simp [allocEntry_rst halloc]

@[simp] theorem keepTwin_rst (n) : (keepTwin n s).rst = s.rst := rfl

@[simp] theorem pumpDetach_rst : (pumpDetach s).rst = s.rst := by
  unfold pumpDetach
  split
  · simp
  · exact each_rst fun _ _ => by split <;> simp

@[simp] theorem trySwap_rst : (trySwap s).rst = s.rst := by unfold trySwap; split <;> simp

/-! ### The RDMA engine -/

@[simp] theorem rdmaCount_rst (i n) : (rdmaCount i n s).rst = s.rst := rfl
@[simp] theorem rdmaNak_rst (qp va) : (rdmaNak qp va s).rst = s.rst := rfl
@[simp] theorem rdmaEnd_rst (id o) : (rdmaEnd id o s).rst = s.rst := by simp [rdmaEnd]
@[simp] theorem rdmaTook_rst (ref r) : (rdmaTook ref r s).rst = s.rst := by unfold rdmaTook; split <;> simp
@[simp] theorem rdmaOpen_rst (o) : (rdmaOpen o s).2.rst = s.rst := rfl
@[simp] theorem drainEnds_rst (id status d) : (drainEnds id status d s).rst = s.rst := by simp [drainEnds]
@[simp] theorem drainRead_rst (id) : (drainRead id s).rst = s.rst := by unfold drainRead; split <;> simp
@[simp] theorem drainTook_rst (id r) : (drainTook id r s).rst = s.rst := by unfold drainTook; split <;> simp

@[simp] theorem drainRdma_rst (fuel) : (drainRdma fuel s).rst = s.rst := by
  induction fuel generalizing s with
  | zero => rfl
  | succ fuel ih =>
    simp only [drainRdma]
    split <;> simp [ih]

@[simp] theorem qpFails_rst (qp) : (qpFails qp s).rst = s.rst := by simp [qpFails]

/-! ### The end of recalls -/

@[simp] theorem mailboxDone_rst (port ld code payload) : (mailboxDone port ld code payload s).rst = s.rst := by simp [mailboxDone]

@[simp] theorem drainClears_rst (fuel) : (drainClears fuel s).rst = s.rst := by
  induction fuel generalizing s with
  | zero => rfl
  | succ fuel ih =>
    simp only [drainClears]
    split <;> simp [ih]

@[simp] theorem sendNotifies_rst : (sendNotifies s).rst = s.rst := by simp [sendNotifies]

@[simp] theorem drainNotifies_rst (fuel) : (drainNotifies fuel s).rst = s.rst := by
  induction fuel generalizing s with
  | zero => rfl
  | succ fuel ih =>
    simp only [drainNotifies]
    split <;> simp [ih]

@[simp] theorem sendConflictAcks_rst : (sendConflictAcks s).rst = s.rst := each_rst fun _ _ => by simp
@[simp] theorem ownerEnded_rst (o rid) : (ownerEnded o rid s).rst = s.rst := by unfold ownerEnded; split <;> simp
@[simp] theorem conflictsEnd_rst (port ld bitag) : (conflictsEnd port ld bitag s).rst = s.rst := each_rst fun _ _ => by simp
@[simp] theorem stampRecall_rst (line kind tag wrote) : (stampRecall line kind tag wrote s).rst = s.rst := by unfold stampRecall; split <;> simp

@[simp] theorem oneOfBlock_rst (rid low) : (oneOfBlock rid low s).2.rst = s.rst := by
  unfold oneOfBlock
  repeat' split
  all_goals simp

@[simp] theorem recallsOver_rst {rid r mine stop} (h : ∀ x t, KeepsRst t (stop x t)) : (recallsOver rid r mine stop s).rst = s.rst := by
  simp [recallsOver, (h _ _).rst_eq]

@[simp] theorem recallOver_rst {rid r stop} (h : ∀ x t, KeepsRst t (stop x t)) : (recallOver rid r stop s).rst = s.rst :=
  recallsOver_rst h

@[simp] theorem recallEnded_rst (rid ans) : (recallEnded rid ans s).rst = s.rst := by unfold recallEnded; split <;> simp
@[simp] theorem hostAnswered_rst (rid kind low r) : (hostAnswered rid kind low r s).rst = s.rst := by simp [hostAnswered]
@[simp] theorem probeOver_rst (rid) : (probeOver rid s).rst = s.rst := by unfold probeOver; split <;> simp

@[simp] theorem recallTimedOut_rst (rid) : (recallTimedOut rid s).rst = s.rst := by
  unfold recallTimedOut
  repeat' split
  all_goals simp

@[simp] theorem recallWriteBack_rst (r data be poison) : (recallWriteBack r data be poison s).rst = s.rst := by unfold recallWriteBack; split <;> simp

@[simp] theorem strayRecallRsp_rst (p) : (strayRecallRsp p s).rst = s.rst := by
  unfold strayRecallRsp
  repeat' split
  all_goals simp

@[simp] theorem takeRecallRsp_rst (p) : (takeRecallRsp p s).rst = s.rst := by
  simp only [takeRecallRsp]
  repeat' split
  all_goals simp

@[simp] theorem pumpRsps_rst : (pumpRsps s).rst = s.rst := by simp [pumpRsps]
@[simp] theorem answerHost_rst (rid kind low) : (answerHost rid kind low s).rst = s.rst := by unfold answerHost; split <;> simp
@[simp] theorem pumpBirsps_rst : (pumpBirsps s).rst = s.rst := by simp [pumpBirsps]

@[simp] theorem endGone_rst : (endGone s).rst = s.rst := by
  refine each_rst fun _ _ => ?_
  repeat' split
  all_goals simp

@[simp] theorem settle_rst : (settle s).rst = s.rst := by simp [settle]
@[simp] theorem release_rst (id) : (release id s).rst = s.rst := by simp [release]
@[simp] theorem readmit_rst (k) : (readmit k s).rst = s.rst := by simp [readmit]
@[simp] theorem poisonLost_rst (l) : (poisonLost l s).rst = s.rst := by simp [poisonLost]
@[simp] theorem raiseLost_rst (k set n) : (raiseLost k set n s).rst = s.rst := by simp [raiseLost]

@[simp] theorem loseLedger_rst (line mask) : (loseLedger line mask s).rst = s.rst := by
  unfold loseLedger
  repeat' split
  all_goals simp

/-! ### The DRAM stack controller -/

@[simp] theorem startLevel_rst (stack k) : (startLevel stack k s).rst = s.rst := rfl
@[simp] theorem requestLevel_rst (stack k) : (requestLevel stack k s).rst = s.rst := by simp [requestLevel]

@[simp] theorem startPending_rst (stack) : (startPending stack s).rst = s.rst := by
  simp only [startPending]
  repeat' split
  all_goals simp

/-! ### The Storekeeper -/

@[simp] theorem rehome_rst (n p) : (rehome n p s).rst = s.rst := by
  unfold rehome
  repeat' split
  all_goals simp

@[simp] theorem replace_rst (n p bad) : (replace n p bad s).rst = s.rst := by simp [replace]

@[simp] theorem pumpFlash_rst : (pumpFlash s).rst = s.rst := by
  simp only [pumpFlash]
  repeat' split
  all_goals simp

@[simp] theorem afterFrames_rst : (afterFrames s).rst = s.rst := by simp [afterFrames]
@[simp] theorem loseUnit_rst (p u) : (loseUnit p u s).rst = s.rst := by simp [loseUnit]
@[simp] theorem unitForged_rst (logical part) : (unitForged logical part s).rst = s.rst := by simp [unitForged]
@[simp] theorem badRead_rst (g) : (badRead g s).rst = s.rst := by simp [badRead]

@[simp] theorem fillRead_rst (block f found) : (fillRead block f found s).rst = s.rst := by
  simp only [fillRead]
  repeat' split
  all_goals simp

@[simp] theorem unitWritten_rst (p) : (unitWritten p s).rst = s.rst := by simp [unitWritten]
@[simp] theorem mapUnit_rst (p) : (mapUnit p s).rst = s.rst := rfl
@[simp] theorem groupEmptied_rst (g) : (groupEmptied g s).rst = s.rst := by simp [groupEmptied]

@[simp] theorem relocate_rst (g kind) : (relocate g kind s).rst = s.rst := by
  unfold relocate
  split
  · rfl
  · refine (groupEmptied_rst _).trans (each_rst fun _ _ => ?_)
    repeat' split
    all_goals simp

@[simp] theorem goOnCollecting_rst : (goOnCollecting s).rst = s.rst := by unfold goOnCollecting; split <;> simp
@[simp] theorem beginRound_rst : (beginRound s).2.rst = s.rst := by simp [beginRound]
@[simp] theorem writeAnchor_rst (groups r) : (writeAnchor groups r s).rst = s.rst := rfl
@[simp] theorem eraseSystem_rst (g) : (eraseSystem g s).rst = s.rst := by simp [eraseSystem]

@[simp] theorem takeOn_rst (c other) : (takeOn c other s).2.rst = s.rst := by
  simp only [takeOn]
  repeat' split
  all_goals simp

@[simp] theorem takeQuad_rst : (takeQuad s).2.rst = s.rst := by
  unfold takeQuad
  refine foldl_snd_rst fun _ _ => ?_
  dsimp only
  split <;> simp

@[simp] theorem useTargets_rst (untrained) : (useTargets untrained s).rst = s.rst := rfl

@[simp] theorem formatFlash_rst : (formatFlash s).rst = s.rst := by
  unfold formatFlash
  rw [keepAll_rst, checkWorn_rst, checkFree_rst, writeAnchor_rst, each_rst, journalPair_rst, setStk_rst, beginRound_rst, setStk_rst,
    takeQuad_rst, takeQuad_rst, each_rst, each_rst, setStk_rst]
  all_goals simp

theorem loadMap_rst {lost torn t} (h : loadMap lost torn s = some t) : t.rst = s.rst := by
  unfold loadMap at h
  split at h
  · split at h
    · cases h
    · cases h; simp
  · cases h

/-! ### Flits and links -/

@[simp] theorem sendNew_rst (port x) : (sendNew port x s).rst = s.rst := rfl

@[simp] theorem pumpLink_rst (fuel port) : (pumpLink fuel port s).rst = s.rst := by
  induction fuel generalizing s with
  | zero => rfl
  | succ fuel ih =>
    simp only [pumpLink]
    repeat' split
    all_goals simp [ih]

@[simp] theorem linkSend_rst (port p vc cls) : (linkSend port p vc cls s).rst = s.rst := by simp [linkSend]
@[simp] theorem sendControl_rst (port nak) : (sendControl port nak s).rst = s.rst := rfl
@[simp] theorem sendNak_rst (port) : (sendNak port s).rst = s.rst := by simp [sendNak]
@[simp] theorem applyAck_rst (port a) : (applyAck port a s).rst = s.rst := by simp [applyAck]
@[simp] theorem applyCredit_rst (port vc total) : (applyCredit port vc total s).rst = s.rst := rfl
@[simp] theorem replayFlits_rst (port) : (replayFlits port s).rst = s.rst := each_rst fun _ _ => by simp
@[simp] theorem acceptFlit_rst (port f) : (acceptFlit port f s).rst = s.rst := rfl
@[simp] theorem freeBuffers_rst (port vc units) : (freeBuffers port vc units s).rst = s.rst := rfl
@[simp] theorem sendOffer_rst (port) : (sendOffer port s).rst = s.rst := rfl
@[simp] theorem startResync_rst (port) : (startResync port s).rst = s.rst := rfl
@[simp] theorem acceptOffer_rst (port f) : (acceptOffer port f s).rst = s.rst := rfl

/-! ### Node recovery -/

@[simp] theorem recoverLedger_rst : (recoverLedger s).rst = s.rst := by simp [recoverLedger]
@[simp] theorem recoverCarter_rst : (recoverCarter s).rst = s.rst := each_rst fun _ _ => by simp
@[simp] theorem recoverFlash_rst : (recoverFlash s).rst = s.rst := rfl
@[simp] theorem recoverTally_rst : (recoverTally s).rst = s.rst := rfl

@[simp] theorem recoverContexts_rst : (recoverContexts s).rst = s.rst := by
  refine each_rst fun _ _ => ?_
  repeat' split
  all_goals simp

@[simp] theorem recoverWindows_rst : (recoverWindows s).rst = s.rst := rfl
@[simp] theorem recoverTwins_rst : (recoverTwins s).rst = s.rst := by simp [recoverTwins]
@[simp] theorem recoverWeigh_rst : (recoverWeigh s).rst = s.rst := rfl
@[simp] theorem recoverFabric_rst : (recoverFabric s).rst = s.rst := rfl
@[simp] theorem recoverStacks_rst : (recoverStacks s).rst = s.rst := rfl
@[simp] theorem recoverBook_rst : (recoverBook s).rst = s.rst := rfl
@[simp] theorem stopSahtin_rst : (stopSahtin s).rst = s.rst := rfl
@[simp] theorem nodeError_rst (structure_ unit addr) : (nodeError structure_ unit addr s).rst = s.rst := rfl
@[simp] theorem applyProgrammed_rst (p) : (applyProgrammed p s).rst = s.rst := by simp [applyProgrammed]
@[simp] theorem reinitFlash_rst (untrained programmed) : (reinitFlash untrained programmed s).rst = s.rst := by simp [reinitFlash]

/-! ### Hosts and errors of structures -/

@[simp] theorem bookUpset_rst (n) : (bookUpset n s).rst = s.rst := by simp [bookUpset]
@[simp] theorem keyUpset_rst (a) : (keyUpset a s).rst = s.rst := by simp [keyUpset]
@[simp] theorem mapUpset_rst (b) : (mapUpset b s).rst = s.rst := by simp [mapUpset]
@[simp] theorem logUpset_rst (q) : (logUpset q s).rst = s.rst := by simp [logUpset]

@[simp] theorem hostWrite_rst (m data be poison) : (hostWrite m data be poison s).rst = s.rst := by
  simp only [hostWrite]
  repeat' split
  all_goals simp

/-! ### The mailbox of a logical device -/

@[simp] theorem mailbox_rst {port ld act} (h : ∀ t, KeepsRst t (act t).2.2) : (mailbox port ld act s).rst = s.rst := by
  simp [mailbox, (h _).rst_eq]

@[simp] theorem ldMailbox_rst {port ld act} (h : ∀ t, KeepsRst t (act t).2.2) : (ldMailbox port ld act s).rst = s.rst :=
  mailbox_rst fun t => by split <;> simp [(h _).rst_eq]

@[simp] theorem poisonWrite_rst (port ld dpa isClear data) :
    (poisonWrite port ld dpa isClear data s).rst = s.rst := by unfold poisonWrite; split <;> simp

/-! ### The link layer -/

@[simp] theorem addFailed_rst (l) : (addFailed l s).rst = s.rst := by simp [addFailed]
@[simp] theorem dropFailed_rst (l) : (dropFailed l s).rst = s.rst := rfl
@[simp] theorem sendNotices_rst (l up) : (sendNotices l up s).rst = s.rst := by simp [sendNotices]
@[simp] theorem announce_rst (port up) : (announce port up s).rst = s.rst := by simp [announce]
@[simp] theorem displace_rst (p cls expires) : (displace p cls expires s).rst = s.rst := by simp [displace]
@[simp] theorem clearQueues_rst (port) : (clearQueues port s).rst = s.rst := by simp [clearQueues]
@[simp] theorem downActions_rst (port) : (downActions port s).rst = s.rst := by simp [downActions]
@[simp] theorem linkDown_rst (port) : (linkDown port s).rst = s.rst := by simp [linkDown]
@[simp] theorem linkStarts_rst (port) : (linkStarts port s).rst = s.rst := by simp [linkStarts]
@[simp] theorem badArrives_rst (port f) : (badArrives port f s).rst = s.rst := by simp [badArrives]
@[simp] theorem replayFrom_rst (port) : (replayFrom port s).rst = s.rst := by simp [replayFrom]
@[simp] theorem goodArrives_rst (port f) : (goodArrives port f s).rst = s.rst := by simp [goodArrives]
@[simp] theorem miscabled_rst (port) : (miscabled port s).rst = s.rst := rfl
@[simp] theorem takeOffer_rst (port f) : (takeOffer port f s).rst = s.rst := by simp [takeOffer]
@[simp] theorem disablePort_rst (port) : (disablePort port s).rst = s.rst := by simp [disablePort]
@[simp] theorem enablePort_rst (port on) : (enablePort port on s).rst = s.rst := by simp [enablePort]

/-! ### The fabric's packets -/

@[simp] theorem routeArrived_rst (port p) : (routeArrived port p s).rst = s.rst := by
  simp only [routeArrived]
  repeat' split
  all_goals simp

@[simp] theorem servePacket_rst (op p) : (servePacket op p s).rst = s.rst := by simp [servePacket]

@[simp] theorem learnPartner_rst (u p) : (learnPartner u p s).rst = s.rst := by
  unfold learnPartner
  repeat' split
  all_goals simp

@[simp] theorem useResponse_rst (r p) : (useResponse r p s).rst = s.rst := by
  unfold useResponse
  repeat' split
  all_goals simp

@[simp] theorem acknowledge_rst (t r p) : (acknowledge t r p s).rst = s.rst := by unfold acknowledge; split <;> simp

@[simp] theorem divergence_rst (t r kind a da b) : (divergence t r kind a da b s).rst = s.rst := by
  unfold divergence
  repeat' split
  all_goals simp

@[simp] theorem closeTag_rst (t) : (closeTag t s).rst = s.rst := rfl
@[simp] theorem keepFirst_rst (t x) : (keepFirst t x s).rst = s.rst := rfl

@[simp] theorem twinResponse_rst (t r p) : (twinResponse t r p s).rst = s.rst := by
  unfold twinResponse
  repeat' split
  all_goals simp

@[simp] theorem lateResponse_rst (r p) : (lateResponse r p s).rst = s.rst := by unfold lateResponse; split <;> simp

@[simp] theorem responseArrives_rst (p) : (responseArrives p s).rst = s.rst := by
  simp only [responseArrives]
  repeat' split
  all_goals simp

@[simp] theorem timeoutUse_rst (r) : (timeoutUse r s).rst = s.rst := by unfold timeoutUse; split <;> simp

/-! ### Admission to a confidential host -/

@[simp] theorem setSpdm_rst (k x) : (setSpdm k x s).rst = s.rst := rfl
@[simp] theorem spdmReply_rst (port ld code payload) : (spdmReply port ld code payload s).rst = s.rst := by simp [spdmReply]

@[simp] theorem spdm_rst {port ld ready act} (h : ∀ x t, KeepsRst t (act x t)) : (spdm port ld ready act s).rst = s.rst := by
  simp [spdm, (h _ _).rst_eq]

@[simp] theorem inSession_rst {port ld n act} (h : ∀ x t, KeepsRst t (act x t)) : (inSession port ld n act s).rst = s.rst :=
  spdm_rst fun x t => by split <;> simp [(h _ _).rst_eq]

@[simp] theorem stopStream_rst (port ld stream keys) : (stopStream port ld stream keys s).rst = s.rst := by simp [stopStream]

/-! ### Images and the cold boot -/

@[simp] theorem writeControl_rst (active trial tries) : (writeControl active trial tries s).rst = s.rst := rfl

@[simp] theorem applyNat_rst (key sel v) : (applyNat key sel v s).rst = s.rst := by simp [applyNat]
@[simp] theorem applyBytes_rst (key sel b) : (applyBytes key sel b s).rst = s.rst := by simp [applyBytes]
@[simp] theorem applyStored_rst : (applyStored s).rst = s.rst := by simp [applyStored]
@[simp] theorem startCores_rst : (startCores s).rst = s.rst := rfl
@[simp] theorem writeHandoff_rst (reason) : (writeHandoff reason s).rst = s.rst := rfl

@[simp] theorem findTargets_rst (found) : (findTargets found s).rst = s.rst := by
  simp only [findTargets]
  repeat' split
  all_goals simp

@[simp] theorem restoreBook_rst : (restoreBook s).rst = s.rst := by simp [restoreBook]

@[simp] theorem restoreKeys_rst : (restoreKeys s).rst = s.rst := by
  refine each_rst fun _ _ => ?_
  repeat' split
  all_goals simp

@[simp] theorem restoreSweeps_rst : (restoreSweeps s).rst = s.rst := by simp [restoreSweeps]
@[simp] theorem restoreTwins_rst : (restoreTwins s).rst = s.rst := by simp [restoreTwins]

/-! ### Interrupts and events -/

@[simp] theorem pumpSub_rst (fuel sid slot) : (pumpSub fuel sid slot s).rst = s.rst := by
  induction fuel generalizing s with
  | zero => rfl
  | succ fuel ih =>
    simp only [pumpSub]
    repeat' split
    all_goals simp [ih]

@[simp] theorem pumpSubs_rst : (pumpSubs s).rst = s.rst := by simp [pumpSubs]

/-! ### Self-tests -/

@[simp] theorem zeroStack_rst (k) : (zeroStack k s).rst = s.rst := rfl

/-! ### The management processor -/

@[simp] theorem ethCount_rst (i) : (ethCount i s).rst = s.rst := rfl
@[simp] theorem rxCount_rst (i) : (rxCount i s).rst = s.rst := rfl
@[simp] theorem setFull_rst : (setFull s).rst = s.rst := rfl
@[simp] theorem swapBanks_rst : (swapBanks s).rst = s.rst := by simp [swapBanks]
@[simp] theorem toBuffer_rst (f) : (toBuffer f s).rst = s.rst := by simp [toBuffer]
@[simp] theorem loopLevel_rst (k level) : (loopLevel k level s).rst = s.rst := by simp [loopLevel]
@[simp] theorem loopThrottle_rst (k v) : (loopThrottle k v s).rst = s.rst := rfl
@[simp] theorem gateIdle_rst : (gateIdle s).rst = s.rst := rfl
@[simp] theorem ungateWaiting_rst : (ungateWaiting s).rst = s.rst := by simp [ungateWaiting]
@[simp] theorem noteBusy_rst : (noteBusy s).rst = s.rst := rfl
@[simp] theorem noteCool_rst (target) : (noteCool target s).rst = s.rst := rfl
@[simp] theorem loopShed_rst : (loopShed s).rst = s.rst := by simp [loopShed]
@[simp] theorem loopRestore_rst : (loopRestore s).rst = s.rst := by simp [loopRestore]
@[simp] theorem loopHeat_rst (target) : (loopHeat target s).rst = s.rst := by simp [loopHeat]
@[simp] theorem firmwareStops_rst (kind due) : (firmwareStops kind due s).rst = s.rst := rfl
@[simp] theorem handOver_rst (kind reason) : (handOver kind reason s).rst = s.rst := by simp [handOver]

/-! ### Schedulers -/

@[simp] theorem takeHead_rst (k c) : (takeHead k c s).rst = s.rst := by
  simp only [takeHead]
  repeat' split
  all_goals simp

@[simp] theorem refillSafe_rst : (refillSafe s).rst = s.rst := rfl

/-! ### Records of the dictionary -/

@[simp] theorem noteSummary_rst : (noteSummary s).rst = s.rst := by simp [noteSummary]

/-! ### Reads and writes of the dictionary -/

@[simp] theorem spent_rst : (spent s).rst = s.rst := rfl
@[simp] theorem dropDones_rst (sid key) : (dropDones sid key s).rst = s.rst := by unfold dropDones; split <;> rfl
@[simp] theorem writeNat_rst (sid x key v) : (writeNat sid x key v s).rst = s.rst := by simp [writeNat]

@[simp] theorem applyWrite_rst (q x e sub b) : (applyWrite q x e sub b s).rst = s.rst := by
  unfold applyWrite
  cases hstring : stringOf (dictKey e.index sub) b with
  | none => simp [hstring]
  | some v => simp [hstring]

@[simp] theorem resendSub_rst (sid slot) : (resendSub sid slot s).rst = s.rst := by
  unfold resendSub
  repeat' split
  all_goals simp

/-! ### Firmware -/

@[simp] theorem setSlot_rst (i m) : (setSlot i m s).rst = s.rst := rfl
@[simp] theorem commitImage_rst : (commitImage s).rst = s.rst := rfl
@[simp] theorem revert_rst : (revert s).rst = s.rst := rfl
@[simp] theorem keepHandoff_rst (reason) : (keepHandoff reason s).rst = s.rst := rfl
@[simp] theorem countRestart_rst : (countRestart s).rst = s.rst := rfl
@[simp] theorem loopDefaults_rst : (loopDefaults s).rst = s.rst := rfl
@[simp] theorem imageStarts_rst : (imageStarts s).rst = s.rst := by simp [imageStarts]
@[simp] theorem goOn_rst : (goOn s).rst = s.rst := by simp [goOn]

/-! ### The test access port -/

@[simp] theorem loadOpcode_rst (opcode out j) : (loadOpcode opcode out j s).rst = s.rst := rfl
@[simp] theorem loadBypass_rst : (loadBypass s).rst = s.rst := rfl

end Sys2Proof.Machine
end

section
/-! PROOFS. The commands that leave the reset state as it is: all but those whose meanings reset, boot or recover the node or a port, count a
detector, or report a test. -/
namespace Sys2Proof.Machine

-- Proofs are elaborated in turn, for the reason given above.
set_option deprecated.oldSectionVars true

variable {s t : State}

/-- Whatever state an outcome gives has the reset state of `s`. -/
def NextKeepsRst (s : State) (o : Host.Outcome State Fault Refusal) : Prop := ∀ t, o = .next t → KeepsRst s t

@[simp] theorem nextKeepsRst_next : NextKeepsRst s (.next t) ↔ t.rst = s.rst :=
  ⟨fun h => h t rfl, fun h _ ht => Host.Outcome.next.inj ht ▸ h⟩

@[simp] theorem tap_rst {always act} (h : ∀ t, KeepsRst t (act t)) : NextKeepsRst s (tap always act s) := by
  simp [tap, (h _).rst_eq]

/-! ### Tiering -/

theorem execCarModeNext_rst (q value) : NextKeepsRst s (execCarModeNext q value s) := by simp [execCarModeNext]
theorem execDirtyHigh_rst : NextKeepsRst s (execDirtyHigh s) := by simp [execDirtyHigh]

theorem execCarCommit_rst (q pga length recallOp) : NextKeepsRst s (execCarCommit q pga length recallOp s) := by
  unfold execCarCommit
  rw [nextKeepsRst_next]
  refine ask_rst fun _ _ => ?_
  dsimp only
  repeat' split
  all_goals simp

theorem execCommitComplete_rst (id) : NextKeepsRst s (execCommitComplete id s) := by
  unfold execCommitComplete
  rw [nextKeepsRst_next]
  split <;> simp

theorem execSegmentListFetch_rst (stream) : NextKeepsRst s (execSegmentListFetch stream s) := by
  simp only [execSegmentListFetch, nextKeepsRst_next]
  repeat' split
  all_goals simp

theorem execStageRetry_rst (stream block) : NextKeepsRst s (execStageRetry stream block s) := by
  simp only [execStageRetry, nextKeepsRst_next]
  repeat' split
  all_goals simp

theorem execCarStreamAlloc_rst (q) : NextKeepsRst s (execCarStreamAlloc q s) := by
  unfold execCarStreamAlloc
  rw [nextKeepsRst_next]
  refine ask_rst fun _ t => ?_
  cases tfresh t.car.streams (t.car.streams.length + 1) 0 <;> simp

theorem execCarStream_rst (q record) : NextKeepsRst s (execCarStream q record s) := by
  unfold execCarStream
  rw [nextKeepsRst_next]
  refine ask_rst fun _ _ => ?_
  dsimp only
  split <;> simp

theorem execStreamStart_rst (q) : NextKeepsRst s (execStreamStart q s) := by simp [execStreamStart]
theorem execStreamStop_rst (q) : NextKeepsRst s (execStreamStop q s) := by simp [execStreamStop]
theorem execStreamRewind_rst (q) : NextKeepsRst s (execStreamRewind q s) := by simp [execStreamRewind]
theorem execStreamFree_rst (q) : NextKeepsRst s (execStreamFree q s) := by simp [execStreamFree]

/-! ### The lending book -/

theorem execGrantClearDone_rst (entry) : NextKeepsRst s (execGrantClearDone entry s) := by
  unfold execGrantClearDone
  rw [nextKeepsRst_next]
  split <;> simp

theorem execPgaGrant_rst (q arg) : NextKeepsRst s (execPgaGrant q arg s) := by
  unfold execPgaGrant
  rw [nextKeepsRst_next]
  refine ask_rst fun _ t => ?_
  cases (if arg.length = 64 then grantArg t arg else none) <;> simp

theorem execReserveTimeout_rst (entry) : NextKeepsRst s (execReserveTimeout entry s) := by
  unfold execReserveTimeout
  rw [nextKeepsRst_next]
  split <;> simp

theorem execDcAcceptTimeout_rst (entry) : NextKeepsRst s (execDcAcceptTimeout entry s) := by
  unfold execDcAcceptTimeout
  rw [nextKeepsRst_next]
  split <;> simp

theorem execWinGrant_rst (q arg) : NextKeepsRst s (execWinGrant q arg s) := by
  unfold execWinGrant
  rw [nextKeepsRst_next]
  refine ask_rst fun _ _ => ?_
  dsimp only
  split <;> simp

theorem execWinBind_rst (q arg) : NextKeepsRst s (execWinBind q arg s) := by
  unfold execWinBind
  rw [nextKeepsRst_next]
  refine ask_rst fun _ _ => ?_
  dsimp only
  split
  · simp
  split
  · simp
  split
  · simp
  next n u halloc =>
    have hu : u.rst = _ := allocEntry_rst halloc
    repeat' split
    all_goals simp [hu]

theorem execPgaRevoke_rst (q entry) : NextKeepsRst s (execPgaRevoke q entry s) := by simp [execPgaRevoke]
theorem execPgaRevokeForced_rst (q entry) : NextKeepsRst s (execPgaRevokeForced q entry s) := by simp [execPgaRevokeForced]

theorem execDcReleaseTimeout_rst (entry) : NextKeepsRst s (execDcReleaseTimeout entry s) := by
  unfold execDcReleaseTimeout
  rw [nextKeepsRst_next]
  split <;> simp

theorem execRevokeRecallResend_rst (entry) : NextKeepsRst s (execRevokeRecallResend entry s) := by
  unfold execRevokeRecallResend
  rw [nextKeepsRst_next]
  split <;> simp

theorem execRevokeComplete_rst (entry) : NextKeepsRst s (execRevokeComplete entry s) := by
  unfold execRevokeComplete
  rw [nextKeepsRst_next]
  split <;> simp

theorem execPgaMigrate_rst (q entry coord) : NextKeepsRst s (execPgaMigrate q entry coord s) := by simp [execPgaMigrate]

theorem execMigrateCopyDone_rst (entry) : NextKeepsRst s (execMigrateCopyDone entry s) := by
  simp only [execMigrateCopyDone, nextKeepsRst_next]
  repeat' split
  all_goals simp

theorem execPgaRebind_rst (q old new length) : NextKeepsRst s (execPgaRebind q old new length s) := by simp [execPgaRebind]

theorem execDrainWindowExpiry_rst (entry) : NextKeepsRst s (execDrainWindowExpiry entry s) := by
  unfold execDrainWindowExpiry
  rw [nextKeepsRst_next]
  split <;> simp

theorem execReserve_rst (p) : NextKeepsRst s (execReserve p s) := by simp [execReserve]
theorem execRebindNotice_rst (p) : NextKeepsRst s (execRebindNotice p s) := by simp [execRebindNotice]
theorem execMigrateReserve_rst (p) : NextKeepsRst s (execMigrateReserve p s) := by simp [execMigrateReserve]

theorem execMigrateHandover_rst (p) : NextKeepsRst s (execMigrateHandover p s) := by
  unfold execMigrateHandover
  rw [nextKeepsRst_next]
  split
  · rfl
  · exact accepting_rst fun _ => by split <;> simp

theorem execMigrateRelease_rst (p) : NextKeepsRst s (execMigrateRelease p s) := by
  unfold execMigrateRelease
  rw [nextKeepsRst_next]
  split
  · rfl
  · exact accepting_rst fun _ => by split <;> simp

theorem execPurge_rst (p) : NextKeepsRst s (execPurge p s) := by simp [execPurge]
theorem execRevokeRecall_rst (p) : NextKeepsRst s (execRevokeRecall p s) := by simp [execRevokeRecall]

/-! ### Translation commands -/

theorem execAtsEnable_rst (port ld enable stu) : NextKeepsRst s (execAtsEnable port ld enable stu s) := by simp [execAtsEnable]
theorem execPriEnable_rst (port ld allocation) : NextKeepsRst s (execPriEnable port ld allocation s) := by simp [execPriEnable]

theorem execTranslationCompletion_rst (id status addr size perms) : NextKeepsRst s (execTranslationCompletion id status addr size perms s) := by
  unfold execTranslationCompletion
  rw [nextKeepsRst_next]
  split <;> simp

theorem execXlateTimeout_rst (id) : NextKeepsRst s (execXlateTimeout id s) := by
  unfold execXlateTimeout
  rw [nextKeepsRst_next]
  split <;> simp

theorem execInvalidateRequest_rst (port ld itag pasid addr length) :
    NextKeepsRst s (execInvalidateRequest port ld itag pasid addr length s) := by simp [execInvalidateRequest]
theorem execTlbInvalidate_rst (q ctx cva length) : NextKeepsRst s (execTlbInvalidate q ctx cva length s) := by simp [execTlbInvalidate]

theorem execEngineInvalidateAck_rst (id quad) : NextKeepsRst s (execEngineInvalidateAck id quad s) := by
  unfold execEngineInvalidateAck
  rw [nextKeepsRst_next]
  split <;> simp

theorem execPageGroupResponse_rst (index code pasid) : NextKeepsRst s (execPageGroupResponse index code pasid s) := by
  unfold execPageGroupResponse
  rw [nextKeepsRst_next]
  split <;> simp

theorem execFaultTimeout_rst (index) : NextKeepsRst s (execFaultTimeout index s) := by
  unfold execFaultTimeout
  rw [nextKeepsRst_next]
  split <;> simp

theorem execPortDownFaultTimeout_rst (index) : NextKeepsRst s (execPortDownFaultTimeout index s) := by
  simp only [execPortDownFaultTimeout, nextKeepsRst_next]
  repeat' split
  all_goals simp

/-! ### Commands of contexts, jobs and chunks -/

theorem execContextAssign_rst (q part) : NextKeepsRst s (execContextAssign q part s) := by simp [execContextAssign]
theorem execContextRelease_rst (q) : NextKeepsRst s (execContextRelease q s) := by simp [execContextRelease]
theorem execCleContext_rst (q record) : NextKeepsRst s (execCleContext q record s) := by simp [execCleContext]

theorem execBind_rst (q) : NextKeepsRst s (execBind q s) := by
  unfold execBind
  rw [nextKeepsRst_next]
  refine ask_rst fun _ _ => ?_
  dsimp only
  repeat' split
  all_goals simp

theorem execUnbind_rst (q) : NextKeepsRst s (execUnbind q s) := by simp [execUnbind]

theorem execUnbindComplete_rst (ctx) : NextKeepsRst s (execUnbindComplete ctx s) := by
  simp only [execUnbindComplete, nextKeepsRst_next]
  repeat' split
  all_goals simp

theorem execResume_rst (q) : NextKeepsRst s (execResume q s) := by simp [execResume]
theorem execContextReset_rst (q) : NextKeepsRst s (execContextReset q s) := by simp [execContextReset]

theorem execContextResetComplete_rst (ctx) : NextKeepsRst s (execContextResetComplete ctx s) := by
  simp only [execContextResetComplete, nextKeepsRst_next]
  repeat' split
  all_goals simp

theorem execSqTail_rst (port ld page value aligned) : NextKeepsRst s (execSqTail port ld page value aligned s) := by simp [execSqTail]
theorem execCqHead_rst (port ld page value aligned) : NextKeepsRst s (execCqHead port ld page value aligned s) := by simp [execCqHead]

theorem execDescriptorFetch_rst (ctx) : NextKeepsRst s (execDescriptorFetch ctx s) := by
  simp only [execDescriptorFetch, nextKeepsRst_next]
  repeat' split
  all_goals simp

theorem execJobComplete_rst (job) : NextKeepsRst s (execJobComplete job s) := by
  simp only [execJobComplete, nextKeepsRst_next]
  repeat' split
  all_goals simp

theorem execChunkIssue_rst (chunk quad upset) : NextKeepsRst s (execChunkIssue chunk quad upset s) := by
  simp only [execChunkIssue, nextKeepsRst_next]
  repeat' split
  all_goals simp

theorem execLeaveRequest_rst (chunk gen) : NextKeepsRst s (execLeaveRequest chunk gen s) := by
  simp only [execLeaveRequest, nextKeepsRst_next]
  repeat' split
  all_goals simp

theorem execChunkResult_rst (chunk gen) : NextKeepsRst s (execChunkResult chunk gen s) := by
  simp only [execChunkResult, nextKeepsRst_next]
  repeat' split
  all_goals simp

theorem execChunkError_rst (chunk gen err) : NextKeepsRst s (execChunkError chunk gen err s) := by
  unfold execChunkError
  rw [nextKeepsRst_next]
  split <;> simp

theorem execChunkTimeout_rst (chunk) : NextKeepsRst s (execChunkTimeout chunk s) := by
  unfold execChunkTimeout
  rw [nextKeepsRst_next]
  split <;> simp

theorem execLostTimeout_rst (n counter) : NextKeepsRst s (execLostTimeout n counter s) := by
  simp only [execLostTimeout, nextKeepsRst_next]
  repeat' split
  all_goals simp

theorem execKeepaliveSend_rst : NextKeepsRst s (execKeepaliveSend s) := by simp [execKeepaliveSend]

/-! ### Partitions, keys and the Sweep -/

theorem execKeyRecordTableDurable_rst : NextKeepsRst s (execKeyRecordTableDurable s) := by
  unfold execKeyRecordTableDurable
  rw [nextKeepsRst_next]
  split <;> simp

theorem execPartitionCreate_rst (q part) : NextKeepsRst s (execPartitionCreate q part s) := by simp [execPartitionCreate]
theorem execPartitionRotate_rst (q part) : NextKeepsRst s (execPartitionRotate q part s) := by simp [execPartitionRotate]

theorem execPartitionSweep_rst (q part) : NextKeepsRst s (execPartitionSweep q part s) := by
  unfold execPartitionSweep
  rw [nextKeepsRst_next]
  split
  · rfl
  · refine ask_rst fun _ t => ?_
    dsimp only
    split
    · simp
    split
    · simp
    · rw [keepsRst_iff, finish_rst, sweepRecalls_rst, each_rst, closeSessions_rst, each_rst]
      · simp
      · intro _ _
        split <;> simp
      · intro h u
        cases tfind (migrateFails h.1 stBusy u).pga.clears h.1 <;> simp

theorem execSweepStepDone_rst (part) : NextKeepsRst s (execSweepStepDone part s) := by simp [execSweepStepDone]

theorem execRekeyWrite_rst (part line) : NextKeepsRst s (execRekeyWrite part line s) := by
  simp only [execRekeyWrite, nextKeepsRst_next]
  repeat' split
  all_goals simp

theorem execRekeyDone_rst (part) : NextKeepsRst s (execRekeyDone part s) := by simp [execRekeyDone]
theorem execLckLdPartition_rst (q port ld value) : NextKeepsRst s (execLckLdPartition q port ld value s) := by simp [execLckLdPartition]
theorem execLckTenantCred_rst (q part digest) : NextKeepsRst s (execLckTenantCred q part digest s) := by simp [execLckTenantCred]
theorem execLckAttest_rst (q nonce) : NextKeepsRst s (execLckAttest q nonce s) := by simp [execLckAttest]

/-! ### Twin pairs -/

theorem execPartnerTimeout_rst : NextKeepsRst s (execPartnerTimeout s) := by simp [execPartnerTimeout]

theorem execHeartbeatSend_rst : NextKeepsRst s (execHeartbeatSend s) := by
  simp only [execHeartbeatSend, nextKeepsRst_next]
  repeat' split
  all_goals simp

theorem execHeartbeat_rst (p) : NextKeepsRst s (execHeartbeat p s) := by simp [execHeartbeat]

theorem execRejoinHistory_rst (p) : NextKeepsRst s (execRejoinHistory p s) := by
  simp only [execRejoinHistory, nextKeepsRst_next]
  repeat' split
  all_goals simp

theorem execStaleReport_rst (p) : NextKeepsRst s (execStaleReport p s) := by simp [execStaleReport]
theorem execStamp_rst (p) : NextKeepsRst s (execStamp p s) := by simp [execStamp]

theorem execBodyWaitTimeout_rst (order) : NextKeepsRst s (execBodyWaitTimeout order s) := by
  unfold execBodyWaitTimeout
  rw [nextKeepsRst_next]
  split <;> simp

theorem execPatch_rst (p) : NextKeepsRst s (execPatch p s) := by
  simp only [execPatch, nextKeepsRst_next]
  repeat' split
  all_goals simp

theorem execResilverUnit_rst : NextKeepsRst s (execResilverUnit s) := by
  simp only [execResilverUnit, nextKeepsRst_next]
  repeat' split
  all_goals simp

theorem execResilverMeta_rst (p) : NextKeepsRst s (execResilverMeta p s) := by simp [execResilverMeta]

theorem execTwnAttach_rst (q entry answer follow) : NextKeepsRst s (execTwnAttach q entry answer follow s) := by
  unfold execTwnAttach
  rw [nextKeepsRst_next]
  split <;> simp

theorem execTwnDetach_rst (q entry keep) : NextKeepsRst s (execTwnDetach q entry keep s) := by
  unfold execTwnDetach
  rw [nextKeepsRst_next]
  refine ask_rst fun _ _ => ?_
  dsimp only
  split <;> simp

theorem execDetachWaitExpiry_rst (entry) : NextKeepsRst s (execDetachWaitExpiry entry s) := by
  simp only [execDetachWaitExpiry, nextKeepsRst_next]
  repeat' split
  all_goals simp

theorem execTwnSwap_rst (q verify) : NextKeepsRst s (execTwnSwap q verify s) := by simp [execTwnSwap]

/-! ### The end of recalls -/

theorem execBirsp_rst (port ld bitag kind low) : NextKeepsRst s (execBirsp port ld bitag kind low s) := by
  simp only [execBirsp, nextKeepsRst_next]
  repeat' split
  all_goals simp

theorem execRecallOp_rst (p) : NextKeepsRst s (execRecallOp p s) := by
  simp only [execRecallOp, nextKeepsRst_next]
  repeat' split
  all_goals simp

theorem execProxyRecallTimeout_rst (pid) : NextKeepsRst s (execProxyRecallTimeout pid s) := by
  simp only [execProxyRecallTimeout, nextKeepsRst_next]
  repeat' split
  all_goals simp

theorem execRecallRsp_rst (p) : NextKeepsRst s (execRecallRsp p s) := by simp [execRecallRsp]

theorem execRecallTimeout_rst (rid) : NextKeepsRst s (execRecallTimeout rid s) := by
  unfold execRecallTimeout
  rw [nextKeepsRst_next]
  split <;> simp

theorem execRecallBackstopTimeout_rst (rid) : NextKeepsRst s (execRecallBackstopTimeout rid s) := by
  unfold execRecallBackstopTimeout
  rw [nextKeepsRst_next]
  split <;> simp

theorem execBiconflict_rst (port ld bitag done) : NextKeepsRst s (execBiconflict port ld bitag done s) := by
  simp only [execBiconflict, nextKeepsRst_next]
  repeat' split
  all_goals simp

theorem execProbe_rst (p done) : NextKeepsRst s (execProbe p done s) := by
  simp only [execProbe, nextKeepsRst_next]
  repeat' split
  all_goals simp

theorem execAnswer_rst (p) : NextKeepsRst s (execAnswer p s) := by
  simp only [execAnswer, nextKeepsRst_next]
  repeat' split
  all_goals simp

theorem execAck_rst (p) : NextKeepsRst s (execAck p s) := by
  simp only [execAck, nextKeepsRst_next]
  repeat' split
  all_goals simp

theorem execAckTimeout_rst (txn) : NextKeepsRst s (execAckTimeout txn s) := by
  unfold execAckTimeout
  rw [nextKeepsRst_next]
  split <;> simp

theorem execChannelFenced_rst (slice channel) : NextKeepsRst s (execChannelFenced slice channel s) := by simp [execChannelFenced]
theorem execLdgChannelReadmit_rst (q slice value) : NextKeepsRst s (execLdgChannelReadmit q slice value s) := by simp [execLdgChannelReadmit]

theorem execAutoReadmit_rst (slice) : NextKeepsRst s (execAutoReadmit slice s) := by
  simp only [execAutoReadmit, nextKeepsRst_next]
  repeat' split
  all_goals simp

theorem execLedgerScanDone_rst (slice set) : NextKeepsRst s (execLedgerScanDone slice set s) := by simp [execLedgerScanDone]

theorem execLdgClearPoison_rst (q pga) : NextKeepsRst s (execLdgClearPoison q pga s) := by
  unfold execLdgClearPoison
  rw [nextKeepsRst_next]
  refine ask_rst fun _ _ => ?_
  dsimp only
  repeat' split
  all_goals simp

/-! ### The DRAM stack controller -/

theorem execRefreshDue_rst (stack) : NextKeepsRst s (execRefreshDue stack s) := by simp [execRefreshDue]
theorem execTemperatureRead_rst (stack temp) : NextKeepsRst s (execTemperatureRead stack temp s) := by simp [execTemperatureRead]

theorem execLevelChangeDone_rst (stack) : NextKeepsRst s (execLevelChangeDone stack s) := by
  simp only [execLevelChangeDone, nextKeepsRst_next]
  repeat' split
  all_goals simp

theorem execRetrainingPause_rst (stack pc steps) : NextKeepsRst s (execRetrainingPause stack pc steps s) := by simp [execRetrainingPause]
theorem execHbmStackDrain_rst (q stack) : NextKeepsRst s (execHbmStackDrain q stack s) := by simp [execHbmStackDrain]
theorem execHbmStackRelease_rst (q stack) : NextKeepsRst s (execHbmStackRelease q stack s) := by simp [execHbmStackRelease]
theorem execHbmRetrainStack_rst (q stack value) : NextKeepsRst s (execHbmRetrainStack q stack value s) := by simp [execHbmRetrainStack]
theorem execRetrainingDone_rst (stack) : NextKeepsRst s (execRetrainingDone stack s) := by simp [execRetrainingDone]
theorem execPatrolScrub_rst (stack line found) : NextKeepsRst s (execPatrolScrub stack line found s) := by simp [execPatrolScrub]

/-! ### The Storekeeper -/

theorem execStageHoldExpiry_rst (block) : NextKeepsRst s (execStageHoldExpiry block s) := by
  unfold execStageHoldExpiry
  rw [nextKeepsRst_next]
  split <;> simp

theorem execFillArrives_rst (block found) : NextKeepsRst s (execFillArrives block found s) := by
  simp only [execFillArrives, nextKeepsRst_next]
  repeat' split
  all_goals simp

theorem execWriteBackDone_rst (block) : NextKeepsRst s (execWriteBackDone block s) := by
  unfold execWriteBackDone
  rw [nextKeepsRst_next]
  split <;> simp

theorem execProgramDone_rst (prog bad) : NextKeepsRst s (execProgramDone prog bad s) := by
  unfold execProgramDone
  dsimp only
  rw [nextKeepsRst_next]
  split
  · rfl
  split
  · rfl
  · rw [pumpFlash_rst, lunEnded_rst]
    split
    · split
      · rw [setStk_rst, stkCount_rst, unitWritten_rst]
      split
      · rw [mapUnit_rst, setStk_rst, stkCount_rst, unitWritten_rst]
      · rw [setStk_rst, stkCount_rst, unitWritten_rst]
    · rw [replace_rst]

theorem execRelocationDone_rst (prog bad found) : NextKeepsRst s (execRelocationDone prog bad found s) := by
  unfold execRelocationDone
  rw [nextKeepsRst_next]
  split <;> simp

theorem execGarbageCollection_rst : NextKeepsRst s (execGarbageCollection s) := by
  simp only [execGarbageCollection, nextKeepsRst_next]
  repeat' split
  all_goals simp

theorem execEraseDone_rst (group bad) : NextKeepsRst s (execEraseDone group bad s) := by
  simp only [execEraseDone, nextKeepsRst_next]
  repeat' split
  all_goals simp

theorem execOperationResume_rst (lun) : NextKeepsRst s (execOperationResume lun s) := by
  unfold execOperationResume
  rw [nextKeepsRst_next]
  split <;> simp

theorem execJournalRecordDurable_rst (seq) : NextKeepsRst s (execJournalRecordDurable seq s) := by
  unfold execJournalRecordDurable
  rw [nextKeepsRst_next]
  split <;> simp

theorem execCheckpointRoundStart_rst : NextKeepsRst s (execCheckpointRoundStart s) := by
  unfold execCheckpointRoundStart
  dsimp only
  rw [nextKeepsRst_next]
  split
  · rfl
  · rw [checkFree_rst, journalPair_rst, setStk_rst, beginRound_rst]

theorem execCheckpointRoundComplete_rst : NextKeepsRst s (execCheckpointRoundComplete s) := by
  unfold execCheckpointRoundComplete
  rw [nextKeepsRst_next]
  split <;> simp

theorem execTargetFailure_rst (target) : NextKeepsRst s (execTargetFailure target s) := by simp [execTargetFailure]

theorem execFlashPatrol_rst (unit found) : NextKeepsRst s (execFlashPatrol unit found s) := by
  simp only [execFlashPatrol, nextKeepsRst_next]
  repeat' split
  all_goals simp

theorem execStkFormat_rst (q value) : NextKeepsRst s (execStkFormat q value s) := by simp [execStkFormat]

/-! ### Hosts and errors of structures -/

theorem execPerstDeassert_rst (port) : NextKeepsRst s (execPerstDeassert port s) := by simp [execPerstDeassert]
theorem execPortTrained_rst (port rate width) : NextKeepsRst s (execPortTrained port rate width s) := by simp [execPortTrained]
theorem execCxlTrainingFails_rst (port cause) : NextKeepsRst s (execCxlTrainingFails port cause s) := by simp [execCxlTrainingFails]
theorem execPortResetDone_rst (port) : NextKeepsRst s (execPortResetDone port s) := by simp [execPortResetDone]

theorem execPurgeResend_rst (port) : NextKeepsRst s (execPurgeResend port s) := by
  unfold execPurgeResend
  rw [nextKeepsRst_next]
  split <;> simp

theorem execPurgeWaitTimeout_rst (id) : NextKeepsRst s (execPurgeWaitTimeout id s) := by simp [execPurgeWaitTimeout]
theorem execMemRdData_rst (m) : NextKeepsRst s (execMemRdData m s) := by simp [execMemRdData]
theorem execMemInv_rst (m) : NextKeepsRst s (execMemInv m s) := by simp [execMemInv]
theorem execMemInvNt_rst (m) : NextKeepsRst s (execMemInvNt m s) := by simp [execMemInvNt]
theorem execMemSpecRd_rst (m) : NextKeepsRst s (execMemSpecRd m s) := by simp [execMemSpecRd]
theorem execMemClnEvct_rst (m) : NextKeepsRst s (execMemClnEvct m s) := by simp [execMemClnEvct]
theorem execMemWr_rst (m data poison) : NextKeepsRst s (execMemWr m data poison s) := by simp [execMemWr]
theorem execMemWrPtl_rst (m data be poison) : NextKeepsRst s (execMemWrPtl m data be poison s) := by simp [execMemWrPtl]
theorem execUnsupportedM2s_rst (m) : NextKeepsRst s (execUnsupportedM2s m s) := by simp [execUnsupportedM2s]
theorem execBiDecoderProgram_rst (port ld biId) : NextKeepsRst s (execBiDecoderProgram port ld biId s) := by simp [execBiDecoderProgram]
theorem execHdmDecoderCommit_rst (port ld index d) : NextKeepsRst s (execHdmDecoderCommit port ld index d s) := by simp [execHdmDecoderCommit]
theorem execGpf_rst (_port) : NextKeepsRst s (execGpf _port s) := by simp [execGpf]
theorem execViral_rst (port) : NextKeepsRst s (execViral port s) := by simp [execViral]
theorem execAlertLatchClear_rst (value) : NextKeepsRst s (execAlertLatchClear value s) := by simp [execAlertLatchClear]
theorem execSafeThrottle_rst (value) : NextKeepsRst s (execSafeThrottle value s) := by simp [execSafeThrottle]
theorem execCxlRegionLength_rst (q port ld lengths) : NextKeepsRst s (execCxlRegionLength q port ld lengths s) := by simp [execCxlRegionLength]
theorem execCxlPortBifurcate_rst (q port value) : NextKeepsRst s (execCxlPortBifurcate q port value s) := by simp [execCxlPortBifurcate]

/-! ### The mailbox of a logical device -/

theorem execIdentify_rst (port ld) : NextKeepsRst s (execIdentify port ld s) := by simp [execIdentify]
theorem execBackgroundOperationStatus_rst (port ld) :
    NextKeepsRst s (execBackgroundOperationStatus port ld s) := by simp [execBackgroundOperationStatus]

theorem execGetEventRecords_rst (port ld log) : NextKeepsRst s (execGetEventRecords port ld log s) := by
  unfold execGetEventRecords
  rw [nextKeepsRst_next]
  split <;> simp

theorem execClearEventRecords_rst (port ld log all handles) : NextKeepsRst s (execClearEventRecords port ld log all handles s) := by
  unfold execClearEventRecords
  rw [nextKeepsRst_next]
  refine mailbox_rst fun _ => ?_
  dsimp only
  repeat' split
  all_goals rfl

theorem execGetEventInterruptPolicy_rst (port ld) : NextKeepsRst s (execGetEventInterruptPolicy port ld s) := by simp [execGetEventInterruptPolicy]

theorem execSetEventInterruptPolicy_rst (port ld policy) : NextKeepsRst s (execSetEventInterruptPolicy port ld policy s) := by
  unfold execSetEventInterruptPolicy
  rw [nextKeepsRst_next]
  split <;> simp

theorem execGetTimestamp_rst (port ld) : NextKeepsRst s (execGetTimestamp port ld s) := by simp [execGetTimestamp]
theorem execSetTimestamp_rst (port ld stamp) : NextKeepsRst s (execSetTimestamp port ld stamp s) := by simp [execSetTimestamp]
theorem execGetSupportedLogs_rst (port ld) : NextKeepsRst s (execGetSupportedLogs port ld s) := by simp [execGetSupportedLogs]

theorem execGetLog_rst (port ld uuid offset length) : NextKeepsRst s (execGetLog port ld uuid offset length s) := by
  simp only [execGetLog, nextKeepsRst_next]
  repeat' split
  all_goals simp

theorem execIdentifyMemoryDevice_rst (port ld) : NextKeepsRst s (execIdentifyMemoryDevice port ld s) := by simp [execIdentifyMemoryDevice]
theorem execGetPartitionInfo_rst (port ld) : NextKeepsRst s (execGetPartitionInfo port ld s) := by simp [execGetPartitionInfo]
theorem execGetHealthInfo_rst (port ld) : NextKeepsRst s (execGetHealthInfo port ld s) := by simp [execGetHealthInfo]
theorem execGetPoisonList_rst (port ld dpa length remote) :
    NextKeepsRst s (execGetPoisonList port ld dpa length remote s) := by simp [execGetPoisonList]
theorem execInjectPoison_rst (port ld dpa) : NextKeepsRst s (execInjectPoison port ld dpa s) := by simp [execInjectPoison]
theorem execClearPoison_rst (port ld dpa data) : NextKeepsRst s (execClearPoison port ld dpa data s) := by simp [execClearPoison]
theorem execGetDynamicCapacityConfiguration_rst (port ld count start) :
    NextKeepsRst s (execGetDynamicCapacityConfiguration port ld count start s) := by simp [execGetDynamicCapacityConfiguration]
theorem execGetDynamicCapacityExtentList_rst (port ld count start) :
    NextKeepsRst s (execGetDynamicCapacityExtentList port ld count start s) := by simp [execGetDynamicCapacityExtentList]

theorem execAddDynamicCapacityResponse_rst (port ld extents) : NextKeepsRst s (execAddDynamicCapacityResponse port ld extents s) := by
  unfold execAddDynamicCapacityResponse
  rw [nextKeepsRst_next]
  refine ldMailbox_rst fun t => ?_
  split
  · split <;> simp
  · dsimp only
    split <;> simp

theorem execReleaseDynamicCapacity_rst (port ld extents) : NextKeepsRst s (execReleaseDynamicCapacity port ld extents s) := by
  unfold execReleaseDynamicCapacity
  rw [nextKeepsRst_next]
  refine ldMailbox_rst fun _ => ?_
  dsimp only
  split <;> simp

theorem execUnsupportedMailbox_rst (port ld opcode) : NextKeepsRst s (execUnsupportedMailbox port ld opcode s) := by
  unfold execUnsupportedMailbox
  rw [nextKeepsRst_next]
  split <;> simp

/-! ### The link layer -/

theorem execFaultNoticeRepeat_rst : NextKeepsRst s (execFaultNoticeRepeat s) := by simp [execFaultNoticeRepeat]
theorem execFault_rst (p) : NextKeepsRst s (execFault p s) := by simp [execFault]
theorem execDataFlit_rst (port f) : NextKeepsRst s (execDataFlit port f s) := by simp [execDataFlit]
theorem execControlFlit_rst (port f) : NextKeepsRst s (execControlFlit port f s) := by simp [execControlFlit]
theorem execAckReport_rst (port) : NextKeepsRst s (execAckReport port s) := by simp [execAckReport]
theorem execNakResend_rst (port) : NextKeepsRst s (execNakResend port s) := by simp [execNakResend]

theorem execReplayTimeout_rst (port) : NextKeepsRst s (execReplayTimeout port s) := by
  simp only [execReplayTimeout, nextKeepsRst_next]
  repeat' split
  all_goals simp

theorem execDeadTime_rst (port lockLost) : NextKeepsRst s (execDeadTime port lockLost s) := by simp [execDeadTime]
theorem execPhyTrained_rst (port reversed polarity) : NextKeepsRst s (execPhyTrained port reversed polarity s) := by simp [execPhyTrained]
theorem execTrainingFails_rst (port) : NextKeepsRst s (execTrainingFails port s) := by simp [execTrainingFails]
theorem execOffer_rst (port f) : NextKeepsRst s (execOffer port f s) := by simp [execOffer]
theorem execAccept_rst (port f) : NextKeepsRst s (execAccept port f s) := by simp [execAccept]
theorem execOfferResend_rst (port) : NextKeepsRst s (execOfferResend port s) := by simp [execOfferResend]
theorem execLnkRetryInterval_rst (port) : NextKeepsRst s (execLnkRetryInterval port s) := by simp [execLnkRetryInterval]
theorem execLnkReinjectExpired_rst : NextKeepsRst s (execLnkReinjectExpired s) := by simp [execLnkReinjectExpired]
theorem execAcceptancePass_rst : NextKeepsRst s (execAcceptancePass s) := by simp [execAcceptancePass]
theorem execMarPortEnable_rst (q port value) : NextKeepsRst s (execMarPortEnable q port value s) := by simp [execMarPortEnable]
theorem execMarNodeCoord_rst (q value) : NextKeepsRst s (execMarNodeCoord q value s) := by simp [execMarNodeCoord]
theorem execMarRingSize_rst (q value) : NextKeepsRst s (execMarRingSize q value s) := by simp [execMarRingSize]
theorem execMarRoute_rst (q value) : NextKeepsRst s (execMarRoute q value s) := by simp [execMarRoute]
theorem execMarRouteReset_rst (q value) : NextKeepsRst s (execMarRouteReset q value s) := by simp [execMarRouteReset]

/-! ### The fabric's packets -/

theorem execTransitReinject_rst : NextKeepsRst s (execTransitReinject s) := by
  unfold execTransitReinject
  rw [nextKeepsRst_next]
  split <;> simp

theorem execTransitAck_rst (p) : NextKeepsRst s (execTransitAck p s) := by
  simp only [execTransitAck, nextKeepsRst_next]
  repeat' split
  all_goals simp

theorem execSpillSend_rst : NextKeepsRst s (execSpillSend s) := by
  unfold execSpillSend
  rw [nextKeepsRst_next]
  split <;> simp

theorem execTagAllocate_rst : NextKeepsRst s (execTagAllocate s) := by
  simp only [execTagAllocate, nextKeepsRst_next]
  repeat' split
  all_goals simp

theorem execTagQuarantineEnd_rst (tag) : NextKeepsRst s (execTagQuarantineEnd tag s) := by
  unfold execTagQuarantineEnd
  rw [nextKeepsRst_next]
  split <;> simp

theorem execChunkWriteDiscard_rst (src tag) : NextKeepsRst s (execChunkWriteDiscard src tag s) := by
  unfold execChunkWriteDiscard
  rw [nextKeepsRst_next]
  split <;> simp

theorem execRead_rst (p) : NextKeepsRst s (execRead p s) := by simp [execRead]
theorem execWrite_rst (p) : NextKeepsRst s (execWrite p s) := by simp [execWrite]
theorem execCleanEvict_rst (p) : NextKeepsRst s (execCleanEvict p s) := by simp [execCleanEvict]
theorem execAtomic_rst (p) : NextKeepsRst s (execAtomic p s) := by simp [execAtomic]
theorem execAppend_rst (p) : NextKeepsRst s (execAppend p s) := by simp [execAppend]
theorem execCommit_rst (p) : NextKeepsRst s (execCommit p s) := by simp [execCommit]
theorem execStage_rst (p) : NextKeepsRst s (execStage p s) := by simp [execStage]
theorem execUnreference_rst (p) : NextKeepsRst s (execUnreference p s) := by simp [execUnreference]
theorem execWindowBind_rst (p) : NextKeepsRst s (execWindowBind p s) := by simp [execWindowBind]

theorem execChunkWrite_rst (p) : NextKeepsRst s (execChunkWrite p s) := by
  unfold execChunkWrite
  rw [nextKeepsRst_next, rst_ite, settle_rst, accepting_rst fun _ => joinOp_rst fun _ _ => ?_, ite_self]
  simp

theorem execCount_rst (p) : NextKeepsRst s (execCount p s) := by simp [execCount]

theorem execKeepalive_rst (p) : NextKeepsRst s (execKeepalive p s) := by
  simp only [execKeepalive, nextKeepsRst_next]
  repeat' split
  all_goals simp

theorem execData_rst (p) : NextKeepsRst s (execData p s) := by simp [execData]
theorem execDone_rst (p) : NextKeepsRst s (execDone p s) := by simp [execDone]

theorem execSecondTimeout_rst (tag) : NextKeepsRst s (execSecondTimeout tag s) := by
  simp only [execSecondTimeout, nextKeepsRst_next]
  repeat' split
  all_goals simp

theorem execCompareWindowExpiry_rst (tag) : NextKeepsRst s (execCompareWindowExpiry tag s) := by
  simp only [execCompareWindowExpiry, nextKeepsRst_next]
  repeat' split
  all_goals simp

theorem execRequestTimeout_rst (tag) : NextKeepsRst s (execRequestTimeout tag s) := by
  unfold execRequestTimeout
  rw [nextKeepsRst_next]
  split <;> simp

theorem execTagHoldExpiry_rst (tag) : NextKeepsRst s (execTagHoldExpiry tag s) := by
  unfold execTagHoldExpiry
  rw [nextKeepsRst_next]
  split <;> simp

/-! ### Admission to a confidential host -/

theorem execGetVersion_rst (port ld) : NextKeepsRst s (execGetVersion port ld s) := by simp [execGetVersion]
theorem execGetCapabilities_rst (port ld) : NextKeepsRst s (execGetCapabilities port ld s) := by simp [execGetCapabilities]
theorem execNegotiateAlgorithms_rst (port ld) : NextKeepsRst s (execNegotiateAlgorithms port ld s) := by simp [execNegotiateAlgorithms]
theorem execGetDigests_rst (port ld) : NextKeepsRst s (execGetDigests port ld s) := by simp [execGetDigests]
theorem execGetCertificate_rst (port ld offset length) : NextKeepsRst s (execGetCertificate port ld offset length s) := by simp [execGetCertificate]
theorem execChallenge_rst (port ld slot nonce) : NextKeepsRst s (execChallenge port ld slot nonce s) := by simp [execChallenge]
theorem execGetMeasurements_rst (port ld index nonce) : NextKeepsRst s (execGetMeasurements port ld index nonce s) := by simp [execGetMeasurements]
theorem execKeyExchange_rst (port ld random) : NextKeepsRst s (execKeyExchange port ld random s) := by simp [execKeyExchange]

theorem execFinish_rst (port ld session) : NextKeepsRst s (execFinish port ld session s) := by
  unfold execFinish
  rw [nextKeepsRst_next]
  exact spdm_rst fun _ _ => by split <;> simp

theorem execKeyUpdate_rst (port ld session op) : NextKeepsRst s (execKeyUpdate port ld session op s) := by simp [execKeyUpdate]
theorem execSpdmHeartbeat_rst (port ld session) : NextKeepsRst s (execSpdmHeartbeat port ld session s) := by simp [execSpdmHeartbeat]
theorem execEndSession_rst (port ld session) : NextKeepsRst s (execEndSession port ld session s) := by simp [execEndSession]
theorem execChunkSend_rst (port ld seq last part) : NextKeepsRst s (execChunkSend port ld seq last part s) := by simp [execChunkSend]
theorem execChunkGet_rst (port ld seq) : NextKeepsRst s (execChunkGet port ld seq s) := by simp [execChunkGet]
theorem execQuery_rst (port ld session) : NextKeepsRst s (execQuery port ld session s) := by simp [execQuery]
theorem execKeyProg_rst (port ld session stream) : NextKeepsRst s (execKeyProg port ld session stream s) := by simp [execKeyProg]
theorem execKSetGo_rst (port ld session stream) : NextKeepsRst s (execKSetGo port ld session stream s) := by simp [execKSetGo]
theorem execKSetStop_rst (port ld session stream) : NextKeepsRst s (execKSetStop port ld session stream s) := by simp [execKSetStop]
theorem execIdeIntegrityFailure_rst (port ld stream) : NextKeepsRst s (execIdeIntegrityFailure port ld stream s) := by simp [execIdeIntegrityFailure]
theorem execGetTdispVersion_rst (port ld session) : NextKeepsRst s (execGetTdispVersion port ld session s) := by simp [execGetTdispVersion]
theorem execGetTdispCapabilities_rst (port ld session) :
    NextKeepsRst s (execGetTdispCapabilities port ld session s) := by simp [execGetTdispCapabilities]
theorem execLockInterfaceRequest_rst (port ld session) :
    NextKeepsRst s (execLockInterfaceRequest port ld session s) := by simp [execLockInterfaceRequest]
theorem execGetDeviceInterfaceReport_rst (port ld session offset length) :
    NextKeepsRst s (execGetDeviceInterfaceReport port ld session offset length s) := by simp [execGetDeviceInterfaceReport]
theorem execGetDeviceInterfaceState_rst (port ld session) :
    NextKeepsRst s (execGetDeviceInterfaceState port ld session s) := by simp [execGetDeviceInterfaceState]
theorem execStartInterfaceRequest_rst (port ld session nonce) :
    NextKeepsRst s (execStartInterfaceRequest port ld session nonce s) := by simp [execStartInterfaceRequest]
theorem execStopInterfaceRequest_rst (port ld session) :
    NextKeepsRst s (execStopInterfaceRequest port ld session s) := by simp [execStopInterfaceRequest]
theorem execLockedRegisterWrite_rst (port ld) : NextKeepsRst s (execLockedRegisterWrite port ld s) := by simp [execLockedRegisterWrite]
theorem execMaskClear_rst (port ld vector entry) : NextKeepsRst s (execMaskClear port ld vector entry s) := by simp [execMaskClear]

/-! ### Interrupts and events -/

theorem execCoalesceTimer_rst (ctx) : NextKeepsRst s (execCoalesceTimer ctx s) := by
  simp only [execCoalesceTimer, nextKeepsRst_next]
  repeat' split
  all_goals simp

theorem execHoldoffEnd_rst (port ld group) : NextKeepsRst s (execHoldoffEnd port ld group s) := by
  unfold execHoldoffEnd
  rw [nextKeepsRst_next]
  split <;> simp

theorem execIrqGlobalDisable_rst (q value) : NextKeepsRst s (execIrqGlobalDisable q value s) := by
  unfold execIrqGlobalDisable
  rw [nextKeepsRst_next]
  refine ask_rst fun _ _ => ?_
  dsimp only
  split <;> simp

theorem execIrqCqCoalesce_rst (q count time) : NextKeepsRst s (execIrqCqCoalesce q count time s) := by simp [execIrqCqCoalesce]

theorem execClaim_rst (core) : NextKeepsRst s (execClaim core s) := by
  simp only [execClaim, nextKeepsRst_next]
  repeat' split
  all_goals simp

theorem execEoi_rst (core source) : NextKeepsRst s (execEoi core source s) := by
  simp only [execEoi, nextKeepsRst_next]
  repeat' split
  all_goals simp

theorem execSourceConfigWrite_rst (core source value) : NextKeepsRst s (execSourceConfigWrite core source value s) := by simp [execSourceConfigWrite]

theorem execEventWrite_rst : NextKeepsRst s (execEventWrite s) := by
  unfold execEventWrite
  rw [nextKeepsRst_next]
  split <;> simp

/-! ### Self-tests -/

theorem execTstCxlHoldRelease_rst (q port) : NextKeepsRst s (execTstCxlHoldRelease q port s) := by simp [execTstCxlHoldRelease]

/-! ### The management processor -/

theorem execFrameReceived_rst (frame fcsOk) : NextKeepsRst s (execFrameReceived frame fcsOk s) := by
  simp only [execFrameReceived, nextKeepsRst_next]
  repeat' split
  all_goals simp

theorem execBankRelease_rst : NextKeepsRst s (execBankRelease s) := by simp [execBankRelease]
theorem execOverrun_rst : NextKeepsRst s (execOverrun s) := by simp [execOverrun]

theorem execDtlsHandshake_rst (cert) : NextKeepsRst s (execDtlsHandshake cert s) := by
  simp only [execDtlsHandshake, nextKeepsRst_next]
  repeat' split
  all_goals simp

theorem execSessionIdleTimeout_rst (sid) : NextKeepsRst s (execSessionIdleTimeout sid s) := by
  unfold execSessionIdleTimeout
  rw [nextKeepsRst_next]
  split <;> simp

theorem execRdmaQpOpen_rst (q remoteAddr remoteQp mtu) : NextKeepsRst s (execRdmaQpOpen q remoteAddr remoteQp mtu s) := by
  unfold execRdmaQpOpen
  rw [nextKeepsRst_next]
  refine ask_rst fun _ _ => ?_
  dsimp only
  repeat' split
  all_goals simp

theorem execRdmaQpClose_rst (q qp) : NextKeepsRst s (execRdmaQpClose q qp s) := by
  unfold execRdmaQpClose
  rw [nextKeepsRst_next]
  refine ask_rst fun _ _ => ?_
  dsimp only
  split <;> simp

theorem execRdmaRegionRegister_rst (q base length part perms) : NextKeepsRst s (execRdmaRegionRegister q base length part perms s) := by
  unfold execRdmaRegionRegister
  rw [nextKeepsRst_next]
  refine ask_rst fun _ _ => ?_
  dsimp only
  repeat' split
  all_goals simp

theorem execRdmaRegionRemove_rst (q rkey) : NextKeepsRst s (execRdmaRegionRemove q rkey s) := by
  unfold execRdmaRegionRemove
  rw [nextKeepsRst_next]
  refine ask_rst fun _ _ => ?_
  dsimp only
  split <;> simp

theorem execSahDrain_rst (q pga length qp addr rkey) : NextKeepsRst s (execSahDrain q pga length qp addr rkey s) := by
  unfold execSahDrain
  rw [nextKeepsRst_next]
  refine ask_rst fun _ _ => ?_
  dsimp only
  repeat' split
  all_goals simp

theorem execRdmaWrite_rst (qp rkey va data) : NextKeepsRst s (execRdmaWrite qp rkey va data s) := by
  simp only [execRdmaWrite, nextKeepsRst_next]
  repeat' split
  all_goals simp

theorem execRdmaRead_rst (qp rkey va length) : NextKeepsRst s (execRdmaRead qp rkey va length s) := by
  simp only [execRdmaRead, nextKeepsRst_next]
  repeat' split
  all_goals simp

theorem execDrainAcknowledged_rst (drain bytes ok) : NextKeepsRst s (execDrainAcknowledged drain bytes ok s) := by
  simp only [execDrainAcknowledged, nextKeepsRst_next]
  repeat' split
  all_goals simp

theorem execLoopTick_rst (power temps) : NextKeepsRst s (execLoopTick power temps s) := by simp [execLoopTick]
theorem execSahAlertClear_rst (q value) : NextKeepsRst s (execSahAlertClear q value s) := by simp [execSahAlertClear]
theorem execFwHostDeclare_rst (q major minor name) : NextKeepsRst s (execFwHostDeclare q major minor name s) := by simp [execFwHostDeclare]
theorem execSahWallTime_rst (q value) : NextKeepsRst s (execSahWallTime q value s) := by simp [execSahWallTime]

/-! ### Schedulers -/

theorem execSchedulerSelect_rst (sched) : NextKeepsRst s (execSchedulerSelect sched s) := by
  simp only [execSchedulerSelect, nextKeepsRst_next]
  repeat' split
  all_goals simp

theorem execRefill_rst : NextKeepsRst s (execRefill s) := by simp [execRefill]

theorem execWheelSlot_rst (sched cls) : NextKeepsRst s (execWheelSlot sched cls s) := by
  simp only [execWheelSlot, nextKeepsRst_next]
  repeat' split
  all_goals simp

theorem execGateEntry_rst (sched) : NextKeepsRst s (execGateEntry sched s) := by simp [execGateEntry]
theorem execWghBurst_rst (q cls value) : NextKeepsRst s (execWghBurst q cls value s) := by simp [execWghBurst]
theorem execWghOverhead_rst (q cls value) : NextKeepsRst s (execWghOverhead q cls value s) := by simp [execWghOverhead]
theorem execWghGateList_rst (q list) : NextKeepsRst s (execWghGateList q list s) := by simp [execWghGateList]
theorem execWghSafeClear_rst (q value) : NextKeepsRst s (execWghSafeClear q value s) := by simp [execWghSafeClear]

/-! ### Reads and writes of the dictionary -/

theorem execNasidomRead_rst (q index sub offset) : NextKeepsRst s (execNasidomRead q index sub offset s) := by
  unfold execNasidomRead
  rw [nextKeepsRst_next]
  split
  · simp
  · refine ask_rst fun _ _ => ?_
    dsimp only
    split <;> simp

theorem execNasidomWrite_rst (q index sub offset last part) : NextKeepsRst s (execNasidomWrite q index sub offset last part s) := by
  unfold execNasidomWrite
  rw [nextKeepsRst_next]
  split
  · simp
  · dsimp only
    split
    · split <;> simp
    · refine ask_rst fun x t => ?_
      cases stage (keepStaged x (dictKey index sub)) (dictKey index sub) offset part <;> simp

theorem execSubscribeAdd_rst (q slot low high severity start) : NextKeepsRst s (execSubscribeAdd q slot low high severity start s) := by
  unfold execSubscribeAdd
  rw [nextKeepsRst_next]
  refine ask_rst fun _ _ => ?_
  dsimp only
  repeat' split
  all_goals simp

theorem execSubscribeRemove_rst (q slot) : NextKeepsRst s (execSubscribeRemove q slot s) := by simp [execSubscribeRemove]

theorem execSubscribeAcknowledge_rst (q slot seq) : NextKeepsRst s (execSubscribeAcknowledge q slot seq s) := by
  unfold execSubscribeAcknowledge
  rw [nextKeepsRst_next]
  refine ask_rst fun _ _ => ?_
  dsimp only
  repeat' split
  all_goals simp

theorem execSummary_rst (q) : NextKeepsRst s (execSummary q s) := by simp [execSummary]

theorem execNoticeResend_rst (sid) : NextKeepsRst s (execNoticeResend sid s) := by
  simp only [execNoticeResend, nextKeepsRst_next]
  repeat' split
  all_goals simp

/-! ### Firmware -/

theorem execFwStageData_rst (q data) : NextKeepsRst s (execFwStageData q data s) := by simp [execFwStageData]
theorem execFwUpdateVerify_rst (q) : NextKeepsRst s (execFwUpdateVerify q s) := by simp [execFwUpdateVerify]
theorem execFwUpdateCommit_rst (q) : NextKeepsRst s (execFwUpdateCommit q s) := by simp [execFwUpdateCommit]
theorem execFwUpdateRevert_rst (q) : NextKeepsRst s (execFwUpdateRevert q s) := by simp [execFwUpdateRevert]
theorem execFwUpdateCommitSvn_rst (q) : NextKeepsRst s (execFwUpdateCommitSvn q s) := by simp [execFwUpdateCommitSvn]
theorem execFwRestart_rst (q value) : NextKeepsRst s (execFwRestart q value s) := by simp [execFwRestart]
theorem execWatchdogKick_rst (core) : NextKeepsRst s (execWatchdogKick core s) := by simp [execWatchdogKick]

theorem execRootOfTrustRestartDone_rst : NextKeepsRst s (execRootOfTrustRestartDone s) := by
  unfold execRootOfTrustRestartDone
  rw [nextKeepsRst_next]
  split <;> simp

theorem execSahtinUeTrap_rst (core place) : NextKeepsRst s (execSahtinUeTrap core place s) := by simp [execSahtinUeTrap]

/-! ### The test access port -/

theorem execExtest_rst (shift sampled) : NextKeepsRst s (execExtest shift sampled s) := by simp [execExtest]
theorem execSamplePreload_rst (shift sampled) : NextKeepsRst s (execSamplePreload shift sampled s) := by simp [execSamplePreload]
theorem execIdcode_rst : NextKeepsRst s (execIdcode s) := by simp [execIdcode]
theorem execUsercode_rst : NextKeepsRst s (execUsercode s) := by simp [execUsercode]
theorem execClamp_rst : NextKeepsRst s (execClamp s) := by simp [execClamp]
theorem execHighz_rst : NextKeepsRst s (execHighz s) := by simp [execHighz]
theorem execExtestPulse_rst (shift idles) : NextKeepsRst s (execExtestPulse shift idles s) := by simp [execExtestPulse]
theorem execExtestTrain_rst (shift ticks) : NextKeepsRst s (execExtestTrain shift ticks s) := by simp [execExtestTrain]
theorem execBypass_rst (opcode) : NextKeepsRst s (execBypass opcode s) := by simp [execBypass]

/-! ### Error counting -/

theorem execCeWindowEnd_rst : NextKeepsRst s (execCeWindowEnd s) := by simp [execCeWindowEnd]

/-! ### The ring -/

theorem execRingInject_rst (src dst line isReq) : NextKeepsRst s (execRingInject src dst line isReq s) := by simp [execRingInject]

theorem execRingEject_rst (stop) : NextKeepsRst s (execRingEject stop s) := by
  unfold execRingEject
  rw [nextKeepsRst_next]
  split <;> simp

/-! ### Window commands -/

theorem execContrib_rst (p upset) : NextKeepsRst s (execContrib p upset s) := by simp [execContrib]

theorem execContribTimeout_rst (home seq) : NextKeepsRst s (execContribTimeout home seq s) := by
  unfold execContribTimeout
  rw [nextKeepsRst_next]
  split <;> simp

theorem execReleaseResend_rst (home seq) : NextKeepsRst s (execReleaseResend home seq s) := by
  unfold execReleaseResend
  rw [nextKeepsRst_next]
  split <;> simp

theorem execRelease_rst (p) : NextKeepsRst s (execRelease p s) := by simp [execRelease]

theorem execWinRearm_rst (q expected) : NextKeepsRst s (execWinRearm q expected s) := by
  unfold execWinRearm
  rw [nextKeepsRst_next]
  refine ask_rst fun _ _ => ?_
  dsimp only
  split <;> simp

theorem execGeneration_rst (p) : NextKeepsRst s (execGeneration p s) := by
  simp only [execGeneration, nextKeepsRst_next]
  repeat' split
  all_goals simp

theorem execRearmTimeout_rst (entry) : NextKeepsRst s (execRearmTimeout entry s) := by simp [execRearmTimeout]

end Sys2Proof.Machine
end

section
/-! PROOFS. The recovery pin and the reset pin (R622): what a cold reset, a boot and a node recovery do to the reset state, and that nothing but
the rise of NODE_RESET_N ends a reset held by that pin. -/
namespace Sys2Proof.Machine

-- Proofs are elaborated in turn, for the reason given above.
set_option deprecated.oldSectionVars true

variable {s t : State}

/-! ### A held reset -/

/-- Held in cold reset with NODE_RESET_N low (R622). -/
def ResetHeld (r : Rst) : Prop := r.inReset = true ∧ r.resetN = false

theorem ResetHeld.of_rst (h : ResetHeld s.rst) (ht : t.rst = s.rst) : ResetHeld t.rst := ht ▸ h

theorem each_resetHeld {α : Type} {l : List α} {f : α → State → State} (h : ResetHeld s.rst)
    (hf : ∀ a t, ResetHeld t.rst → ResetHeld (f a t).rst) : ResetHeld (each l f s).rst :=
  each_induct (P := fun t => ResetHeld t.rst) h fun a _ => hf a

theorem ask_resetHeld {q roles key changes act} (h : ResetHeld s.rst)
    (hact : ∀ x t, ResetHeld t.rst → ResetHeld (act x t).rst) : ResetHeld (ask q roles key changes act s).rst :=
  ask_keeps (P := fun t => ResetHeld t.rst) h (fun _ _ hk ht => by obtain ⟨_, _, rfl⟩ := hk; exact ht) hact

/-! ### Cold reset and the cold boot (R575 to R579) -/

theorem coldReset_resetHeld (h : s.rst.resetN = false) : ResetHeld (coldReset s).rst := ⟨rfl, h⟩

theorem startBoot_resetHeld (h : ResetHeld s.rst) : ResetHeld (startBoot s).rst := by rwa [startBoot_of_resetN_low h.2]

theorem enterFault_resetHeld (h : ResetHeld s.rst) : ResetHeld (enterFault s).rst := h

theorem bootFails_resetHeld (code) (h : ResetHeld s.rst) : ResetHeld (bootFails code s).rst := by
  unfold bootFails
  rw [raise_rst]
  exact enterFault_resetHeld h

theorem stepTook_resetHeld (i) (h : ResetHeld s.rst) : ResetHeld (stepTook i s).rst := h

theorem bootCores_resetHeld (h : ResetHeld s.rst) : ResetHeld (bootCores s).rst := by
  unfold bootCores
  refine each_resetHeld ?_ fun _ _ ht => ?_
  · rw [writeHandoff_rst, applyStored_rst, startCores_rst]
    exact h
  split <;> simpa using ht

theorem enterService_resetHeld (h : ResetHeld s.rst) : ResetHeld (enterService s).rst := by
  unfold enterService
  refine each_resetHeld h fun _ _ ht => ?_
  dsimp only
  repeat' split
  all_goals simpa using ht

/-! ### Port resets (R83) -/

theorem portActions_rst (k) : ∃ n, (portActions k s).rst = { s.rst with portResets := n } := by
  unfold portActions
  refine ⟨s.rst.portResets + 1, ?_⟩
  rw [each_rst, clearHolders_rst, each_rst]
  · intro _ _; simp
  · intro _ _; simp

theorem portActions_resetHeld (k) (h : ResetHeld s.rst) : ResetHeld (portActions k s).rst := by
  obtain ⟨n, hn⟩ := portActions_rst (s := s) k
  rw [hn]
  exact h

theorem resetPort_resetHeld (k) (h : ResetHeld s.rst) : ResetHeld (resetPort k s).rst := by
  have hacted := portActions_resetHeld k h
  unfold resetPort
  dsimp only
  repeat' split
  all_goals simpa using hacted

theorem portResetCommand_resetHeld (k) (h : ResetHeld s.rst) : ResetHeld (portResetCommand k s).rst := by
  unfold portResetCommand
  dsimp only
  repeat' split
  · exact resetPort_resetHeld k h
  all_goals simpa using h

theorem recoverPorts_rst : ∃ n, (recoverPorts s).rst = { s.rst with portResets := n } := by
  unfold recoverPorts
  refine each_induct (P := fun t => ∃ n, t.rst = { s.rst with portResets := n }) ⟨s.rst.portResets, rfl⟩ fun k _ t ⟨n, hn⟩ => ?_
  obtain ⟨m, hm⟩ := portActions_rst (s := t) k
  refine ⟨m, ?_⟩
  rw [setPort_rst, hm, hn]

/-! ### Node recovery (R583) -/

theorem beginRecovery_rst (k) (h : s.rst.nodeState = 1 ∨ s.rst.nodeState = 3) : ∃ n, (beginRecovery k s).rst = { s.rst with
    nodeState := 2, ready := false, recovering := true, lastRecovery := s.now, trigger := k, portResets := n } := by
  have hstate : (s.rst.nodeState != 1 && s.rst.nodeState != 3) = false := by rcases h with h | h <;> simp [h]
  unfold beginRecovery
  rw [if_neg (by simp [hstate])]
  dsimp only
  rw [stopSahtin_rst, recoverBook_rst, recoverTwins_rst, recoverWindows_rst, recoverContexts_rst, recoverTally_rst, recoverFabric_rst,
    recoverWeigh_rst, recoverStacks_rst, recoverFlash_rst, recoverCarter_rst]
  obtain ⟨n, hn⟩ := recoverPorts_rst (s := recoverLedger { s with rst := { s.rst with
    nodeState := 2, ready := false, recovering := true, lastRecovery := s.now, trigger := k } })
  exact ⟨n, by rw [hn, recoverLedger_rst]⟩

theorem beginRecovery_resetHeld (k) (h : ResetHeld s.rst) : ResetHeld (beginRecovery k s).rst := by
  by_cases hstate : s.rst.nodeState = 1 ∨ s.rst.nodeState = 3
  · obtain ⟨n, hn⟩ := beginRecovery_rst k hstate
    rw [hn]
    exact h
  · have hnot : (s.rst.nodeState != 1 && s.rst.nodeState != 3) = true := by simpa using hstate
    unfold beginRecovery
    rwa [if_pos hnot]

theorem countDetector_resetHeld (row) (h : ResetHeld s.rst) : ResetHeld (countDetector row s).rst := h

theorem watchdogFires_resetHeld (core) (h : ResetHeld s.rst) : ResetHeld (watchdogFires core s).rst := by
  unfold watchdogFires
  rw [raise_rst]
  exact countDetector_resetHeld 4 (by rwa [latchAlert_rst])

theorem recoveryUpset_resetHeld (structure_) (h : ResetHeld s.rst) : ResetHeld (recoveryUpset structure_ s).rst := by
  unfold recoveryUpset
  split
  · exact beginRecovery_resetHeld 10 (by rwa [nodeError_rst])
  · exact h

theorem readCritical_resetHeld (w mask) (h : ResetHeld s.rst) : ResetHeld (readCritical w mask s).rst := by
  unfold readCritical
  dsimp only
  repeat' split
  · exact h
  · exact enterFault_resetHeld (by rwa [raise_rst, countError_rst])
  · exact h

theorem structureUpset_resetHeld (up line) (h : ResetHeld s.rst) : ResetHeld (structureUpset up line s).rst := by
  unfold structureUpset
  dsimp only
  split
  case h_1 => exact readCritical_resetHeld _ _ h
  case h_7 | h_9 | h_10 => exact recoveryUpset_resetHeld _ h
  case h_13 =>
    have hrecovers := recoveryUpset_resetHeld 22 h
    split
    · split
      · exact hrecovers
      · rwa [contained_rst, poisonDpa_rst]
    · exact hrecovers
  all_goals
    repeat' split
    all_goals simpa using h

/-! ### Firmware changes, slice resets and self-tests -/

theorem beginUpdate_resetHeld (q) (h : ResetHeld s.rst) : ResetHeld (beginUpdate q s).rst := by
  unfold beginUpdate
  dsimp only
  rw [handOver_rst, finish_rst]
  exact h

theorem afterStored_resetHeld (h : ResetHeld s.rst) : ResetHeld (afterStored s).rst := by
  unfold afterStored
  split
  · split
    · exact beginUpdate_resetHeld _ h
    · exact h
  · exact h

theorem sliceReset_resetHeld (q) (h : ResetHeld s.rst) : ResetHeld (sliceReset q s).rst := by
  unfold sliceReset
  rw [settle_rst, each_rst]
  · exact h
  · intro _ _; simp

theorem testResult_resetHeld (kind target outcome failures) (h : ResetHeld s.rst) :
    ResetHeld (testResult kind target outcome failures s).rst := h

theorem selfTest_resetHeld (q kind target value failures present drained) {run} (hrun : ∀ t, KeepsRst t (run t)) (h : ResetHeld s.rst) :
    ResetHeld (selfTest q kind target value failures present drained run s).rst := by
  have hfailed := testResult_resetHeld kind target 2 0 h
  unfold selfTest
  dsimp only
  split
  · split <;> simpa using hfailed
  split
  · simpa using hfailed
  split
  · simpa using hfailed
  · rw [finish_rst]
    exact testResult_resetHeld _ _ _ _ (h.of_rst (hrun s).rst_eq)

/-! ### The commands that may change the reset state, from a held reset -/

/-- Whatever state an outcome gives is held in reset. -/
def NextResetHeld (o : Host.Outcome State Fault Refusal) : Prop := ∀ t, o = .next t → ResetHeld t.rst

@[simp] theorem nextResetHeld_next : NextResetHeld (.next t) ↔ ResetHeld t.rst :=
  ⟨fun h => h t rfl, fun h _ ht => Host.Outcome.next.inj ht ▸ h⟩

theorem NextKeepsRst.resetHeld {o} (ho : NextKeepsRst s o) (h : ResetHeld s.rst) : NextResetHeld o :=
  fun t ht => h.of_rst (ho t ht).rst_eq

theorem execVddAuxFall_resetHeld : NextResetHeld (execVddAuxFall s) := by
  unfold execVddAuxFall
  rw [nextResetHeld_next]
  exact coldReset_resetHeld rfl

section
variable (hs : ResetHeld s.rst)
include hs

theorem execRootPllLockLoss_resetHeld : NextResetHeld (execRootPllLockLoss s) := by
  unfold execRootPllLockLoss
  rw [nextResetHeld_next]
  split
  · exact hs
  · exact coldReset_resetHeld hs.2

theorem execPerstAssert_resetHeld (port) : NextResetHeld (execPerstAssert port s) := by
  unfold execPerstAssert
  rw [nextResetHeld_next]
  split
  · exact hs
  · rw [settle_rst]
    refine each_resetHeld hs fun k t ht => ?_
    dsimp only
    split
    · exact ht
    · exact resetPort_resetHeld k ht

theorem execCxlPortReset_resetHeld (q port value) : NextResetHeld (execCxlPortReset q port value s) := by
  unfold execCxlPortReset
  rw [nextResetHeld_next]
  refine ask_resetHeld hs fun _ t ht => ?_
  split
  · rwa [refuse_rst]
  split
  · rwa [finish_rst]
  dsimp only
  rw [finish_rst]
  split
  · rw [settle_rst]
    exact each_resetHeld ht fun k _ => portResetCommand_resetHeld k
  · exact ht

theorem execCxlLinkDown_resetHeld (port) : NextResetHeld (execCxlLinkDown port s) := by
  unfold execCxlLinkDown
  rw [nextResetHeld_next]
  split
  · rw [settle_rst]
    exact resetPort_resetHeld port hs
  · exact hs

theorem execMemRd_resetHeld (m upset) : NextResetHeld (execMemRd m upset s) := by
  have hupset := structureUpset_resetHeld upset (m2sLine s m) hs
  unfold execMemRd
  rw [nextResetHeld_next]
  dsimp only
  repeat' split
  all_goals rwa [settle_rst, hostRequest_rst]

theorem execSliceStop_resetHeld (slice) : NextResetHeld (execSliceStop slice s) := by
  unfold execSliceStop
  rw [nextResetHeld_next]
  split
  · exact hs
  · refine beginRecovery_resetHeld 3 (countDetector_resetHeld 3 ?_)
    rwa [nodeError_rst, setSlice_rst]

theorem execPacketRoute_resetHeld (port p upset) : NextResetHeld (execPacketRoute port p upset s) := by
  have hupset := structureUpset_resetHeld upset none hs
  unfold execPacketRoute
  rw [nextResetHeld_next]
  dsimp only
  split
  · split
    · exact hupset
    · rwa [routeArrived_rst]
  · split
    · rwa [countMalformed_rst]
    · rwa [inject_rst]

theorem execThermalCompare_resetHeld (temps) : NextResetHeld (execThermalCompare temps s) := by
  unfold execThermalCompare
  rw [nextResetHeld_next]
  dsimp only
  split
  · exact coldReset_resetHeld hs.2
  split
  · rwa [latchAlert_rst, assertSource_rst]
  · exact hs

theorem execStoredWriteComplete_resetHeld : NextResetHeld (execStoredWriteComplete s) := by
  unfold execStoredWriteComplete
  rw [nextResetHeld_next]
  split
  · exact hs
  · dsimp only
    refine afterStored_resetHeld ?_
    rw [finish_rst]
    split <;> exact hs

theorem execFwUpdateActivate_resetHeld (q) : NextResetHeld (execFwUpdateActivate q s) := by
  unfold execFwUpdateActivate
  rw [nextResetHeld_next]
  refine ask_resetHeld hs fun _ t ht => ?_
  split
  · rwa [finish_rst]
  · exact afterStored_resetHeld ht

theorem execWatchdog_resetHeld (core) : NextResetHeld (execWatchdog core s) := by
  have hfires := watchdogFires_resetHeld core hs
  unfold execWatchdog
  rw [nextResetHeld_next]
  dsimp only
  repeat' split
  · exact hs
  · exact hs
  · rwa [revert_rst, keepHandoff_rst, countRestart_rst]
  · rwa [firmwareStops_rst, raise_rst]
  · rwa [firmwareStops_rst, keepHandoff_rst, countRestart_rst]

theorem execHandoffTimerExpiry_resetHeld : NextResetHeld (execHandoffTimerExpiry s) := by
  have hfires := watchdogFires_resetHeld (draw s % 4) (s := drawn s) (by rwa [drawn_rst])
  unfold execHandoffTimerExpiry
  rw [nextResetHeld_next]
  dsimp only
  repeat' split
  · exact hs
  · exact hs
  all_goals rwa [firmwareStops_rst, keepHandoff_rst, countRestart_rst]

theorem execRootOfTrustWatchdog_resetHeld : NextResetHeld (execRootOfTrustWatchdog s) := by
  unfold execRootOfTrustWatchdog
  rw [nextResetHeld_next]
  split <;> exact hs

theorem execNodeResetNAssert_resetHeld (width) : NextResetHeld (execNodeResetNAssert width s) := by
  unfold execNodeResetNAssert
  rw [nextResetHeld_next]
  split
  · exact hs
  · exact coldReset_resetHeld rfl

theorem execColdTrainingDone_resetHeld (stack ok repaired marks) : NextResetHeld (execColdTrainingDone stack ok repaired marks s) := by
  unfold execColdTrainingDone
  rw [nextResetHeld_next]
  split
  · exact hs
  split
  · exact hs
  · have hmarked (x) (l : List (Nat × Nat)) : ResetHeld (each l (fun p => markDevice stack p.1 p.2)
        (setStack stack x (each [2, 1, 0] (trainLevel stack) s))).rst := by
      rwa [each_rst fun _ _ => markDevice_rst _ _ _, setStack_rst, each_rst fun _ _ => trainLevel_rst _ _]
    dsimp only
    split
    · exact stepTook_resetHeld 2 (hmarked _ _)
    · exact hmarked _ _

theorem execMemoryBistDone_resetHeld (repaired marks failed checker) : NextResetHeld (execMemoryBistDone repaired marks failed checker s) := by
  unfold execMemoryBistDone
  rw [nextResetHeld_next]
  split
  · exact hs
  have hmarked (l : List (Nat × Nat)) : ResetHeld (each l (fun p => markDevice (p.1 / 64) (p.1 % 64) p.2) s).rst := by
    rwa [each_rst fun _ _ => markDevice_rst _ _ _]
  dsimp only
  split
  · exact enterFault_resetHeld (stepTook_resetHeld 3 (hmarked _))
  split
  · refine bootCores_resetHeld ?_
    rw [initCritical_rst]
    exact stepTook_resetHeld 3 (hmarked _)
  · refine enterService_resetHeld ?_
    rw [setStk_rst]
    refine bootCores_resetHeld ?_
    rw [initCritical_rst]
    exact stepTook_resetHeld 3 (hmarked _)

theorem execMapLoadDone_resetHeld (found lost torn) : NextResetHeld (execMapLoadDone found lost torn s) := by
  unfold execMapLoadDone
  rw [nextResetHeld_next]
  split
  · exact hs
  have hfound : ResetHeld (findTargets found s).rst := by rwa [findTargets_rst]
  dsimp only
  split
  · exact bootFails_resetHeld _ hfound
  split
  · exact bootFails_resetHeld _ hfound
  next u hload =>
    have hu : ResetHeld u.rst := by
      split at hload
      · exact hfound.of_rst (loadMap_rst hload)
      · cases hload
        rwa [formatFlash_rst]
    split
    · exact bootFails_resetHeld _ hu
    · refine enterService_resetHeld ?_
      rw [restoreTwins_rst, restoreSweeps_rst, restoreBook_rst, restoreKeys_rst]
      exact stepTook_resetHeld 6 hu

theorem execStartUpHoldEnd_resetHeld : NextResetHeld (execStartUpHoldEnd s) := by
  unfold execStartUpHoldEnd
  rw [nextResetHeld_next]
  split <;> exact hs

theorem execNodeRecoverN_resetHeld (low width) : NextResetHeld (execNodeRecoverN low width s) := by
  unfold execNodeRecoverN
  rw [nextResetHeld_next]
  split
  · exact hs
  split
  · exact hs
  · exact beginRecovery_resetHeld 9 hs

theorem execNodeRecoveryEnd_resetHeld (trained untrained programmed) :
    NextResetHeld (execNodeRecoveryEnd trained untrained programmed s) := by
  unfold execNodeRecoveryEnd
  rw [nextResetHeld_next]
  have hreloaded : ResetHeld (reloadCritical s).2.rst := by rwa [reloadCritical_rst]
  split
  · exact hs
  extract_lets
  split
  · exact enterFault_resetHeld (by rwa [raise_rst, countError_rst])
  split
  · exact enterFault_resetHeld hreloaded
  · rw [afterFrames_rst]
    refine each_resetHeld ?_ fun _ _ ht => by rwa [fireContext_rst]
    dsimp only
    refine each_resetHeld ?_ fun _ _ ht => by rwa [trainPort_rst]
    refine ResetHeld.of_rst ?_ pumpPurges_rst
    dsimp only
    refine each_resetHeld ?_ fun _ _ ht => by rwa [owePurge_rst]
    refine each_resetHeld ?_ fun _ _ ht => by rwa [sendRelease_rst]
    refine each_resetHeld ?_ fun _ _ ht => by
      split
      · split
        · rwa [migrateFails_rst]
        · rwa [migrateAdvance_rst]
      · exact ht
    refine each_resetHeld ?_ fun _ _ ht => by rwa [each_rst fun _ _ => sendRevokeRecall_rst _ _ _]
    refine each_resetHeld ?_ fun _ _ ht => by rwa [failGrant_rst]
    refine ResetHeld.of_rst ?_ (replayJournal_rst _)
    refine each_resetHeld ?_ fun _ _ ht => by rwa [startResync_rst]
    refine each_resetHeld ?_ fun _ _ ht => by rwa [raise_rst]
    refine ResetHeld.of_rst ?_ (reinitFlash_rst _ _)
    refine each_resetHeld ?_ fun _ _ ht => by rwa [trainLevel_rst]
    exact hreloaded

theorem execTstNodeRecover_resetHeld (q value) : NextResetHeld (execTstNodeRecover q value s) := by
  unfold execTstNodeRecover
  rw [nextResetHeld_next]
  refine ask_resetHeld hs fun _ t ht => ?_
  split
  · rwa [finish_rst]
  · exact beginRecovery_resetHeld 8 (by rwa [finish_rst])

theorem execTstColdReset_resetHeld (q value) : NextResetHeld (execTstColdReset q value s) := by
  unfold execTstColdReset
  rw [nextResetHeld_next]
  refine ask_resetHeld hs fun _ t ht => ?_
  split
  · rwa [finish_rst]
  · exact startBoot_resetHeld (coldReset_resetHeld (by rw [finish_rst]; exact ht.2))

theorem execTstSliceReset_resetHeld (q quad) : NextResetHeld (execTstSliceReset q quad s) := by
  unfold execTstSliceReset
  rw [nextResetHeld_next]
  refine ask_resetHeld hs fun _ t ht => ?_
  split
  · rwa [finish_rst]
  · rw [finish_rst]
    exact sliceReset_resetHeld quad ht

theorem execTstStackBist_resetHeld (q stack value failures) : NextResetHeld (execTstStackBist q stack value failures s) := by
  unfold execTstStackBist
  rw [nextResetHeld_next]
  exact ask_resetHeld hs fun _ _ ht => selfTest_resetHeld _ _ _ _ _ _ _ (fun _ => by simp) ht

theorem execTstQuadBist_resetHeld (q quad passed) : NextResetHeld (execTstQuadBist q quad passed s) := by
  unfold execTstQuadBist
  rw [nextResetHeld_next]
  exact ask_resetHeld hs fun _ _ ht => selfTest_resetHeld _ _ _ _ _ _ _ (fun _ => rfl) ht

theorem execTstCxlHold_resetHeld (q port) : NextResetHeld (execTstCxlHold q port s) := by
  unfold execTstCxlHold
  rw [nextResetHeld_next]
  refine ask_resetHeld hs fun _ t ht => ?_
  split
  · rwa [refuse_rst]
  split
  · rwa [finish_rst]
  · rw [finish_rst, each_rst]
    · exact each_resetHeld ht fun k _ => resetPort_resetHeld k
    · intro _ _; simp

theorem execTstCxlMargin_resetHeld (q port value failures) : NextResetHeld (execTstCxlMargin q port value failures s) := by
  unfold execTstCxlMargin
  rw [nextResetHeld_next]
  exact ask_resetHeld hs fun _ _ ht => selfTest_resetHeld _ _ _ _ _ _ _ (fun _ => rfl) ht

theorem execTstLinkMargin_resetHeld (q port value failures) : NextResetHeld (execTstLinkMargin q port value failures s) := by
  unfold execTstLinkMargin
  rw [nextResetHeld_next]
  exact ask_resetHeld hs fun _ _ ht => selfTest_resetHeld _ _ _ _ _ _ _ (fun _ => rfl) ht

theorem execTstNandChannel_resetHeld (q channel value failures) : NextResetHeld (execTstNandChannel q channel value failures s) := by
  unfold execTstNandChannel
  rw [nextResetHeld_next]
  exact ask_resetHeld hs fun _ _ ht => selfTest_resetHeld _ _ _ _ _ _ _ (fun _ => rfl) ht

theorem execQuadHang_resetHeld (quad) : NextResetHeld (execQuadHang quad s) := by
  unfold execQuadHang
  rw [nextResetHeld_next]
  split
  · exact hs
  · exact sliceReset_resetHeld quad (countDetector_resetHeld 0 hs)

theorem execStackControllerHang_resetHeld (stack pc) : NextResetHeld (execStackControllerHang stack pc s) := by
  unfold execStackControllerHang
  rw [nextResetHeld_next]
  dsimp only
  split
  · exact hs
  split
  · exact hs
  · exact beginRecovery_resetHeld 1 (countDetector_resetHeld 1 hs)

theorem execRingStopHang_resetHeld (stop) : NextResetHeld (execRingStopHang stop s) := by
  unfold execRingStopHang
  rw [nextResetHeld_next]
  split
  · exact hs
  · exact beginRecovery_resetHeld 2 (countDetector_resetHeld 2 hs)

theorem execRootPllRelock_resetHeld : NextResetHeld (execRootPllRelock s) := by
  unfold execRootPllRelock
  rw [nextResetHeld_next]
  split
  · exact hs
  · exact startBoot_resetHeld hs

theorem execSahtinRestartDone_resetHeld : NextResetHeld (execSahtinRestartDone s) := by
  unfold execSahtinRestartDone
  rw [nextResetHeld_next]
  split
  · exact hs
  · dsimp only
    rw [goOn_rst]
    split <;> simpa [ResetHeld] using hs

theorem execVddAuxRise_resetHeld : NextResetHeld (execVddAuxRise s) := by
  unfold execVddAuxRise
  rw [nextResetHeld_next]
  split
  · exact hs
  · exact ⟨hs.1, rfl⟩

end

/-! ### Every command -/

/-- Whatever is commanded, a held reset goes on until NODE_RESET_N rises (R622). -/
theorem exec_resetHeld {c : Instr} (hs : ResetHeld s.rst) (hc : c ≠ .nodeResetNRelease) : NextResetHeld (exec c s) := by
  -- One match over the commands, taken apart without its equations: those of 349 arms are costly.
  delta exec
  cases c with
  | rootPllLockLoss => exact execRootPllLockLoss_resetHeld hs
  | ringInject => exact (execRingInject_rst _ _ _ _).resetHeld hs
  | ringEject => exact (execRingEject_rst _).resetHeld hs
  | pgaGrant => exact (execPgaGrant_rst _ _).resetHeld hs
  | reserveTimeout => exact (execReserveTimeout_rst _).resetHeld hs
  | grantClearDone => exact (execGrantClearDone_rst _).resetHeld hs
  | dcAcceptTimeout => exact (execDcAcceptTimeout_rst _).resetHeld hs
  | pgaRevoke => exact (execPgaRevoke_rst _ _).resetHeld hs
  | pgaRevokeForced => exact (execPgaRevokeForced_rst _ _).resetHeld hs
  | dcReleaseTimeout => exact (execDcReleaseTimeout_rst _).resetHeld hs
  | revokeRecallResend => exact (execRevokeRecallResend_rst _).resetHeld hs
  | revokeComplete => exact (execRevokeComplete_rst _).resetHeld hs
  | pgaMigrate => exact (execPgaMigrate_rst _ _ _).resetHeld hs
  | migrateCopyDone => exact (execMigrateCopyDone_rst _).resetHeld hs
  | pgaRebind => exact (execPgaRebind_rst _ _ _ _).resetHeld hs
  | drainWindowExpiry => exact (execDrainWindowExpiry_rst _).resetHeld hs
  | reserve => exact (execReserve_rst _).resetHeld hs
  | unreference => exact (execUnreference_rst _).resetHeld hs
  | rebindNotice => exact (execRebindNotice_rst _).resetHeld hs
  | windowBind => exact (execWindowBind_rst _).resetHeld hs
  | migrateReserve => exact (execMigrateReserve_rst _).resetHeld hs
  | migrateHandover => exact (execMigrateHandover_rst _).resetHeld hs
  | migrateRelease => exact (execMigrateRelease_rst _).resetHeld hs
  | purge => exact (execPurge_rst _).resetHeld hs
  | revokeRecall => exact (execRevokeRecall_rst _).resetHeld hs
  | perstDeassert => exact (execPerstDeassert_rst _).resetHeld hs
  | perstAssert => exact execPerstAssert_resetHeld hs _
  | cxlPortReset => exact execCxlPortReset_resetHeld hs _ _ _
  | portTrained => exact (execPortTrained_rst _ _ _).resetHeld hs
  | cxlTrainingFails => exact (execCxlTrainingFails_rst _ _).resetHeld hs
  | cxlLinkDown => exact execCxlLinkDown_resetHeld hs _
  | portResetDone => exact (execPortResetDone_rst _).resetHeld hs
  | purgeResend => exact (execPurgeResend_rst _).resetHeld hs
  | purgeWaitTimeout => exact (execPurgeWaitTimeout_rst _).resetHeld hs
  | memRd => exact execMemRd_resetHeld hs _ _
  | memRdData => exact (execMemRdData_rst _).resetHeld hs
  | memInv => exact (execMemInv_rst _).resetHeld hs
  | memInvNt => exact (execMemInvNt_rst _).resetHeld hs
  | memSpecRd => exact (execMemSpecRd_rst _).resetHeld hs
  | memClnEvct => exact (execMemClnEvct_rst _).resetHeld hs
  | memWr => exact (execMemWr_rst _ _ _).resetHeld hs
  | memWrPtl => exact (execMemWrPtl_rst _ _ _ _).resetHeld hs
  | unsupportedM2s => exact (execUnsupportedM2s_rst _).resetHeld hs
  | birsp => exact (execBirsp_rst _ _ _ _ _).resetHeld hs
  | biconflict => exact (execBiconflict_rst _ _ _ _).resetHeld hs
  | biDecoderProgram => exact (execBiDecoderProgram_rst _ _ _).resetHeld hs
  | hdmDecoderCommit => exact (execHdmDecoderCommit_rst _ _ _ _).resetHeld hs
  | gpf => exact (execGpf_rst (s := s) _).resetHeld hs
  | viral => exact (execViral_rst _).resetHeld hs
  | identify => exact (execIdentify_rst _ _).resetHeld hs
  | backgroundOperationStatus => exact (execBackgroundOperationStatus_rst _ _).resetHeld hs
  | getEventRecords => exact (execGetEventRecords_rst _ _ _).resetHeld hs
  | clearEventRecords => exact (execClearEventRecords_rst _ _ _ _ _).resetHeld hs
  | getEventInterruptPolicy => exact (execGetEventInterruptPolicy_rst _ _).resetHeld hs
  | setEventInterruptPolicy => exact (execSetEventInterruptPolicy_rst _ _ _).resetHeld hs
  | getTimestamp => exact (execGetTimestamp_rst _ _).resetHeld hs
  | setTimestamp => exact (execSetTimestamp_rst _ _ _).resetHeld hs
  | getSupportedLogs => exact (execGetSupportedLogs_rst _ _).resetHeld hs
  | getLog => exact (execGetLog_rst _ _ _ _ _).resetHeld hs
  | identifyMemoryDevice => exact (execIdentifyMemoryDevice_rst _ _).resetHeld hs
  | getPartitionInfo => exact (execGetPartitionInfo_rst _ _).resetHeld hs
  | getHealthInfo => exact (execGetHealthInfo_rst _ _).resetHeld hs
  | getPoisonList => exact (execGetPoisonList_rst _ _ _ _ _).resetHeld hs
  | injectPoison => exact (execInjectPoison_rst _ _ _).resetHeld hs
  | clearPoison => exact (execClearPoison_rst _ _ _ _).resetHeld hs
  | getDynamicCapacityConfiguration => exact (execGetDynamicCapacityConfiguration_rst _ _ _ _).resetHeld hs
  | getDynamicCapacityExtentList => exact (execGetDynamicCapacityExtentList_rst _ _ _ _).resetHeld hs
  | addDynamicCapacityResponse => exact (execAddDynamicCapacityResponse_rst _ _ _).resetHeld hs
  | releaseDynamicCapacity => exact (execReleaseDynamicCapacity_rst _ _ _).resetHeld hs
  | unsupportedMailbox => exact (execUnsupportedMailbox_rst _ _ _).resetHeld hs
  | sqTail => exact (execSqTail_rst _ _ _ _ _).resetHeld hs
  | cqHead => exact (execCqHead_rst _ _ _ _ _).resetHeld hs
  | alertLatchClear => exact (execAlertLatchClear_rst _).resetHeld hs
  | safeThrottle => exact (execSafeThrottle_rst _).resetHeld hs
  | cxlRegionLength => exact (execCxlRegionLength_rst _ _ _ _).resetHeld hs
  | cxlPortBifurcate => exact (execCxlPortBifurcate_rst _ _ _).resetHeld hs
  | recallTimeout => exact (execRecallTimeout_rst _).resetHeld hs
  | proxyRecallTimeout => exact (execProxyRecallTimeout_rst _).resetHeld hs
  | recallBackstopTimeout => exact (execRecallBackstopTimeout_rst _).resetHeld hs
  | ackTimeout => exact (execAckTimeout_rst _).resetHeld hs
  | channelFenced => exact (execChannelFenced_rst _ _).resetHeld hs
  | ldgChannelReadmit => exact (execLdgChannelReadmit_rst _ _ _).resetHeld hs
  | autoReadmit => exact (execAutoReadmit_rst _).resetHeld hs
  | sliceStop => exact execSliceStop_resetHeld hs _
  | ldgClearPoison => exact (execLdgClearPoison_rst _ _).resetHeld hs
  | ledgerScanDone => exact (execLedgerScanDone_rst _ _).resetHeld hs
  | carModeNext => exact (execCarModeNext_rst _ _).resetHeld hs
  | fillArrives => exact (execFillArrives_rst _ _).resetHeld hs
  | writeBackDone => exact (execWriteBackDone_rst _).resetHeld hs
  | dirtyHigh => exact execDirtyHigh_rst.resetHeld hs
  | stageHoldExpiry => exact (execStageHoldExpiry_rst _).resetHeld hs
  | carCommit => exact (execCarCommit_rst _ _ _ _).resetHeld hs
  | commitComplete => exact (execCommitComplete_rst _).resetHeld hs
  | carStreamAlloc => exact (execCarStreamAlloc_rst _).resetHeld hs
  | carStream => exact (execCarStream_rst _ _).resetHeld hs
  | streamStart => exact (execStreamStart_rst _).resetHeld hs
  | streamStop => exact (execStreamStop_rst _).resetHeld hs
  | streamRewind => exact (execStreamRewind_rst _).resetHeld hs
  | streamFree => exact (execStreamFree_rst _).resetHeld hs
  | segmentListFetch => exact (execSegmentListFetch_rst _).resetHeld hs
  | stageRetry => exact (execStageRetry_rst _ _).resetHeld hs
  | refreshDue => exact (execRefreshDue_rst _).resetHeld hs
  | temperatureRead => exact (execTemperatureRead_rst _ _).resetHeld hs
  | levelChangeDone => exact (execLevelChangeDone_rst _).resetHeld hs
  | retrainingPause => exact (execRetrainingPause_rst _ _ _).resetHeld hs
  | hbmStackDrain => exact (execHbmStackDrain_rst _ _).resetHeld hs
  | hbmStackRelease => exact (execHbmStackRelease_rst _ _).resetHeld hs
  | hbmRetrainStack => exact (execHbmRetrainStack_rst _ _ _).resetHeld hs
  | retrainingDone => exact (execRetrainingDone_rst _).resetHeld hs
  | patrolScrub => exact (execPatrolScrub_rst _ _ _).resetHeld hs
  | programDone => exact (execProgramDone_rst _ _).resetHeld hs
  | eraseDone => exact (execEraseDone_rst _ _).resetHeld hs
  | journalRecordDurable => exact (execJournalRecordDurable_rst _).resetHeld hs
  | checkpointRoundStart => exact execCheckpointRoundStart_rst.resetHeld hs
  | checkpointRoundComplete => exact execCheckpointRoundComplete_rst.resetHeld hs
  | targetFailure => exact (execTargetFailure_rst _).resetHeld hs
  | operationResume => exact (execOperationResume_rst _).resetHeld hs
  | relocationDone => exact (execRelocationDone_rst _ _ _).resetHeld hs
  | garbageCollection => exact execGarbageCollection_rst.resetHeld hs
  | flashPatrol => exact (execFlashPatrol_rst _ _).resetHeld hs
  | stkFormat => exact (execStkFormat_rst _ _).resetHeld hs
  | translationCompletion => exact (execTranslationCompletion_rst _ _ _ _ _).resetHeld hs
  | xlateTimeout => exact (execXlateTimeout_rst _).resetHeld hs
  | invalidateRequest => exact (execInvalidateRequest_rst _ _ _ _ _ _).resetHeld hs
  | tlbInvalidate => exact (execTlbInvalidate_rst _ _ _ _).resetHeld hs
  | engineInvalidateAck => exact (execEngineInvalidateAck_rst _ _).resetHeld hs
  | pageGroupResponse => exact (execPageGroupResponse_rst _ _ _).resetHeld hs
  | faultTimeout => exact (execFaultTimeout_rst _).resetHeld hs
  | portDownFaultTimeout => exact (execPortDownFaultTimeout_rst _).resetHeld hs
  | priEnable => exact (execPriEnable_rst _ _ _).resetHeld hs
  | contextAssign => exact (execContextAssign_rst _ _).resetHeld hs
  | contextRelease => exact (execContextRelease_rst _).resetHeld hs
  | cleContext => exact (execCleContext_rst _ _).resetHeld hs
  | bind => exact (execBind_rst _).resetHeld hs
  | unbind => exact (execUnbind_rst _).resetHeld hs
  | resume => exact (execResume_rst _).resetHeld hs
  | contextReset => exact (execContextReset_rst _).resetHeld hs
  | unbindComplete => exact (execUnbindComplete_rst _).resetHeld hs
  | contextResetComplete => exact (execContextResetComplete_rst _).resetHeld hs
  | descriptorFetch => exact (execDescriptorFetch_rst _).resetHeld hs
  | chunkIssue => exact (execChunkIssue_rst _ _ _).resetHeld hs
  | leaveRequest => exact (execLeaveRequest_rst _ _).resetHeld hs
  | chunkResult => exact (execChunkResult_rst _ _).resetHeld hs
  | chunkError => exact (execChunkError_rst _ _ _).resetHeld hs
  | chunkTimeout => exact (execChunkTimeout_rst _).resetHeld hs
  | lostTimeout => exact (execLostTimeout_rst _ _).resetHeld hs
  | keepaliveSend => exact execKeepaliveSend_rst.resetHeld hs
  | jobComplete => exact (execJobComplete_rst _).resetHeld hs
  | chunkWrite => exact (execChunkWrite_rst _).resetHeld hs
  | atomic => exact (execAtomic_rst _).resetHeld hs
  | append => exact (execAppend_rst _).resetHeld hs
  | commit => exact (execCommit_rst _).resetHeld hs
  | winGrant => exact (execWinGrant_rst _ _).resetHeld hs
  | winBind => exact (execWinBind_rst _ _).resetHeld hs
  | contrib => exact (execContrib_rst _ _).resetHeld hs
  | contribTimeout => exact (execContribTimeout_rst _ _).resetHeld hs
  | releaseResend => exact (execReleaseResend_rst _ _).resetHeld hs
  | release => exact (execRelease_rst _).resetHeld hs
  | winRearm => exact (execWinRearm_rst _ _).resetHeld hs
  | generation => exact (execGeneration_rst _).resetHeld hs
  | rearmTimeout => exact (execRearmTimeout_rst _).resetHeld hs
  | marNodeCoord => exact (execMarNodeCoord_rst _ _).resetHeld hs
  | marRingSize => exact (execMarRingSize_rst _ _).resetHeld hs
  | marPortEnable => exact (execMarPortEnable_rst _ _ _).resetHeld hs
  | marRoute => exact (execMarRoute_rst _ _).resetHeld hs
  | marRouteReset => exact (execMarRouteReset_rst _ _).resetHeld hs
  | packetRoute => exact execPacketRoute_resetHeld hs _ _ _
  | transitReinject => exact execTransitReinject_rst.resetHeld hs
  | transitAck => exact (execTransitAck_rst _).resetHeld hs
  | spillSend => exact execSpillSend_rst.resetHeld hs
  | fault => exact (execFault_rst _).resetHeld hs
  | faultNoticeRepeat => exact execFaultNoticeRepeat_rst.resetHeld hs
  | tagAllocate => exact execTagAllocate_rst.resetHeld hs
  | tagQuarantineEnd => exact (execTagQuarantineEnd_rst _).resetHeld hs
  | chunkWriteDiscard => exact (execChunkWriteDiscard_rst _ _).resetHeld hs
  | read => exact (execRead_rst _).resetHeld hs
  | write => exact (execWrite_rst _).resetHeld hs
  | cleanEvict => exact (execCleanEvict_rst _).resetHeld hs
  | stage => exact (execStage_rst _).resetHeld hs
  | recallOp => exact (execRecallOp_rst _).resetHeld hs
  | recallRsp => exact (execRecallRsp_rst _).resetHeld hs
  | data => exact (execData_rst _).resetHeld hs
  | done => exact (execDone_rst _).resetHeld hs
  | ack => exact (execAck_rst _).resetHeld hs
  | probe => exact (execProbe_rst _ _).resetHeld hs
  | answer => exact (execAnswer_rst _).resetHeld hs
  | keepalive => exact (execKeepalive_rst _).resetHeld hs
  | count => exact (execCount_rst _).resetHeld hs
  | dataFlit => exact (execDataFlit_rst _ _).resetHeld hs
  | controlFlit => exact (execControlFlit_rst _ _).resetHeld hs
  | ackReport => exact (execAckReport_rst _).resetHeld hs
  | nakResend => exact (execNakResend_rst _).resetHeld hs
  | replayTimeout => exact (execReplayTimeout_rst _).resetHeld hs
  | deadTime => exact (execDeadTime_rst _ _).resetHeld hs
  | phyTrained => exact (execPhyTrained_rst _ _ _).resetHeld hs
  | trainingFails => exact (execTrainingFails_rst _).resetHeld hs
  | offer => exact (execOffer_rst _ _).resetHeld hs
  | accept => exact (execAccept_rst _ _).resetHeld hs
  | offerResend => exact (execOfferResend_rst _).resetHeld hs
  | lnkRetryInterval => exact (execLnkRetryInterval_rst _).resetHeld hs
  | lnkReinjectExpired => exact execLnkReinjectExpired_rst.resetHeld hs
  | acceptancePass => exact execAcceptancePass_rst.resetHeld hs
  | twnAttach => exact (execTwnAttach_rst _ _ _ _).resetHeld hs
  | twnDetach => exact (execTwnDetach_rst _ _ _).resetHeld hs
  | twnSwap => exact (execTwnSwap_rst _ _).resetHeld hs
  | heartbeatSend => exact execHeartbeatSend_rst.resetHeld hs
  | heartbeat => exact (execHeartbeat_rst _).resetHeld hs
  | partnerTimeout => exact execPartnerTimeout_rst.resetHeld hs
  | stamp => exact (execStamp_rst _).resetHeld hs
  | bodyWaitTimeout => exact (execBodyWaitTimeout_rst _).resetHeld hs
  | patch => exact (execPatch_rst _).resetHeld hs
  | staleReport => exact (execStaleReport_rst _).resetHeld hs
  | resilverUnit => exact execResilverUnit_rst.resetHeld hs
  | resilverMeta => exact (execResilverMeta_rst _).resetHeld hs
  | secondTimeout => exact (execSecondTimeout_rst _).resetHeld hs
  | compareWindowExpiry => exact (execCompareWindowExpiry_rst _).resetHeld hs
  | schedulerSelect => exact (execSchedulerSelect_rst _).resetHeld hs
  | refill => exact execRefill_rst.resetHeld hs
  | wheelSlot => exact (execWheelSlot_rst _ _).resetHeld hs
  | gateEntry => exact (execGateEntry_rst _).resetHeld hs
  | wghBurst => exact (execWghBurst_rst _ _ _).resetHeld hs
  | wghOverhead => exact (execWghOverhead_rst _ _ _).resetHeld hs
  | wghGateList => exact (execWghGateList_rst _ _).resetHeld hs
  | wghSafeClear => exact (execWghSafeClear_rst _ _).resetHeld hs
  | partitionCreate => exact (execPartitionCreate_rst _ _).resetHeld hs
  | partitionRotate => exact (execPartitionRotate_rst _ _).resetHeld hs
  | partitionSweep => exact (execPartitionSweep_rst _ _).resetHeld hs
  | keyRecordTableDurable => exact execKeyRecordTableDurable_rst.resetHeld hs
  | rekeyWrite => exact (execRekeyWrite_rst _ _).resetHeld hs
  | rekeyDone => exact (execRekeyDone_rst _).resetHeld hs
  | sweepStepDone => exact (execSweepStepDone_rst _).resetHeld hs
  | lckLdPartition => exact (execLckLdPartition_rst _ _ _ _).resetHeld hs
  | lckTenantCred => exact (execLckTenantCred_rst _ _ _).resetHeld hs
  | lckAttest => exact (execLckAttest_rst _ _).resetHeld hs
  | getVersion => exact (execGetVersion_rst _ _).resetHeld hs
  | getCapabilities => exact (execGetCapabilities_rst _ _).resetHeld hs
  | negotiateAlgorithms => exact (execNegotiateAlgorithms_rst _ _).resetHeld hs
  | getDigests => exact (execGetDigests_rst _ _).resetHeld hs
  | getCertificate => exact (execGetCertificate_rst _ _ _ _).resetHeld hs
  | challenge => exact (execChallenge_rst _ _ _ _).resetHeld hs
  | getMeasurements => exact (execGetMeasurements_rst _ _ _ _).resetHeld hs
  | keyExchange => exact (execKeyExchange_rst _ _ _).resetHeld hs
  | finish => exact (execFinish_rst _ _ _).resetHeld hs
  | keyUpdate => exact (execKeyUpdate_rst _ _ _ _).resetHeld hs
  | spdmHeartbeat => exact (execSpdmHeartbeat_rst _ _ _).resetHeld hs
  | endSession => exact (execEndSession_rst _ _ _).resetHeld hs
  | chunkSend => exact (execChunkSend_rst _ _ _ _ _).resetHeld hs
  | chunkGet => exact (execChunkGet_rst _ _ _).resetHeld hs
  | query => exact (execQuery_rst _ _ _).resetHeld hs
  | keyProg => exact (execKeyProg_rst _ _ _ _).resetHeld hs
  | kSetGo => exact (execKSetGo_rst _ _ _ _).resetHeld hs
  | kSetStop => exact (execKSetStop_rst _ _ _ _).resetHeld hs
  | getTdispVersion => exact (execGetTdispVersion_rst _ _ _).resetHeld hs
  | getTdispCapabilities => exact (execGetTdispCapabilities_rst _ _ _).resetHeld hs
  | lockInterfaceRequest => exact (execLockInterfaceRequest_rst _ _ _).resetHeld hs
  | getDeviceInterfaceReport => exact (execGetDeviceInterfaceReport_rst _ _ _ _ _).resetHeld hs
  | getDeviceInterfaceState => exact (execGetDeviceInterfaceState_rst _ _ _).resetHeld hs
  | startInterfaceRequest => exact (execStartInterfaceRequest_rst _ _ _ _).resetHeld hs
  | stopInterfaceRequest => exact (execStopInterfaceRequest_rst _ _ _).resetHeld hs
  | lockedRegisterWrite => exact (execLockedRegisterWrite_rst _ _).resetHeld hs
  | ideIntegrityFailure => exact (execIdeIntegrityFailure_rst _ _ _).resetHeld hs
  | coalesceTimer => exact (execCoalesceTimer_rst _).resetHeld hs
  | holdoffEnd => exact (execHoldoffEnd_rst _ _ _).resetHeld hs
  | maskClear => exact (execMaskClear_rst _ _ _ _).resetHeld hs
  | irqGlobalDisable => exact (execIrqGlobalDisable_rst _ _).resetHeld hs
  | irqCqCoalesce => exact (execIrqCqCoalesce_rst _ _ _).resetHeld hs
  | claim => exact (execClaim_rst _).resetHeld hs
  | eoi => exact (execEoi_rst _ _).resetHeld hs
  | eventWrite => exact execEventWrite_rst.resetHeld hs
  | frameReceived => exact (execFrameReceived_rst _ _).resetHeld hs
  | bankRelease => exact execBankRelease_rst.resetHeld hs
  | overrun => exact execOverrun_rst.resetHeld hs
  | dtlsHandshake => exact (execDtlsHandshake_rst _).resetHeld hs
  | sessionIdleTimeout => exact (execSessionIdleTimeout_rst _).resetHeld hs
  | nasidomRead => exact (execNasidomRead_rst _ _ _ _).resetHeld hs
  | nasidomWrite => exact (execNasidomWrite_rst _ _ _ _ _ _).resetHeld hs
  | subscribeAdd => exact (execSubscribeAdd_rst _ _ _ _ _ _).resetHeld hs
  | subscribeRemove => exact (execSubscribeRemove_rst _ _).resetHeld hs
  | subscribeAcknowledge => exact (execSubscribeAcknowledge_rst _ _ _).resetHeld hs
  | summary => exact (execSummary_rst _).resetHeld hs
  | noticeResend => exact (execNoticeResend_rst _).resetHeld hs
  | rdmaQpOpen => exact (execRdmaQpOpen_rst _ _ _ _).resetHeld hs
  | rdmaQpClose => exact (execRdmaQpClose_rst _ _).resetHeld hs
  | rdmaRegionRegister => exact (execRdmaRegionRegister_rst _ _ _ _ _).resetHeld hs
  | rdmaRegionRemove => exact (execRdmaRegionRemove_rst _ _).resetHeld hs
  | sahDrain => exact (execSahDrain_rst _ _ _ _ _ _).resetHeld hs
  | rdmaWrite => exact (execRdmaWrite_rst _ _ _ _).resetHeld hs
  | rdmaRead => exact (execRdmaRead_rst _ _ _ _).resetHeld hs
  | drainAcknowledged => exact (execDrainAcknowledged_rst _ _ _).resetHeld hs
  | loopTick => exact (execLoopTick_rst _ _).resetHeld hs
  | thermalCompare => exact execThermalCompare_resetHeld hs _
  | storedWriteComplete => exact execStoredWriteComplete_resetHeld hs
  | sahAlertClear => exact (execSahAlertClear_rst _ _).resetHeld hs
  | fwHostDeclare => exact (execFwHostDeclare_rst _ _ _ _).resetHeld hs
  | sahWallTime => exact (execSahWallTime_rst _ _).resetHeld hs
  | fwStageData => exact (execFwStageData_rst _ _).resetHeld hs
  | fwUpdateVerify => exact (execFwUpdateVerify_rst _).resetHeld hs
  | fwUpdateActivate => exact execFwUpdateActivate_resetHeld hs _
  | fwUpdateCommit => exact (execFwUpdateCommit_rst _).resetHeld hs
  | fwUpdateRevert => exact (execFwUpdateRevert_rst _).resetHeld hs
  | fwUpdateCommitSvn => exact (execFwUpdateCommitSvn_rst _).resetHeld hs
  | fwRestart => exact (execFwRestart_rst _ _).resetHeld hs
  | watchdog => exact execWatchdog_resetHeld hs _
  | handoffTimerExpiry => exact execHandoffTimerExpiry_resetHeld hs
  | rootOfTrustWatchdog => exact execRootOfTrustWatchdog_resetHeld hs
  | sahtinUeTrap => exact (execSahtinUeTrap_rst _ _).resetHeld hs
  | nodeResetNAssert => exact execNodeResetNAssert_resetHeld hs _
  | nodeResetNRelease => exact absurd rfl hc
  | coldTrainingDone => exact execColdTrainingDone_resetHeld hs _ _ _ _
  | memoryBistDone => exact execMemoryBistDone_resetHeld hs _ _ _ _
  | mapLoadDone => exact execMapLoadDone_resetHeld hs _ _ _
  | startUpHoldEnd => exact execStartUpHoldEnd_resetHeld hs
  | nodeRecoverN => exact execNodeRecoverN_resetHeld hs _ _
  | nodeRecoveryEnd => exact execNodeRecoveryEnd_resetHeld hs _ _ _
  | tstNodeRecover => exact execTstNodeRecover_resetHeld hs _ _
  | tstColdReset => exact execTstColdReset_resetHeld hs _ _
  | tstSliceReset => exact execTstSliceReset_resetHeld hs _ _
  | tstStackBist => exact execTstStackBist_resetHeld hs _ _ _ _
  | tstQuadBist => exact execTstQuadBist_resetHeld hs _ _ _
  | tstCxlHold => exact execTstCxlHold_resetHeld hs _ _
  | tstCxlHoldRelease => exact (execTstCxlHoldRelease_rst _ _).resetHeld hs
  | tstCxlMargin => exact execTstCxlMargin_resetHeld hs _ _ _ _
  | tstLinkMargin => exact execTstLinkMargin_resetHeld hs _ _ _ _
  | tstNandChannel => exact execTstNandChannel_resetHeld hs _ _ _ _
  | quadHang => exact execQuadHang_resetHeld hs _
  | stackControllerHang => exact execStackControllerHang_resetHeld hs _ _
  | ringStopHang => exact execRingStopHang_resetHeld hs _
  | requestTimeout => exact (execRequestTimeout_rst _).resetHeld hs
  | tagHoldExpiry => exact (execTagHoldExpiry_rst _).resetHeld hs
  | ceWindowEnd => exact execCeWindowEnd_rst.resetHeld hs
  | vddAuxFall => exact execVddAuxFall_resetHeld
  | extest => exact (execExtest_rst _ _).resetHeld hs
  | samplePreload => exact (execSamplePreload_rst _ _).resetHeld hs
  | idcode => exact execIdcode_rst.resetHeld hs
  | usercode => exact execUsercode_rst.resetHeld hs
  | clamp => exact execClamp_rst.resetHeld hs
  | highz => exact execHighz_rst.resetHeld hs
  | extestPulse => exact (execExtestPulse_rst _ _).resetHeld hs
  | extestTrain => exact (execExtestTrain_rst _ _).resetHeld hs
  | bypass => exact (execBypass_rst _).resetHeld hs
  | rootPllRelock => exact execRootPllRelock_resetHeld hs
  | watchdogKick => exact (execWatchdogKick_rst _).resetHeld hs
  | sahtinRestartDone => exact execSahtinRestartDone_resetHeld hs
  | rootOfTrustRestartDone => exact execRootOfTrustRestartDone_rst.resetHeld hs
  | atsEnable => exact (execAtsEnable_rst _ _ _ _).resetHeld hs
  | rejoinHistory => exact (execRejoinHistory_rst _).resetHeld hs
  | detachWaitExpiry => exact (execDetachWaitExpiry_rst _).resetHeld hs
  | sourceConfigWrite => exact (execSourceConfigWrite_rst _ _ _).resetHeld hs
  | vddAuxRise => exact execVddAuxRise_resetHeld hs

/-! ### The two pins (R622) -/

theorem exec_nodeRecoverN (low : Bool) (width : Nat) : exec (.nodeRecoverN low width) s = execNodeRecoverN low width s := rfl

theorem exec_nodeResetNAssert (width : Nat) : exec (.nodeResetNAssert width) s = execNodeResetNAssert width s := rfl

theorem recoverPin_acts {width : Nat} (hreset : s.rst.resetN = true) (hpin : s.rst.recoverN = true) (hwidth : 1000 ≤ width) :
    exec (.nodeRecoverN true width) s = .next (beginRecovery 9 { s with rst := { s.rst with recoverN := false } }) := by
  simp [exec_nodeRecoverN, execNodeRecoverN, hreset, hpin, Nat.not_lt.mpr hwidth]

theorem recoverPin_ignored {width : Nat} (h : width < 1000 ∨ s.rst.recoverN = false ∨ s.rst.resetN = false) :
    exec (.nodeRecoverN true width) s = .next s := by
  rcases h with h | h | h <;> simp [exec_nodeRecoverN, execNodeRecoverN, h]

theorem recoverPin_returns (width : Nat) : exec (.nodeRecoverN false width) s = .next { s with rst := { s.rst with recoverN := true } } := rfl

theorem resetPin_acts {width : Nat} (hwidth : 1000 ≤ width) : exec (.nodeResetNAssert width) s =
    .next (coldReset { s with rst := { s.rst with resetN := false, faultN := !s.sah.tripped } }) := by
  simp [exec_nodeResetNAssert, execNodeResetNAssert, Nat.not_lt.mpr hwidth]

theorem resetPin_ignored {width : Nat} (hwidth : width < 1000) : exec (.nodeResetNAssert width) s = .next s := by
  simp [exec_nodeResetNAssert, execNodeResetNAssert, hwidth]

end Sys2Proof.Machine

namespace Sys2Proof.Claims
open Sys2Proof.Machine

/-- Settles O54: a pulse of 1 µs reaches a recovery or a cold reset and a shorter one nothing; and no command but the rise of NODE_RESET_N moves
a held reset, as each either leaves the reset state alone or runs only steps that keep the reset held. -/
theorem recoverPin : Obligations.RecoverPin := by
  unfold Obligations.RecoverPin
  refine ⟨fun width s hreset hpin hwidth hstate => ?_, fun _ _ h => recoverPin_ignored (.inl h),
    fun _ _ h => recoverPin_ignored (.inr (.inl h)), fun width _ => recoverPin_returns width, fun _ _ h => recoverPin_ignored (.inr (.inr h)),
    fun _ _ h => ⟨_, resetPin_acts h, coldReset_resetHeld rfl⟩, fun _ _ h => resetPin_ignored h,
    fun c s t hin hlow hc ht => exec_resetHeld ⟨hin, hlow⟩ hc t ht⟩
  obtain ⟨n, hn⟩ := beginRecovery_rst (s := { s with rst := { s.rst with recoverN := false } }) 9 (.inl hstate)
  exact ⟨_, recoverPin_acts hreset hpin hwidth, by rw [hn], by rw [hn], by rw [hn]⟩

end Sys2Proof.Claims
end

section
/-! PROOFS. A step runs the command at the front of the queue, no command stops, and the invariant holds after reset. -/
namespace Sys2Proof.Machine
set_option Elab.async false

/-- An outcome that is a next state. -/
noncomputable def isNext : Host.Outcome State Fault Refusal → Bool
  | .next _ => true
  | _ => false

theorem exists_next_of_isNext {o : Host.Outcome State Fault Refusal} (h : isNext o = true) : ∃ t, o = .next t := by
  cases o with
  | next t => exact ⟨t, rfl⟩
  | _ => cases h

theorem exec_isNext (c : Instr) (s : State) : isNext (exec c s) = true := by
  set_option tactic.hygienic false in
  induction c <;> apply Eq.refl true

end Sys2Proof.Machine

namespace Sys2Proof.Claims
open Sys2Proof.Machine

/-- Settles O1: by the definition of a step. -/
theorem stepRunsCommand : Obligations.StepRunsCommand := by
  intro c rest s h
  simp only [step, h]

/-- Settles O3: every command's meaning is written as a next state. -/
theorem noCommandStops : Obligations.NoCommandStops := fun c s => exists_next_of_isNext (exec_isNext c s)

/-- Settles O5: memory is empty, and the assembly of the reset state is one that is built. -/
theorem resetInvariant : Obligations.ResetInvariant := by
  refine ⟨reset_memory_wf, ?_, ?_⟩
  · decide
  · decide

end Sys2Proof.Claims
end

section
/-! PROOFS. Boundary scan (R628, R631): what each instruction does in the compliance condition and outside it. -/
namespace Sys2Proof.Machine
set_option Elab.async false

variable {s : State} {act : State → State}

/-- In the compliance condition every instruction acts. -/
theorem tap_compliant (hpower : s.rst.vddAux = true) (hreset : s.rst.resetN = false) : tap false act s = .next (act s) := by
  simp only [tap, hpower, hreset, Bool.not_true, Bool.false_eq_true, ↓reduceIte, Bool.false_and]

/-- Outside it, an instruction other than R627's four acts as BYPASS. -/
theorem tap_outside (hpower : s.rst.vddAux = true) (hreset : s.rst.resetN = true) : tap false act s = .next (loadBypass s) := by
  simp only [tap, hpower, hreset, Bool.not_true, Bool.false_eq_true, ↓reduceIte, Bool.not_false, Bool.and_self]

/-- A value of the boundary register's length is taken whole. -/
theorem scanBoundary_eq {shift sampled : Nat} (hshift : shift < 2 ^ boundaryLength s) (hsampled : sampled % 2 ^ boundaryLength s = sampled) :
    scanBoundary s shift sampled = { s.jtag with boundary := shift, latched := shift, pins := sampled } := by
  simp only [scanBoundary, Nat.mod_eq_of_lt hshift, hsampled]

/-- An opcode that R628 does not list loads BYPASS. -/
theorem exec_bypass_eq {opcode : Nat} (hpower : s.rst.vddAux = true) (hlow : 8 ≤ opcode) (hhigh : opcode < 256) :
    exec (.bypass opcode) s = .next (loadBypass s) := by
  refine Eq.trans (b := execBypass opcode s) rfl ((tap_always _ hpower).trans ?_)
  simp only [Nat.not_lt.mpr hlow, Nat.not_le.mpr hhigh, decide_false, Bool.or_self, Bool.false_eq_true, ↓reduceIte]

end Sys2Proof.Machine

namespace Sys2Proof.Claims
open Sys2Proof.Machine

/-- Settles O43: each instruction acts, and what it scans is the boundary register's length or less. -/
theorem boundaryScanRuns : Obligations.BoundaryScanRuns := by
  refine ⟨fun shift sampled s hpower hreset hshift hsampled => ?_, fun shift sampled s hpower hshift hsampled => ?_,
    fun s hpower => ⟨_, tap_always _ hpower, rfl, rfl, rfl, rfl, rfl⟩, fun s hpower => ⟨_, tap_always _ hpower, rfl, rfl, rfl, rfl, rfl⟩,
    fun s hpower hreset => ⟨_, tap_compliant hpower hreset, rfl, rfl, rfl, rfl, rfl, rfl⟩,
    fun s hpower hreset => ⟨_, tap_compliant hpower hreset, rfl, rfl, rfl, rfl, rfl⟩,
    fun shift idles s hpower hreset hshift => ⟨_, tap_compliant hpower hreset, congrArg some (Nat.mod_eq_of_lt hshift), rfl, rfl, rfl, rfl⟩,
    fun shift ticks s hpower hreset hshift => ⟨_, tap_compliant hpower hreset, congrArg some (Nat.mod_eq_of_lt hshift), rfl, rfl, rfl, rfl⟩,
    fun opcode s hpower hlow hhigh => ⟨_, exec_bypass_eq hpower hlow hhigh, rfl, rfl, rfl, rfl, rfl, rfl⟩,
    fun shift sampled s hpower hreset => ⟨_, tap_outside hpower hreset, rfl, rfl, rfl⟩⟩
  · have hscan := scanBoundary_eq hshift (Nat.mod_eq_of_lt hsampled)
    exact ⟨_, tap_compliant hpower hreset, by rw [hscan]; rfl, rfl, by rw [hscan]; rfl, by rw [hscan]; rfl, rfl, rfl⟩
  · have hscan := scanBoundary_eq hshift (Nat.mod_eq_of_lt hsampled)
    exact ⟨_, tap_always _ hpower, by rw [hscan]; rfl, rfl, rfl, by rw [hscan]; rfl, rfl, rfl⟩

end Sys2Proof.Claims
end

section
/-! PROOFS. The idle step (log 1, log 81): time passes, and reads that wait for a LUN may suspend what runs there. -/
namespace Sys2Proof.Machine
set_option Elab.async false

variable {s t : State}

/-- `t` differs from `s` in the Storekeeper's state and in what has been sent, if at all. -/
def FlashOnly (s t : State) : Prop := ∃ stk out, t = { s with stk := stk, out := out }

theorem readWaiting_flashOnly (lun : Nat) (p : Nat → Bool) (h : FlashOnly s t) : FlashOnly s (readWaiting lun p t) := by
  obtain ⟨_, _, rfl⟩ := h
  refine each_induct (P := FlashOnly s) ⟨_, _, rfl⟩ fun u b _ hu => ?_
  obtain ⟨_, _, rfl⟩ := hu
  exact ⟨_, _, rfl⟩

theorem trySuspend_flashOnly (lun : Nat) (h : FlashOnly s t) : FlashOnly s (trySuspend lun t) := by
  unfold trySuspend
  split
  case h_1 => exact h
  case h_2 o _ =>
    dsimp only
    split
    · exact h
    · split
      · exact readWaiting_flashOnly _ _ h
      · split
        · refine readWaiting_flashOnly _ _ (readWaiting_flashOnly _ _ ?_)
          obtain ⟨_, _, rfl⟩ := h
          exact ⟨_, _, rfl⟩
        · exact h

theorem noteSummary_eq (s : State) : ∃ sah, noteSummary s = { s with sah := sah } := by
  unfold noteSummary
  dsimp only
  split
  · exact ⟨_, rfl⟩
  · exact ⟨_, rfl⟩

/-- What the idle step leaves alone. -/
theorem idle_eq (s : State) : ∃ stk out sah ras, idle s = { s with now := s.now + 1, stk := stk, out := out, sah := sah, ras := ras } ∧
    (s.stk.lunWait = [] → out = s.out) := by
  obtain ⟨stk, out, hwait⟩ : FlashOnly { s with now := s.now + 1 } (each (s.stk.lunWait.map (·.1)) trySuspend { s with now := s.now + 1 }) :=
    each_induct ⟨_, _, rfl⟩ fun lun _ _ h => trySuspend_flashOnly lun h
  obtain ⟨sah, hsummary⟩ := noteSummary_eq { s with now := s.now + 1, stk := stk, out := out }
  refine ⟨stk, out, sah, _, by simp only [idle, hwait, hsummary]; rfl, fun hnone => ?_⟩
  rw [hnone] at hwait
  exact (congrArg State.out hwait).symm

end Sys2Proof.Machine

namespace Sys2Proof.Claims
open Sys2Proof.Machine

/-- Settles O2: beside node time, what an idle step changes is the Storekeeper's, the noted summary and the noted peaks. -/
theorem idleStep : Obligations.IdleStep := by
  intro s hs
  obtain ⟨_, _, _, _, hidle, hout⟩ := idle_eq s
  exact ⟨idle s, by simp only [step, hs], by rw [hidle]; exact ⟨rfl, rfl, rfl, rfl, rfl, hout, rfl, rfl, rfl, rfl, rfl, hs⟩⟩

end Sys2Proof.Claims
end

section
/-! PROOFS. SPDM, IDE and TDISP requests of a logical device that is up while the root of trust answers (R472 to R475, log 79). -/
namespace Sys2Proof.Machine
set_option Elab.async false

variable {c : Instr} {s t : State} {port ld session code : Nat} {ready : Spdm → Bool} {act : Spdm → State → State} {payload : Bytes}

/-- A request that comes in order is acted on. -/
theorem exec_spdm (hexec : exec c s = .next (spdm port ld ready act s)) (hup : ldUp s port ld = true) (hrot : s.fw.rotBusy = none)
    (hready : ready (tdiOf s (ldKey port ld)).spdm = true) : exec c s = .next (act (tdiOf s (ldKey port ld)).spdm s) := by
  simp only [hexec, spdm, hup, hrot, hready, Bool.not_true, Bool.false_eq_true, Option.isSome_none, ↓reduceIte]

/-- A payload that fits one DOE response is sent whole. -/
theorem spdmReply_short (h : payload.length ≤ doeMost) (code : Nat) : spdmReply port ld code payload t = emit (.spdm port ld code payload) t := by
  simp only [spdmReply, if_pos h]

theorem exec_spdm_short (hexec : exec c s = .next (spdm port ld ready act s)) (hup : ldUp s port ld = true) (hrot : s.fw.rotBusy = none)
    (hready : ready (tdiOf s (ldKey port ld)).spdm = true)
    (hact : act (tdiOf s (ldKey port ld)).spdm s = spdmReply port ld code payload t) (hshort : payload.length ≤ doeMost) :
    exec c s = .next (emit (.spdm port ld code payload) t) := by
  rw [exec_spdm hexec hup hrot hready, hact, spdmReply_short hshort]

/-- A request in a session whose handshake has ended is acted on. -/
theorem exec_inSession (hexec : exec c s = .next (inSession port ld session act s)) (hup : ldUp s port ld = true) (hrot : s.fw.rotBusy = none)
    (hsession : tfind (tdiOf s (ldKey port ld)).spdm.sessions session = some 2) :
    exec c s = .next (act (tdiOf s (ldKey port ld)).spdm s) := by
  rw [exec_spdm hexec hup hrot rfl, hsession]
  rfl

theorem exec_inSession_short (hexec : exec c s = .next (inSession port ld session act s)) (hup : ldUp s port ld = true)
    (hrot : s.fw.rotBusy = none) (hsession : tfind (tdiOf s (ldKey port ld)).spdm.sessions session = some 2)
    (hact : act (tdiOf s (ldKey port ld)).spdm s = spdmReply port ld code payload t) (hshort : payload.length ≤ doeMost) :
    exec c s = .next (emit (.spdm port ld code payload) t) := by
  rw [exec_inSession hexec hup hrot hsession, hact, spdmReply_short hshort]

@[simp] theorem length_toLE (w n : Nat) : (toLE w n).length = w := by
  induction w generalizing n with
  | zero => rfl
  | succ w ih => simp only [toLE, List.length_cons, ih]

theorem toLE_short {w : Nat} (h : w ≤ doeMost) (n : Nat) : (toLE w n).length ≤ doeMost := by rwa [length_toLE]

/-- A part of a long object follows two counts of two bytes each. -/
theorem drop_counts (n left : Nat) (b : Bytes) : (packLE [(2, n), (2, left)] ++ b).drop 4 = b := rfl

theorem tdiOf_setTdi (k : Nat) (x : Tdi) : tdiOf (setTdi k x s) k = x := by simp only [tdiOf, setTdi, tfind_tput_same, Option.getD_some]

theorem tdiOf_setTdi_other {k j : Nat} (h : j ≠ k) (x : Tdi) : tdiOf (setTdi k x s) j = tdiOf s j := by
  simp only [tdiOf, setTdi, tfind_tput_other h]

theorem spdm_setSpdm (k : Nat) (x : Spdm) : (tdiOf (setSpdm k x s) k).spdm = x := congrArg Tdi.spdm (tdiOf_setTdi _ _)

end Sys2Proof.Machine

namespace Sys2Proof.Claims
open Sys2Proof.Machine

/-- Settles O32: each request comes in order, so it is acted on, and its answer fits one response or is left to `spdmReply`. -/
theorem spdmRuns : Obligations.SpdmRuns := by
  have hempty : ([] : Bytes).length ≤ doeMost := by decide
  refine ⟨fun port ld s hup hrot => ?_, fun port ld s hup hrot hstage => ?_, fun port ld s hup hrot hstage => ?_,
    fun port ld s hup hrot hstage => ?_, fun port ld offset length s hup hrot hstage hoffset => ?_, fun port ld nonce s hup hrot hstage => ?_,
    fun port ld index nonce s hup hrot hstage hlow hhigh => ?_, fun port ld random s hup hrot hstage hroom => ?_,
    fun port ld session s hup hrot hsession => ?_, fun port ld session op s hup hrot hsession hlow hhigh => ?_,
    fun port ld session s hup hrot hsession => ?_, fun port ld session s hup hrot hsession hsorted => ?_, fun port ld part s hup hrot => ?_,
    fun port ld seq s hup hrot hlarge hseq => ?_⟩
  · exact ⟨_, exec_spdm_short rfl hup hrot rfl rfl (by decide), congrArg Spdm.stage (spdm_setSpdm _ _), rfl⟩
  · exact ⟨_, _, exec_spdm_short rfl hup hrot (beq_iff_eq.mpr hstage) rfl (toLE_short (by decide) _),
      congrArg Spdm.stage (spdm_setSpdm _ _), rfl⟩
  · exact ⟨_, _, exec_spdm_short rfl hup hrot (beq_iff_eq.mpr hstage) rfl (by decide), congrArg Spdm.stage (spdm_setSpdm _ _), rfl⟩
  · have hlength : ([1] ++ toLE 64 (Config.digest 6 0)).length ≤ doeMost := by
      simp only [List.length_append, length_toLE, List.length_singleton, doeMost, Nat.reduceAdd, Nat.reduceLeDiff]
    have hacts := exec_spdm (c := .getDigests port ld) rfl hup hrot (decide_eq_true hstage)
    exact hacts.trans (congrArg _ (spdmReply_short hlength 0))
  · have hacts := exec_spdm (c := .getCertificate port ld offset length) rfl hup hrot (decide_eq_true hstage)
    exact ⟨_, _, hacts.trans (congrArg _ (if_neg (Nat.not_lt.mpr hoffset))), rfl, drop_counts _ _ _⟩
  · have hacts := exec_spdm (c := .challenge port ld 0 nonce) rfl hup hrot (decide_eq_true hstage)
    exact ⟨_, hacts.trans (congrArg _ (if_neg (by decide))), congrArg Spdm.stage (spdm_setSpdm _ _), rfl, rfl⟩
  · have hzero : index ≠ 0 := by omega
    have hmost : ¬ 6 < index := by omega
    have hacts := exec_spdm (c := .getMeasurements port ld index nonce) rfl hup hrot (beq_iff_eq.mpr hstage)
    refine hacts.trans (congrArg _ ?_)
    simp only [hzero, hhigh, hmost, ↓reduceIte, decide_false, Bool.false_and, Bool.false_eq_true]
  · have hacts := exec_spdm (c := .keyExchange port ld random) rfl hup hrot (beq_iff_eq.mpr hstage)
    exact ⟨_, hacts.trans (congrArg _ (if_neg (Nat.not_le.mpr hroom))),
      (congrArg (fun x => tfind x.sessions _) (spdm_setSpdm _ _)).trans (tfind_tput_same _ _ _), rfl⟩
  · let x := (tdiOf s (ldKey port ld)).spdm
    refine ⟨_, exec_spdm_short (t := setSpdm (ldKey port ld) { x with sessions := tput x.sessions session 2 } s) rfl hup hrot rfl ?_ hempty,
      (congrArg (fun x => tfind x.sessions session) (spdm_setSpdm _ _)).trans (tfind_tput_same _ _ _), rfl⟩
    simp only [hsession, x]
  · have hop : ¬ (op = 0 ∨ 3 < op) := by omega
    have hthree : op ≠ 3 := by omega
    let x := (tdiOf s (ldKey port ld)).spdm
    refine ⟨_, exec_inSession_short (t := setSpdm (ldKey port ld) { x with updates := x.updates + 1 } s) rfl hup hrot hsession ?_ hempty, congrArg Spdm.updates (spdm_setSpdm _ _), rfl⟩
    simp only [Bool.or_eq_true, decide_eq_true_eq, hop, hthree, ↓reduceIte]
    rfl
  · exact exec_inSession_short rfl hup hrot hsession rfl hempty
  · exact ⟨_, exec_inSession_short rfl hup hrot hsession rfl hempty,
      (congrArg (fun x => tfind x.sessions session) (spdm_setSpdm _ _)).trans (tfind_tdel_same hsorted), rfl⟩
  · exact ⟨_, exec_spdm_short (t := setSpdm (ldKey port ld) { (tdiOf s (ldKey port ld)).spdm with chunk := [] ++ part, chunkSeq := 0 + 1 } s)
        rfl hup hrot rfl rfl (toLE_short (by decide) _),
      congrArg Spdm.chunk (spdm_setSpdm _ _), congrArg Spdm.chunkSeq (spdm_setSpdm _ _), rfl⟩
  · subst hseq
    have hpart : (!(tdiOf s (ldKey port ld)).spdm.large.isEmpty) = true := by
      simpa only [Bool.not_eq_true', List.isEmpty_eq_false_iff] using hlarge
    exact ⟨_, (exec_spdm rfl hup hrot hpart).trans (congrArg _ (if_neg (by simp only [bne_self_eq_false, Bool.false_eq_true, not_false_eq_true]))),
      rfl, congrArg Spdm.large (spdm_setSpdm _ _), congrArg Spdm.largeSeq (spdm_setSpdm _ _)⟩

end Sys2Proof.Claims
end

section
/-! PROOFS. IDE and TDISP in an established session, and what puts a locked TDI in error (R472 to R475, log 79). -/
namespace Sys2Proof.Machine
set_option Elab.async false

variable {s : State} {port ld : Nat}

theorem tdiOf_emit (e : Emit) (k : Nat) : tdiOf (emit e s) k = tdiOf s k := rfl

theorem mem_joined (i : Nat) (l : List Nat) : i ∈ joined i l := by
  unfold joined
  split
  · assumption
  · exact List.mem_append_right l List.mem_cons_self

theorem not_mem_without (i : Nat) (l : List Nat) : i ∉ l.filter (· != i) := by simp only [List.mem_filter, bne_self_eq_false, Bool.false_eq_true, and_false, not_false_eq_true]

/-- A TDI that is put in error keeps all but its state, and beside the TDIs only the log changes. -/
theorem tdiError_spec (k : Nat) : tdiOf (tdiError k s) k = { tdiOf s k with state := 3 } ∧ (tdiError k s).out = s.out ∧ (tdiError k s).mem = s.mem := by
  have hset := tdiOf_setTdi (s := s) k { tdiOf s k with state := 3 }
  unfold tdiError
  dsimp only
  split
  · obtain ⟨evt, hraise⟩ := raise_eq (s := setTdi k { tdiOf s k with state := 3 } s) 0x2804 1
      (if (tdiOf s k).part < 64 then some (tdiOf s k).part else none) (packLE [(1, k / 16), (1, k % 16)])
    rw [hraise]
    exact ⟨hset, rfl, rfl⟩
  · exact ⟨hset, rfl, rfl⟩

/-- The TDI of a logical device on which stream 1 is no longer in use. -/
noncomputable def givenUp (keys : Bool) (x : Tdi) : Tdi :=
  { x with active := x.active.filter (· != 1), keyed := if keys then x.keyed.filter (· != 1) else x.keyed }

/-- Stream 1 serves one logical device: it is in use there no more, and a locked TDI that used it goes to error. -/
theorem stopStream_one (keys : Bool) (x : Tdi) (hx : x = tdiOf s (ldKey port ld)) :
    (tdiOf (stopStream port ld 1 keys s) (ldKey port ld)) =
      (if 1 ∈ x.active ∧ tdiLocked s (ldKey port ld) = true then { givenUp keys x with state := 3 } else givenUp keys x) ∧
    (stopStream port ld 1 keys s).out = s.out := by
  have hset := tdiOf_setTdi (s := s) (ldKey port ld) (givenUp keys x)
  have hlocked : tdiLocked (setTdi (ldKey port ld) (givenUp keys x) s) (ldKey port ld) = tdiLocked s (ldKey port ld) := by
    simp only [tdiLocked, hset, ← hx]
    rfl
  have hstop : stopStream port ld 1 keys s =
      if decide (1 ∈ x.active) && 1 != 2 && tdiLocked (setTdi (ldKey port ld) (givenUp keys x) s) (ldKey port ld)
      then tdiError (ldKey port ld) (setTdi (ldKey port ld) (givenUp keys x) s) else setTdi (ldKey port ld) (givenUp keys x) s := by
    subst hx
    rfl
  have hiff : (decide (1 ∈ x.active) && 1 != 2 && tdiLocked s (ldKey port ld)) = true ↔ 1 ∈ x.active ∧ tdiLocked s (ldKey port ld) = true := by
    have hother : (1 != 2) = true := rfl
    rw [hother, Bool.and_true, Bool.and_eq_true, decide_eq_true_eq]
  rw [hstop, hlocked]
  by_cases hused : 1 ∈ x.active ∧ tdiLocked s (ldKey port ld) = true
  · obtain ⟨herror, hout, -⟩ := tdiError_spec (s := setTdi (ldKey port ld) (givenUp keys x) s) (ldKey port ld)
    rw [if_pos (hiff.mpr hused), if_pos hused, herror, hset]
    exact ⟨rfl, hout⟩
  · rw [if_neg (mt hiff.mp hused), if_neg hused]
    exact ⟨hset, rfl⟩

end Sys2Proof.Machine

namespace Sys2Proof.Claims
open Sys2Proof.Machine

/-- Settles O33: an established session's request is acted on, and stream 1 serves one logical device. -/
theorem tdispRuns : Obligations.TdispRuns := by
  have hempty : ([] : Bytes).length ≤ doeMost := by decide
  refine ⟨fun port ld session s hup hrot hsession => ⟨?_, ?_, ?_, ?_, ?_⟩, fun port ld session s hup hrot hsession => ?_,
    fun port ld session s hup hrot hsession hkeyed => ?_, fun port ld session s hup hrot hsession => ?_, fun port ld s hup hactive => ?_,
    fun port ld session s hup hrot hsession hstate hlock => ?_, fun port ld session offset length s hup hrot hsession hlocked hoffset => ?_,
    fun port ld session s hup hrot hsession hstate => ?_, fun port ld s hup hlocked => ?_⟩
  · exact ⟨_, _, exec_inSession_short rfl hup hrot hsession rfl (by rw [List.length_map]; decide), rfl, rfl⟩
  · exact exec_inSession_short rfl hup hrot hsession rfl (by decide)
  · exact exec_inSession_short rfl hup hrot hsession rfl (by decide)
  · exact exec_inSession_short rfl hup hrot hsession rfl (toLE_short (by decide) _)
  · exact ⟨_, exec_inSession_short rfl hup hrot hsession rfl hempty, congrArg Tdi.state (tdiOf_setTdi _ _),
      congrArg Tdi.nonce (tdiOf_setTdi _ _), rfl⟩
  · refine ⟨_, exec_inSession_short (t := setTdi (ldKey port ld) { tdiOf s (ldKey port ld) with keyed := joined 1 (tdiOf s (ldKey port ld)).keyed } s)
      rfl hup hrot hsession rfl hempty, ?_, rfl⟩
    rw [tdiOf_emit, tdiOf_setTdi]
    exact mem_joined _ _
  · have hacts := exec_inSession (c := .kSetGo port ld session 1) rfl hup hrot hsession
    refine ⟨_, hacts.trans (congrArg _ ((if_pos hkeyed).trans (spdmReply_short hempty 0))), ?_, rfl⟩
    rw [tdiOf_emit]
    exact (congrArg Tdi.active (tdiOf_setTdi _ _)).symm ▸ mem_joined _ _
  · have hacts := exec_inSession (c := .kSetStop port ld session 1) rfl hup hrot hsession
    obtain ⟨htdi, hout⟩ := stopStream_one (s := s) (port := port) (ld := ld) true _ rfl
    refine ⟨_, hacts.trans (congrArg _ ((if_neg (by decide)).trans (spdmReply_short hempty 0))), ?_⟩
    rw [tdiOf_emit, htdi]
    refine ⟨?_, ?_, fun hactive hlocked => by rw [if_pos ⟨hactive, hlocked⟩], congrArg _ hout⟩
    · rw [apply_ite Tdi.active, ite_self]
      exact not_mem_without _ _
    · rw [apply_ite Tdi.keyed, ite_self]
      exact not_mem_without _ _
  · obtain ⟨htdi, -⟩ := stopStream_one (s := setLd (ldKey port ld) { ldOf s (ldKey port ld) with rasUnc := setBit (ldOf s (ldKey port ld)).rasUnc 16 } s)
      (port := port) (ld := ld) false _ rfl
    refine ⟨_, congrArg Host.Outcome.next (if_pos hup), ?_⟩
    rw [htdi]
    refine ⟨?_, (apply_ite Tdi.state _ _ _).trans (ite_congr (propext (and_iff_right hactive)) (fun _ => rfl) fun _ => rfl)⟩
    rw [apply_ite Tdi.active, ite_self]
    exact not_mem_without _ _
  · have hacts := exec_inSession (c := .lockInterfaceRequest port ld session) rfl hup hrot hsession
    refine ⟨emit (.spdm port ld 0 (toLE 32 (draw s))) (setTdi (ldKey port ld) { tdiOf s (ldKey port ld) with state := 1, nonce := draw s } (drawn s)),
      hacts.trans (congrArg _ ?_), congrArg Tdi.state (tdiOf_setTdi _ _), congrArg Tdi.nonce (tdiOf_setTdi _ _), rfl, rfl⟩
    simp only [hstate, hlock, bne_self_eq_false, Bool.not_true, Bool.false_eq_true, ↓reduceIte, spdmReply_short (toLE_short (w := 32) (by decide) _)]
  · have hacts := exec_inSession (c := .getDeviceInterfaceReport port ld session offset length) rfl hup hrot hsession
    simp only [hlocked, Bool.not_true, Bool.false_eq_true, ↓reduceIte, Nat.not_lt.mpr hoffset] at hacts
    exact ⟨_, hacts, drop_counts _ _ _⟩
  · have hacts := exec_inSession (c := .startInterfaceRequest port ld session (tdiOf s (ldKey port ld)).nonce) rfl hup hrot hsession
    refine ⟨emit (.spdm port ld 0 []) (setTdi (ldKey port ld) { tdiOf s (ldKey port ld) with state := 2 } s), hacts.trans (congrArg _ ?_),
      congrArg Tdi.state (tdiOf_setTdi _ _), rfl⟩
    simp only [hstate, bne_self_eq_false, Bool.false_eq_true, ↓reduceIte, spdmReply_short hempty]
  · obtain ⟨htdi, -, hmem⟩ := tdiError_spec (s := s) (ldKey port ld)
    refine ⟨_, congrArg Host.Outcome.next (if_pos (by rw [hup, hlocked]; rfl)), congrArg Tdi.state htdi, hmem⟩

end Sys2Proof.Claims
end

section
/-! PROOFS. A written line reads back (R203, R205, log 7): its metadata name the writer's partition and live key, its damage is gone, and no
other line's bytes or metadata are touched. -/
namespace Sys2Proof.Machine
set_option Elab.async false

variable {s : State} {l part dpaLine : Nat} {data : Bytes} {poison : Bool}

/-- Writing bytes leaves everything but the bytes. -/
theorem putBytes_bytes_only (a : Nat) (bs : Bytes) : ∃ data, putBytes a bs s = { s with mem := { s.mem with data := data } } := by
  induction bs generalizing a s with
  | nil => exact ⟨_, rfl⟩
  | cons b bs ih => exact ih (s := putByte a b s) (a + 1)

/-- A write leaves the key records and the lost keys, and only lets the line's damage go. -/
theorem writeLine_keys :
    (writeLine l part dpaLine data poison s).lck = s.lck ∧ (writeLine l part dpaLine data poison s).ras = s.ras ∧
      (writeLine l part dpaLine data poison s).mem.damage = tdel s.mem.damage l := by
  obtain ⟨bytes, hbytes⟩ := putBytes_bytes_only (s := hbmCount (lineStack s l) 1 1 (openLine l s)) (l * 64) data
  unfold writeLine
  dsimp only
  rw [hbytes]
  exact ⟨rfl, rfl, rfl⟩

/-- A line without damage decodes, whatever device is marked. -/
theorem lineDecodes_undamaged (mark : Option Nat) : lineDecodes mark [] = true := by
  cases mark <;> rfl

/-- A line just written decodes, so that it reads as it resolves. -/
theorem readLine_writeLine (reader : Nat) (hwf : Memory.wf s.mem = true) :
    (readLine l reader dpaLine (writeLine l part dpaLine data poison s)).1 =
      resolveLine (writeLine l part dpaLine data poison s) l reader dpaLine := by
  obtain ⟨-, -, hdamage⟩ := memory_wf_iff.1 hwf
  obtain ⟨-, -, hleft⟩ := writeLine_keys (s := s) (l := l) (part := part) (dpaLine := dpaLine) (data := data) (poison := poison)
  refine readLine_of_decodes ?_
  rw [hleft, tfind_tdel_same hdamage]
  exact lineDecodes_undamaged _

/-- A partition whose current key is held has that key's seed. -/
theorem liveSeed_current (hepoch : (partOf s part).current ≠ 0) (hseed : (partOf s part).seedCur ≠ 0)
    (hheld : (part, (partOf s part).current) ∉ s.ras.lostKeys) :
    liveSeed s part (partOf s part).current = some (partOf s part).seedCur := by
  simp only [liveSeed, if_neg hheld, bne_iff_ne.2 hepoch, bne_iff_ne.2 hseed, decide_true, Bool.and_self, ↓reduceIte]

/-- A valid line of another partition does not resolve: its integrity check fails. -/
theorem resolveLine_foreign (hpoison : (lineMeta s l).poison = false) (hvalid : (lineMeta s l).valid = true)
    (hpart : (lineMeta s l).part ≠ part) : resolveLine s l part dpaLine = ⟨[], 3⟩ := by
  simp only [resolveLine, hpoison, hvalid, Bool.not_true, Bool.false_eq_true, ↓reduceIte, hpart, decide_false, Bool.false_and]
  cases liveSeed s part (lineMeta s l).epoch <;> rfl

/-- A sound line under its own partition's live seed resolves to its bytes. -/
theorem resolveLine_own (hpoison : (lineMeta s l).poison = false) (hvalid : (lineMeta s l).valid = true)
    (hpart : (lineMeta s l).part = part) (hline : (lineMeta s l).line = dpaLine)
    (hseed : liveSeed s part (lineMeta s l).epoch = some (lineMeta s l).seed) : resolveLine s l part dpaLine = ⟨rawLine s l, 0⟩ := by
  simp only [resolveLine, hpoison, hvalid, hpart, hline, hseed, Bool.not_true, Bool.false_eq_true, ↓reduceIte, beq_self_eq_true,
    decide_true, Bool.and_self]

/-- A write leaves the bytes of every other line. -/
theorem rawLine_writeLine_other {k : Nat} (hlen : data.length = 64) (hk : k ≠ l) :
    rawLine (writeLine l part dpaLine data poison s) k = rawLine s k := by
  refine List.map_congr_left fun i hi => ?_
  have hi := List.mem_range.1 hi
  exact byte_putBytes_other (s := hbmCount (lineStack s l) 1 1 (openLine l s)) (by omega)

theorem lineMeta_setMeta_other {k : Nat} {m : LineMeta} (hk : k ≠ l) : lineMeta (setMeta l m s) k = lineMeta s k :=
  tget_tset_other hk

/-- A write leaves the metadata of every other line. -/
theorem lineMeta_writeLine_other {k : Nat} (hk : k ≠ l) :
    lineMeta (writeLine l part dpaLine data poison s) k = lineMeta s k := by
  have hinfo := putBytes_info (s := hbmCount (lineStack s l) 1 1 (openLine l s)) (l * 64) data
  exact (lineMeta_setMeta_other hk).trans (congrArg (fun i => tget ({} : LineMeta) i k) hinfo)

/-- A write keeps the canonical form of memory. -/
theorem writeLine_wf (hwf : Memory.wf s.mem = true) : Memory.wf (writeLine l part dpaLine data poison s).mem = true := by
  have hput : Memory.wf (putBytes (l * 64) data (hbmCount (lineStack s l) 1 1 (openLine l s))).mem = true := putBytes_wf hwf
  obtain ⟨hdata, hinfo, hdamage⟩ := memory_wf_iff.1 hput
  exact setMeta_wf (memory_wf_iff.2 ⟨hdata, hinfo, tsorted_tdel hdamage⟩)

end Sys2Proof.Machine

namespace Sys2Proof.Claims
open Sys2Proof.Machine

/-- Settles O59: the written line's metadata carry the writer's partition and live seed, so it alone resolves the line. -/
theorem writtenLineReadsBack : Obligations.WrittenLineReadsBack := by
  intro l part dpaLine data s hwf ⟨hepoch, hseed, hheld⟩ hlen
  have hmeta := lineMeta_writeLine (s := s) (l := l) (part := part) (dpaLine := dpaLine) (data := data) (poison := false) hwf
  obtain ⟨hlck, hras, -⟩ := writeLine_keys (s := s) (l := l) (part := part) (dpaLine := dpaLine) (data := data) (poison := false)
  refine ⟨?_, fun other hother => ?_, fun k hk => ⟨rawLine_writeLine_other hlen hk, lineMeta_writeLine_other hk⟩, writeLine_wf hwf⟩
  · rw [readLine_writeLine part hwf, resolveLine_own (by rw [hmeta]) (by rw [hmeta]) (by rw [hmeta]) (by rw [hmeta]),
      rawLine_writeLine hwf hlen]
    rw [hmeta]
    unfold liveSeed partOf
    rw [hlck, hras]
    exact liveSeed_current hepoch hseed hheld
  · rw [readLine_writeLine other hwf]
    exact resolveLine_foreign (by rw [hmeta]) (by rw [hmeta]) (by rw [hmeta]; exact hother.symm)

end Sys2Proof.Claims
end

section
/-! PROOFS. Requests that finish at once: the action of a request that is taken runs while the request is outstanding, and what it answers is
sent directly, not as a notice (R525, R530). -/
namespace Sys2Proof.Machine
set_option Elab.async false

variable {s t : State} {α : Type}

/-- What does not depend on Sahtin's state or on what is sent reads the same after an answer. -/
theorem Answers.read (h : Answers s t) (f : State → α) (hf : ∀ out sah, f { s with out := out, sah := sah } = f s) : f t = f s := by
  obtain ⟨out, sah, rfl⟩ := h
  exact hf out sah

theorem Replies.answers (h : Replies s t) : Answers s t := ⟨_, _, h.eq_update⟩

/-- What a request's end may change: `t` is `s` but for the sessions, the count of frames sent, the entries' status, and what is sent. -/
def Finishes (s t : State) : Prop :=
  t = { s with out := t.out, sah := { s.sah with sessions := t.sah.sessions, ethStats := t.sah.ethStats, cmdStatus := t.sah.cmdStatus } }

theorem Finishes.trans {u : State} (h : Finishes s t) (k : Finishes t u) : Finishes s u :=
  Eq.trans k (congrArg (fun v : State => { v with
    out := u.out, sah := { v.sah with sessions := u.sah.sessions, ethStats := u.sah.ethStats, cmdStatus := u.sah.cmdStatus } }) h)

theorem Finishes.read (h : Finishes s t) (f : State → α) (hf : ∀ out sessions stats status,
    f { s with out := out, sah := { s.sah with sessions := sessions, ethStats := stats, cmdStatus := status } } = f s) : f t = f s :=
  (congrArg f h).trans (hf _ _ _ _)

theorem Replies.finishes (h : Replies s t) : Finishes s t := by
  obtain ⟨_, _, _, rfl⟩ := h
  rfl

theorem finish_finishes (q : Ask) (key status : Nat) (body : Bytes) : Finishes s (finish q key status body s) := by
  unfold finish
  refine .trans (t := setStatus key status s) rfl (.trans (acceptOverdue_replies q.sid).finishes ?_)
  dsimp only
  split
  case h_1 => rfl
  case h_2 x hx =>
    split
    case isTrue hnotice => rfl
    case isFalse hdirect => rfl

end Sys2Proof.Machine

namespace Sys2Proof.Claims
open Sys2Proof.Machine
set_option Elab.async false

variable {s t : State} {q : Ask} {role roles key status : Nat}

/-- The session of `q` is open, and the request has not been answered ACCEPTED and is not overdue. -/
def Awaits (q : Ask) (t : State) : Prop :=
  ∃ x, sessionOf t q.sid = some x ∧ ∀ r ∈ x.running, r.1 = q.req → r.2.2.2 = false ∧ t.now < r.2.1 + execLimit

theorem Awaits.of_update {u : State} (h : Awaits q t) (hsessions : u.sah.sessions = t.sah.sessions) (hnow : u.now = t.now) :
    Awaits q u := by
  unfold Awaits sessionOf at *
  rwa [hsessions, hnow]

/-- The overdue requests' answers leave a request that is not overdue as it was. -/
theorem awaits_acceptedBy {x : Session} {now : Nat} (h : ∀ r ∈ x.running, r.1 = q.req → r.2.2.2 = false ∧ now < r.2.1 + execLimit) :
    ∀ r ∈ (acceptedBy now x).running, r.1 = q.req → r.2.2.2 = false ∧ now < r.2.1 + execLimit := by
  intro r hr hreq
  obtain ⟨r', hr', rfl⟩ := List.mem_map.1 hr
  by_cases hlate : r'.2.1 + execLimit ≤ now
  · rw [if_pos hlate] at hreq
    exact absurd (h r' hr' hreq).2 (Nat.not_lt.2 hlate)
  · rw [if_neg hlate] at hreq ⊢
    exact h r' hr' hreq

/-- A request that awaits its answer is sent it directly when it finishes. -/
theorem finish_answered (body : Bytes) (h : Awaits q t) : answered (finish q key status body t) q status = true := by
  obtain ⟨x, hx, hrunning⟩ := h
  have hopen : sessionOf (acceptOverdue q.sid (setStatus key status t)) q.sid = some (acceptedBy t.now x) := sessionOf_acceptOverdue hx
  have hdirect : (acceptedBy t.now x).running.any (fun r => r.1 == q.req && r.2.2.2) = false := by
    refine List.any_eq_false.2 fun r hr hreq => ?_
    obtain ⟨hown, haccepted⟩ := Bool.and_eq_true_iff.1 hreq
    exact absurd ((awaits_acceptedBy hrunning r hr (beq_iff_eq.1 hown)).1) (by rw [haccepted]; decide)
  unfold finish
  simp only [hopen, hdirect, Bool.false_eq_true, ↓reduceIte, answered, sendFrame, emit, BEq.rfl, Bool.and_self]

/-- The end of a request leaves what its session declared, selected and staged. -/
theorem sessionOf_finish {x : Session} (body : Bytes) (hx : sessionOf t q.sid = some x) :
    ∃ y, sessionOf (finish q key status body t) q.sid = some y ∧ y.declared = x.declared ∧ y.selects = x.selects ∧
      y.staged = x.staged ∧ y.subs = x.subs := by
  have hopen : sessionOf (acceptOverdue q.sid (setStatus key status t)) q.sid = some (acceptedBy t.now x) := sessionOf_acceptOverdue hx
  unfold finish
  dsimp only
  rw [hopen]
  dsimp only
  split
  case isTrue hnotice => exact ⟨_, sessionOf_setSession_same q.sid _, rfl, rfl, rfl, rfl⟩
  case isFalse hdirect => exact ⟨_, sessionOf_setSession_same q.sid _, rfl, rfl, rfl, rfl⟩

/-- `c` ran the action `act` on the session `x` of its request `q`, in the state `t`: the request awaits its answer there, and `t` differs
from the state before in its sessions and what is sent only. -/
structure Runs (c : Instr) (q : Ask) (role : Nat) (act : Session → State → State) (s : State) (x : Session) (t : State) : Prop where
  awaits : Awaits q t
  replies : Replies s t
  open_eq : sessionOf t q.sid = some x
  role_eq : x.role = role
  part_eq : x.part = partitionOf s q
  select_eq : ∀ entry, selectOf x entry 0 = selected s q entry
  exec_eq : exec c s = .next (act x t)

/-- The action of a taken request of an allowed role runs. -/
theorem exec_of_taken {c : Instr} {changes : Bool} {act : Session → State → State}
    (hexec : exec c s = .next (ask q roles key changes act s)) (h : taken s q role = true)
    (hrole : bitOf roles (if role = 1 then 0 else if role = 2 then 1 else 2) = true) : ∃ x t, Runs c q role act s x t := by
  obtain ⟨x, t, hx, hxrole, hreplies, hrun⟩ := ask_of_taken key changes act h hrole
  obtain ⟨-, -, -, x', hx', -, hnew, -⟩ := taken_iff.1 h
  obtain rfl := Option.some.inj (hx'.symm.trans hx)
  obtain ⟨-, hfresh, -, -⟩ := newFor_passes hnew
  refine ⟨admitted s q key x', _, ⟨_, sessionOf_setSession_same _ _, fun r hr hreq => ?_⟩, hreplies.trans (setSession_replies _ _),
    sessionOf_setSession_same _ _, hxrole, ?_, fun entry => ?_, hexec.trans (congrArg _ hrun)⟩
  · have hnow : (setSession q.sid (admitted s q key x') t).now = s.now := hreplies.now_eq
    rw [hnow]
    rcases List.mem_append.1 hr with hold | hown
    · obtain ⟨r', hr', rfl⟩ := List.mem_map.1 hold
      have hreq' : r'.1 = q.req := by rwa [apply_ite Prod.fst, ite_self] at hreq
      exact absurd (beq_iff_eq.2 hreq') (List.any_eq_false.1 hfresh r' hr')
    · rw [List.mem_singleton.1 hown]
      exact ⟨rfl, Nat.lt_add_of_pos_right (by decide)⟩
  · rw [partitionOf, hx]
    rfl
  · rw [selected, hx]
    rfl

end Sys2Proof.Claims
end

section
/-! PROOFS. Interrupts to hosts and to cores, and the event log (R488 to R500). -/
namespace Sys2Proof.Machine
set_option Elab.async false

variable {s t : State}

/-- `t` is `s` but for the interrupt tables and what is sent. -/
def Delivers (s t : State) : Prop := t = { s with msix := t.msix, out := t.out }

theorem Delivers.refl : Delivers s s := rfl

theorem Delivers.trans {u : State} (h : Delivers s t) (k : Delivers t u) : Delivers s u :=
  Eq.trans k (congrArg (fun v : State => { v with msix := u.msix, out := u.out }) h)

/-- What does not depend on the interrupt tables or on what is sent reads the same after a delivery. -/
theorem Delivers.read {α : Type} (h : Delivers s t) (f : State → α) (hf : ∀ msix out, f { s with msix := msix, out := out } = f s) :
    f t = f s :=
  (congrArg f h).trans (hf _ _)

theorem Delivers.ite {p : Prop} [Decidable p] (h : Delivers s t) : Delivers s (if p then t else s) := by
  split
  · exact h
  · exact .refl

theorem each_delivers {α : Type} {f : α → State → State} (items : List α) (hf : ∀ a t, Delivers t (f a t)) : Delivers s (each items f s) :=
  each_induct (P := Delivers s) .refl fun a _ _ ht => ht.trans (hf a _)

theorem releaseGroup_delivers (k group : Nat) : Delivers s (releaseGroup k group s) := by
  refine .trans ?_ (each_delivers _ fun _ _ => rfl)
  rfl

theorem fireVector_delivers (k vector : Nat) : Delivers s (fireVector k vector s) := by
  unfold fireVector
  dsimp only
  split
  case isTrue hpending => rfl
  case isFalse hclear =>
    split
    case isTrue hsend => rfl
    case isFalse hheld => rfl

/-- A context that fires clears its count and its timer. -/
theorem fireContext_eq {ctx : Nat} {c : Ctx} (hctx : tfind s.cle.ctxs ctx = some c) :
    Delivers (setCtx ctx { c with n := 0, timerAt := none } s) (fireContext ctx s) := by
  unfold fireContext
  rw [hctx]
  exact fireVector_delivers _ _

@[simp] theorem msixOf_put_same (k : Nat) (m : MsiX) : msixOf { s with msix := tput s.msix k m } k = m := by
  simp only [msixOf, tfind_tput_same, Option.getD_some]

/-- Sending a vector keeps which vectors are unmasked, and the table. -/
theorem sendVector_table (k vector : Nat) :
    (msixOf (sendVector k vector s) k).unmasked = (msixOf s k).unmasked ∧ (msixOf (sendVector k vector s) k).table = (msixOf s k).table := by
  constructor <;> simp only [sendVector, msixOf, emit, tfind_tput_same, Option.getD_some]

/-- The table of a vector that is unmasked. -/
noncomputable def clearedMask (vector : Nat) (entry : Option (Nat × Nat)) (m : MsiX) : MsiX :=
  { m with
    unmasked := if vector ∈ m.unmasked then m.unmasked else vector :: m.unmasked
    table := match entry with | some e => tput m.table vector (e.1 % 2 ^ 64, e.2 % 2 ^ 32) | none => m.table }

theorem mem_clearedMask_unmasked (vector : Nat) (entry : Option (Nat × Nat)) (m : MsiX) :
    vector ∈ (clearedMask vector entry m).unmasked ∧ ∀ v ∈ m.unmasked, v ∈ (clearedMask vector entry m).unmasked := by
  unfold clearedMask
  dsimp only
  split
  case isTrue hmem => exact ⟨hmem, fun _ => id⟩
  case isFalse hnew => exact ⟨List.mem_cons_self, fun _ => List.mem_cons_of_mem _⟩

/-- The vector's mask is cleared, and the vector is sent where it is pending and may be delivered. -/
noncomputable def unmaskVector (k vector : Nat) (entry : Option (Nat × Nat)) (s : State) : State :=
  let m := clearedMask vector entry (msixOf s k)
  let s := { s with msix := tput s.msix k m }
  if vector ∈ m.pending && deliverable s m vector && !heldOff s m vector then sendVector k vector s else s

theorem exec_maskClear {port ld vector : Nat} (entry : Option (Nat × Nat)) (hvector : vector < 2048)
    (hlock : tdiLocked s (ldKey port ld) = false) :
    exec (.maskClear port ld vector entry) s = .next (unmaskVector (ldKey port ld) vector entry s) :=
  congrArg Host.Outcome.next ((if_neg (Nat.not_le.2 hvector)).trans (if_neg (by rw [hlock]; decide)))

theorem unmaskVector_eq (k vector : Nat) (entry : Option (Nat × Nat)) :
    Delivers s (unmaskVector k vector entry s) ∧
      (msixOf (unmaskVector k vector entry s) k).unmasked = (clearedMask vector entry (msixOf s k)).unmasked ∧
      (msixOf (unmaskVector k vector entry s) k).table = (clearedMask vector entry (msixOf s k)).table ∧
      (vector ∉ (msixOf s k).pending → (unmaskVector k vector entry s).out = s.out) := by
  have hput := msixOf_put_same (s := s) k (clearedMask vector entry (msixOf s k))
  unfold unmaskVector
  dsimp only
  split
  case isTrue hsend =>
    simp only [Bool.and_eq_true, decide_eq_true_eq] at hsend
    obtain ⟨⟨hpending, -⟩, -⟩ := hsend
    obtain ⟨hunmasked, htable⟩ := sendVector_table (s := { s with msix := tput s.msix k (clearedMask vector entry (msixOf s k)) }) k vector
    rw [hput] at hunmasked htable
    exact ⟨rfl, hunmasked, htable, fun hclear => absurd hpending hclear⟩
  case isFalse => exact ⟨rfl, congrArg MsiX.unmasked hput, congrArg MsiX.table hput, fun _ => rfl⟩

theorem pumpSub_replies (fuel sid slot : Nat) : Replies s (pumpSub fuel sid slot s) := by
  induction fuel generalizing s with
  | zero => exact .refl
  | succ fuel ih =>
    unfold pumpSub
    split
    · exact .refl
    · split
      · exact .refl
      · dsimp only
        split
        · exact .refl
        · exact ((setSession_replies _ _).trans (sendFrame_replies _)).trans ih

theorem pumpSubs_replies : Replies s (pumpSubs s) :=
  each_induct (P := Replies s) .refl fun _ _ _ ht =>
    ht.trans (each_induct (P := Replies _) .refl fun _ _ _ hu => hu.trans (pumpSub_replies _ _ _))

/-- A claimed source other than the management and watchdog sources is no longer pending (R495). -/
theorem exec_claim_clears {core src : Nat} (hcore : core < 4) (hclaim : claimed (sicOf s core) core = some src) (hfirst : src ≠ 1)
    (hsecond : src ≠ 2) (ht : exec (.claim core) s = .next t) : src ∉ (sicOf t core).pending := by
  change execClaim core s = _ at ht
  simp only [execClaim, if_neg (Nat.not_le.mpr hcore), hclaim, hfirst, hsecond, decide_false, Bool.or_self, Bool.false_eq_true,
    ↓reduceIte, Host.Outcome.next.injEq] at ht
  rw [← ht, sicOf_emit, sicOf_setSic_same]
  simp only [List.mem_filter, bne_self_eq_false, Bool.false_eq_true, and_false, not_false_eq_true]

/-- A log that is not full takes the oldest record that waits, under the next sequence number. -/
theorem exec_eventWrite {e : Event} {rest : List Event} (hqueue : s.evt.queue = e :: rest) (hroom : s.evt.log.length < 1048576) :
    ∃ u, exec .eventWrite s = .next (pumpSubs u) ∧ u.evt.queue = rest ∧ u.evt.nextSeq = s.evt.nextSeq + 1 ∧
      u.evt.log = s.evt.log ++ [(s.evt.nextSeq, { e with seq := s.evt.nextSeq })] ∧ u.mem = s.mem := by
  have hkeep : ¬ 1048576 < (s.evt.log ++ [(s.evt.nextSeq, { e with seq := s.evt.nextSeq })]).length := by
    rw [List.length_append, List.length_singleton]
    exact Nat.not_lt.2 hroom
  change ∃ u, execEventWrite s = _ ∧ _
  rw [execEventWrite, hqueue]
  exact ⟨_, rfl, rfl, rfl, if_neg hkeep, rfl⟩

theorem exec_eventWrite_logged {e : Event} {rest : List Event} (hqueue : s.evt.queue = e :: rest) (hroom : s.evt.log.length < 1048576) :
    ∃ t, exec .eventWrite s = .next t ∧ t.evt.queue = rest ∧ t.evt.nextSeq = s.evt.nextSeq + 1 ∧
      t.evt.log = s.evt.log ++ [(s.evt.nextSeq, { e with seq := s.evt.nextSeq })] ∧ t.mem = s.mem := by
  obtain ⟨u, hu, hlogged⟩ := exec_eventWrite hqueue hroom
  have hpump := (pumpSubs_replies (s := u)).answers
  refine ⟨_, hu, ?_⟩
  rwa [hpump.read State.evt fun _ _ => rfl, hpump.read State.mem fun _ _ => rfl]

end Sys2Proof.Machine

namespace Sys2Proof.Claims
open Sys2Proof.Machine

/-- Delivering interrupts between the write of a register and the answer keeps the value, the answer and memory. -/
theorem finish_setReg_delivers {s t : State} {q : Ask} {key value : Nat} (h : Delivers (setReg key 0 value s) t) (hawaits : Awaits q s)
    (hregs : tsorted s.regs = true) :
    tget 0 (finish q key stOk [] t).regs key = value ∧ answered (finish q key stOk [] t) q stOk = true ∧
      (finish q key stOk [] t).mem = s.mem := by
  have hfinish := finish_answers (s := t) q key stOk []
  refine ⟨?_, finish_answered [] (hawaits.of_update ?_ ?_), ?_⟩
  · rw [hfinish.read (fun u => tget 0 u.regs key) fun _ _ => rfl, h.read (fun u => tget 0 u.regs key) fun _ _ => rfl]
    exact tget_tset_same hregs
  · exact h.read (fun u => u.sah.sessions) fun _ _ => rfl
  · exact h.read State.now fun _ _ => rfl
  · exact (hfinish.read State.mem fun _ _ => rfl).trans (h.read State.mem fun _ _ => rfl)

/-- The global disable takes the value written; releasing held groups touches neither the registers nor the sessions. -/
theorem exec_irqGlobalDisable {s : State} {q : Ask} {value : Nat} (htaken : taken s q 1 = true) (hvalue : value ≤ 1)
    (hregs : tsorted s.regs = true) :
    ∃ t, exec (.irqGlobalDisable q value) s = .next t ∧ rIrqGlobalDisable t = value ∧ answered t q stOk = true ∧ t.mem = s.mem := by
  obtain ⟨x, t, h⟩ := exec_of_taken (c := .irqGlobalDisable q value) rfl htaken rfl
  rw [← h.replies.answers.read State.mem fun _ _ => rfl]
  exact ⟨_, h.exec_eq.trans (congrArg _ (if_neg (Nat.not_lt.2 hvalue))), finish_setReg_delivers (.ite (each_delivers _ fun _ _ => each_delivers _ fun _ _ => releaseGroup_delivers _ _))
    h.awaits (by rwa [h.replies.answers.read State.regs fun _ _ => rfl])⟩

/-- Whether a context's count or its timer is past the thresholds. -/
noncomputable def pastThresholds (count time now : Nat) (c : Ctx) : Bool :=
  (0 < c.n && decide (count ≤ c.n)) || match c.timerAt with | some t => decide (t + usec time ≤ now) | none => false

/-- A context with its thresholds set. -/
noncomputable def setThresholds (count time : Nat) (c : Ctx) : Ctx := { c with countThr := count, timeThr := time }

/-- A context that has fired: nothing is counted and no timer runs. -/
noncomputable def firedCtx (c : Ctx) : Ctx := { c with n := 0, timerAt := none }

/-- A context takes the thresholds, and fires if it is past them. -/
noncomputable def coalesced (count time ctx : Nat) (s : State) : State :=
  if pastThresholds count time s.now (ctxOf s ctx) then fireContext ctx (setCtx ctx (setThresholds count time (ctxOf s ctx)) s)
  else setCtx ctx (setThresholds count time (ctxOf s ctx)) s

theorem finish_ctx {s : State} {q : Ask} {key status : Nat} {body : Bytes} (ctx : Nat) :
    tfind (finish q key status body s).cle.ctxs ctx = tfind s.cle.ctxs ctx :=
  (finish_answers _ _ _ _).read (fun u => tfind u.cle.ctxs ctx) fun _ _ => rfl

/-- Thresholds of a context are set; the context fires if its count or its timer is past them. -/
theorem exec_irqCqCoalesce {s : State} {q : Ask} {count time : Nat} (htaken : taken s q 1 = true)
    (hcount : ¬ (decide (count = 0) || decide (4095 < count) || decide (time = 0) || decide (65535 < time)) = true) :
    ∃ ctx t, ctx = selected s q 0x500200 ∧ Awaits q t ∧ Answers s t ∧
      exec (.irqCqCoalesce q count time) s = .next (finish q 0x800100 stOk [] (coalesced count time ctx t)) := by
  obtain ⟨x, t, h⟩ := exec_of_taken (c := .irqCqCoalesce q count time) rfl htaken rfl
  have howns (y : Ctx) : ¬ (!ownsPart x y.part || decide (x.role = 2) && !y.assigned) = true := by
    simp only [ownsPart, h.role_eq]
    exact Bool.false_ne_true
  exact ⟨_, t, h.select_eq _, h.awaits, h.replies.answers, h.exec_eq.trans (congrArg _ ((if_neg (howns _)).trans (if_neg hcount)))⟩

/-- The thresholds are the context's whether it fires or not; it fires only past a threshold. -/
theorem coalesced_ctx {s : State} {q : Ask} {count time ctx : Nat} (hawaits : Awaits q s) :
    Awaits q (coalesced count time ctx s) ∧ ∃ y, tfind (coalesced count time ctx s).cle.ctxs ctx = some y ∧ y.countThr = count ∧
      y.timeThr = time ∧ ((ctxOf s ctx).n < count → (ctxOf s ctx).timerAt = none → y.n = (ctxOf s ctx).n) := by
  have hset : tfind (setCtx ctx (setThresholds count time (ctxOf s ctx)) s).cle.ctxs ctx = _ := tfind_tput_same _ _ _
  unfold coalesced
  by_cases hpast : pastThresholds count time s.now (ctxOf s ctx) = true
  · have hfired := fireContext_eq hset
    rw [if_pos hpast]
    refine ⟨hawaits.of_update (hfired.read (fun u => u.sah.sessions) fun _ _ => rfl) (hfired.read State.now fun _ _ => rfl),
      firedCtx (setThresholds count time (ctxOf s ctx)),
      (hfired.read (fun u => tfind u.cle.ctxs ctx) fun _ _ => rfl).trans (tfind_tput_same _ _ _), rfl, rfl, fun hlow htimer => ?_⟩
    simp only [pastThresholds, htimer, Bool.or_false, Bool.and_eq_true, decide_eq_true_eq] at hpast
    exact absurd hlow (Nat.not_lt.2 hpast.2)
  · rw [if_neg hpast]
    exact ⟨hawaits.of_update rfl rfl, setThresholds count time (ctxOf s ctx), hset, rfl, rfl, fun _ _ => rfl⟩

theorem exec_irqCqCoalesce_ctx {s : State} {q : Ask} {count time : Nat} {c : Ctx} (htaken : taken s q 1 = true)
    (hctx : tfind s.cle.ctxs (selected s q 0x500200) = some c) (hcount : 1 ≤ count) (hmost : count ≤ 4095) (htime : 1 ≤ time)
    (hlong : time ≤ 65535) :
    ∃ t y, exec (.irqCqCoalesce q count time) s = .next t ∧ tfind t.cle.ctxs (selected s q 0x500200) = some y ∧ y.countThr = count ∧
      y.timeThr = time ∧ (c.n < count → c.timerAt = none → y.n = c.n) ∧ answered t q stOk = true := by
  obtain ⟨ctx, t, rfl, hawaits, hanswers, hrun⟩ := exec_irqCqCoalesce (count := count) (time := time) htaken (by
    rw [decide_eq_false (Nat.one_le_iff_ne_zero.1 hcount), decide_eq_false (Nat.not_lt.2 hmost),
      decide_eq_false (Nat.one_le_iff_ne_zero.1 htime), decide_eq_false (Nat.not_lt.2 hlong)]
    exact Bool.false_ne_true)
  have hfound : ctxOf t (selected s q 0x500200) = c :=
    (hanswers.read (fun u => ctxOf u (selected s q 0x500200)) fun _ _ => rfl).trans (congrArg (fun o => o.getD ({} : Ctx)) hctx)
  obtain ⟨hwaits, y, hy, hcounts, htimes, hquiet⟩ := coalesced_ctx (count := count) (time := time) (ctx := selected s q 0x500200) hawaits
  exact ⟨_, y, hrun, (finish_ctx _).trans hy, hcounts, htimes, hfound ▸ hquiet, finish_answered [] hwaits⟩

theorem exec_maskClear_unmasked {s : State} {port ld vector : Nat} {entry : Option (Nat × Nat)} (hvector : vector < 2048)
    (hlock : tdiLocked s (ldKey port ld) = false) :
    ∃ t, exec (.maskClear port ld vector entry) s = .next t ∧ vector ∈ (msixOf t (ldKey port ld)).unmasked ∧
      (∀ v ∈ (msixOf s (ldKey port ld)).unmasked, v ∈ (msixOf t (ldKey port ld)).unmasked) ∧
      (∀ e, entry = some e → tfind (msixOf t (ldKey port ld)).table vector = some (e.1 % 2 ^ 64, e.2 % 2 ^ 32)) ∧
      (vector ∉ (msixOf s (ldKey port ld)).pending → t.out = s.out) ∧ t.mem = s.mem := by
  obtain ⟨hdelivers, hunmasked, htable, hout⟩ := unmaskVector_eq (s := s) (ldKey port ld) vector entry
  obtain ⟨hnew, hold⟩ := mem_clearedMask_unmasked vector entry (msixOf s (ldKey port ld))
  refine ⟨_, exec_maskClear entry hvector hlock, hunmasked ▸ hnew, hunmasked ▸ hold, fun e he => ?_, hout, hdelivers.read State.mem fun _ _ => rfl⟩
  rw [htable, he]
  exact tfind_tput_same _ _ _

/-- Settles O34: each command's outcome is that of its operation, and delivering an interrupt touches only the tables and what is sent. -/
theorem interruptsRun : Obligations.InterruptsRun := by
  unfold Obligations.InterruptsRun
  refine ⟨?_, ?_, fun _ _ _ _ _ => exec_maskClear_unmasked, fun _ _ _ => exec_irqGlobalDisable,
    fun _ _ _ _ _ => exec_irqCqCoalesce_ctx, ?_, fun _ _ => exec_claim_none,
    fun _ _ _ _ _ => exec_eoi_pop, ?_, ?_, fun _ _ _ => exec_eventWrite_logged⟩
  · intro ctx c since s hctx htimer hdue
    have hfired := fireContext_eq hctx
    refine ⟨fireContext ctx s, ?_, (hfired.read (fun u => tfind u.cle.ctxs ctx) fun _ _ => rfl).trans (tfind_tput_same _ _ _),
      hfired.read State.mem fun _ _ => rfl⟩
    change execCoalesceTimer ctx s = _
    simp only [execCoalesceTimer, hctx, htimer, if_pos hdue]
  · intro port ld group due s hheld hdue
    change execHoldoffEnd port ld group s = _
    simp only [execHoldoffEnd, hheld, if_pos hdue]
  · intro core src s hcore hclaim
    obtain ⟨t, ht, hout, hstack⟩ := exec_claim_some hcore hclaim
    exact ⟨t, ht, hout, hstack, fun hfirst hsecond => exec_claim_clears hcore hclaim hfirst hsecond ht⟩
  · intro core source top p rest s hcore hsource hother hstack
    obtain ⟨t, ht, hsic⟩ := exec_eoi_mismatch hcore hsource hother hstack
    exact ⟨t, ht, (congrArg Sic.stack hsic).trans hstack, congrArg Sic.faultEoi hsic, congrArg Sic.faultTop hsic,
      (congrArg Sic.pending hsic).symm ▸ zero_mem_eoiFault_pending source top _⟩
  · intro core source value s hcore hsource hzero hpriority hconfig
    have hset := sicOf_setSic_same (s := s) core { sicOf s core with config := tset 15 (sicOf s core).config source (bits value 0 7) }
    refine ⟨_, congrArg Host.Outcome.next (if_neg ?_), (congrArg (fun k => tget 15 k.config source) hset).trans (tget_tset_same hconfig),
      (congrArg Sic.pending hset).trans rfl, (congrArg Sic.stack hset).trans rfl⟩
    · rw [decide_eq_false (Nat.not_le.2 hcore), decide_eq_false (Nat.not_le.2 hsource), decide_eq_false hzero, decide_eq_false hpriority]
      exact Bool.false_ne_true

end Sys2Proof.Claims
end

section
/-! PROOFS. Ethernet frames, the banks of the frame buffer, and sessions (R501 to R508, R514 to R519, log 12, log 89). -/
namespace Sys2Proof.Machine
set_option Elab.async false

variable {s : State}

theorem bump_getD_same {l : List Nat} {i n : Nat} (h : i < l.length) : (bump l i n).getD i 0 = l.getD i 0 + n := by
  rw [bump, List.getD_eq_getElem?_getD, List.getElem?_set_self h, Option.getD_some]

theorem bump_getD_other {l : List Nat} {i j n : Nat} (h : i ≠ j) : (bump l i n).getD j 0 = l.getD j 0 := by
  rw [bump, List.getD_eq_getElem?_getD, List.getElem?_set_ne h, List.getD_eq_getElem?_getD]

/-- A controller whose source `src` is deasserted. -/
noncomputable def withoutSource (src : Nat) (k : Sic) : Sic := { k with pending := k.pending.filter (· != src) }

theorem sicOf_deassertSource (src core : Nat) :
    sicOf (deassertSource src s) core = ((tfind s.evt.sic core).map (withoutSource src)).getD {} :=
  congrArg (fun o => o.getD ({} : Sic)) (tfind_map_values (withoutSource src) s.evt.sic core)

/-- A source that is deasserted is pending at no core (R493). -/
theorem not_pending_deassertSource (src core : Nat) : src ∉ (sicOf (deassertSource src s) core).pending := by
  rw [sicOf_deassertSource]
  cases tfind s.evt.sic core with
  | none => exact List.not_mem_nil
  | some k => exact fun h => absurd (List.mem_filter.1 h).2 (by rw [bne_self_eq_false]; exact Bool.false_ne_true)

/-- The held bank is given back. -/
noncomputable def bankGiven (s : State) : State := { s with sah := { s.sah with held := false, heldFrames := 0, heldBank := [] } }

/-- A bank with frames is handed over where none is held. -/
theorem swapBanks_swaps (hheld : s.sah.held = false) (hfill : s.sah.fillFrames ≠ 0) :
    swapBanks s = setFull { rxCount 2 s with sah := { (rxCount 2 s).sah with
      held := true, heldFrames := s.sah.fillFrames, heldBank := s.sah.frames, bankB := !s.sah.bankB, frames := [], fillFrames := 0
      fillBytes := 0 } } :=
  if_neg (by rw [hheld, decide_eq_false hfill]; exact Bool.false_ne_true)

theorem swapBanks_empty (hfill : s.sah.fillFrames = 0) : swapBanks s = setFull s :=
  if_pos (by rw [decide_eq_true hfill, Bool.or_true])

theorem exec_bankRelease (hheld : s.sah.held = true) :
    exec .bankRelease s = .next (if (swapBanks (bankGiven s)).sah.held then swapBanks (bankGiven s)
      else deassertSource 1 (swapBanks (bankGiven s))) :=
  congrArg Host.Outcome.next (if_neg (by rw [hheld]; exact Bool.false_ne_true))

/-- A whole frame that is not too long is given to RoCE or to the buffer. -/
theorem exec_frameReceived {frame : Bytes} (hreset : s.rst.inReset = false) (hlen : frame.length ≤ 9216) (hroce : rocePort frame = none)
    (hpause : etherType frame ≠ 0x8808 ∨ beAt frame (14 + tagLen frame) 2 ≠ 0x0101) (hvlan : vlanOf frame = managementVlan s)
    (hhere : addressedHere frame = true) : exec (.frameReceived frame true) s = .next (toBuffer frame (ethCount 0 s)) := by
  have hother : ¬ (decide (etherType frame = 0x8808) && decide (beAt frame (14 + tagLen frame) 2 = 0x0101)) = true := by
    rw [Bool.and_eq_true, decide_eq_true_eq, decide_eq_true_eq]
    exact fun ⟨htype, hcode⟩ => hpause.elim (fun h => h htype) fun h => h hcode
  have hmanaged : (decide (vlanOf frame = managementVlan (ethCount 0 s)) && addressedHere frame) = true := by
    rw [hhere, Bool.and_true]
    exact decide_eq_true hvlan
  refine congrArg Host.Outcome.next ((if_neg (by rw [hreset]; exact Bool.false_ne_true)).trans
    ((if_neg Bool.false_ne_true).trans ((if_neg (Nat.not_lt.2 hlen)).trans ?_)))
  rw [hroce]
  exact (if_neg hother).trans (if_pos hmanaged)

/-- The session of a warden. -/
noncomputable def wardenSession (cert : Cert) (s : State) : Session := { role := 1, part := 0, digest := cert.digest, lastAt := s.now }

theorem exec_dtlsHandshake_warden {cert : Cert} (hup : s.sah.up = true) (hvalid : cert.valid = true) (hanchor : s.sah.anchor ≠ [])
    (hroot : cert.root = s.sah.anchor) (hroom : s.sah.sessions.length < 32) :
    exec (.dtlsHandshake cert) s = .next (sendFrame (.dtls s.sah.nextSession true) (setSession s.sah.nextSession (wardenSession cert s)
      { s with sah := { s.sah with nextSession := s.sah.nextSession + 1 } })) := by
  have hopens : ¬ (!cert.valid || s.sah.anchor.isEmpty || decide (32 ≤ s.sah.sessions.length)) = true := by
    rw [hvalid, List.isEmpty_eq_false_iff.2 hanchor, decide_eq_false (Nat.not_le.2 hroom)]
    exact Bool.false_ne_true
  have hrole : roleOf s cert = some (1, 0) := if_pos hroot
  refine congrArg Host.Outcome.next ((if_neg (by rw [hup]; exact Bool.false_ne_true)).trans ((if_neg hopens).trans ?_))
  rw [hrole]
  rfl

theorem exec_dtlsHandshake_refused {cert : Cert} (hup : s.sah.up = true) (hrefused : cert.valid = false ∨ 32 ≤ s.sah.sessions.length) :
    exec (.dtlsHandshake cert) s = .next (sendFrame (.dtls 0 false) s) := by
  refine congrArg Host.Outcome.next ((if_neg (by rw [hup]; exact Bool.false_ne_true)).trans (if_pos ?_))
  rcases hrefused with hinvalid | hfull
  · rw [hinvalid]
    rfl
  · rw [decide_eq_true hfull, Bool.or_true]

end Sys2Proof.Machine

namespace Sys2Proof.Claims
open Sys2Proof.Machine

/-- Settles O35: each clause is the branch that its hypotheses select. -/
theorem sessionsRun : Obligations.SessionsRun := by
  refine ⟨fun frame s hreset hstats => ?_, fun frame s hreset hlen hroce hpause hvlan hhere =>
    ⟨_, exec_frameReceived hreset hlen hroce hpause hvlan hhere, rfl⟩, fun s hheld hfill => ?_, fun s hheld hfill => ?_,
    fun s => ⟨_, rfl, rfl, rfl, fun core _ => not_pending_deassertSource 2 core⟩,
    fun cert s hup hvalid hanchor hroot hroom => ⟨_, wardenSession cert s, exec_dtlsHandshake_warden hup hvalid hanchor hroot hroom, rfl,
      tfind_tput_same _ _ _, rfl, rfl, rfl, rfl, rfl⟩,
    fun cert s hup hrefused => ⟨_, exec_dtlsHandshake_refused hup hrefused, rfl, rfl⟩, fun sid x s hopen hsorted hidle => ?_⟩
  · refine ⟨ethCount 1 (ethCount 0 s), congrArg Host.Outcome.next ((if_neg (by rw [hreset]; exact Bool.false_ne_true)).trans (if_pos rfl)),
      ?_, ?_, rfl, rfl⟩
    · exact (bump_getD_other (by decide)).trans (bump_getD_same (by rw [hstats]; decide))
    · refine (bump_getD_same ?_).trans (congrArg (· + 1) (bump_getD_other (by decide)))
      exact (List.length_set ..).trans hstats ▸ (by decide)
  · have hswap := swapBanks_swaps (s := bankGiven s) rfl hfill
    refine ⟨swapBanks (bankGiven s), (exec_bankRelease hheld).trans (congrArg _ (if_pos (by rw [hswap]; rfl))), ?_⟩
    rw [hswap]
    exact ⟨rfl, rfl, rfl, rfl, rfl, rfl, rfl⟩
  · have hswap := swapBanks_empty (s := bankGiven s) hfill
    refine ⟨deassertSource 1 (swapBanks (bankGiven s)),
      (exec_bankRelease hheld).trans (congrArg _ (if_neg (by rw [hswap]; exact Bool.false_ne_true))), ?_, ?_, ?_,
      fun core _ => not_pending_deassertSource 1 core⟩ <;> rw [hswap] <;> rfl
  · refine ⟨{ s with sah := { s.sah with sessions := tdel s.sah.sessions sid } }, ?_, tfind_tdel_same hsorted,
      fun k hk => tfind_tdel_other hk, rfl⟩
    change execSessionIdleTimeout sid s = _
    rw [execSessionIdleTimeout, hopen]
    exact congrArg _ (if_pos hidle)

end Sys2Proof.Claims
end

section
/-! PROOFS. The on-die rings and the root PLL (R27, R29 to R32, R573, log 85), and how a boot begins with the active image (R558, R575). -/
namespace Sys2Proof.Machine
set_option Elab.async false

variable {s t : State}

/-! ### The rings -/

/-- The packet that a stop injects for a line (R30, R31). -/
noncomputable def ringPacket (src dst line : Nat) (isReq : Bool) : RingPkt :=
  { src := src, dst := dst, line := line, isReq := isReq, ring := line % 32, clockwise := decide (2 * clockwiseHops src dst ≤ ringStops)
    arrives := if decide (2 * clockwiseHops src dst ≤ ringStops) then clockwiseHops src dst else ringStops - clockwiseHops src dst }

/-- The shorter way has eleven hops at most. -/
theorem ringPacket_arrives (src dst line : Nat) (isReq : Bool) : (ringPacket src dst line isReq).arrives ≤ 11 := by
  by_cases hway : 2 * clockwiseHops src dst ≤ ringStops
  · exact le_of_eq_of_le (if_pos (decide_eq_true hway)) ((Nat.le_div_iff_mul_le (by decide)).2 (Nat.mul_comm 2 _ ▸ hway))
  · have hlong : 11 < clockwiseHops src dst :=
      Nat.lt_of_mul_lt_mul_left (Nat.lt_trans (by decide : 2 * 11 < ringStops) (Nat.not_le.1 hway))
    exact le_of_eq_of_le (if_neg (by rwa [decide_eq_true_eq])) (Nat.sub_le_iff_le_add'.2 (Nat.add_le_add_right hlong 11))

theorem exec_ringInject {src dst line : Nat} {isReq : Bool} (hsrc : stopPresent s src = true) (hdst : stopPresent s dst = true)
    (hcredit : isReq = true → tget 0 s.ring.used dst < Config.stopCredits dst) :
    exec (.ringInject src dst line isReq) s = .next { s with ring := { s.ring with
      used := if isReq then tset 0 s.ring.used dst (tget 0 s.ring.used dst + 1) else s.ring.used
      flight := s.ring.flight ++ [ringPacket src dst line isReq] } } := by
  refine congrArg Host.Outcome.next (if_neg ?_)
  rw [hsrc, hdst]
  cases isReq with
  | false => exact Bool.false_ne_true
  | true => rw [decide_eq_false (Nat.not_le.2 (hcredit rfl))]; exact Bool.false_ne_true

/-- A request without a credit stays (R32). -/
theorem exec_ringInject_refused {src dst line : Nat} (hfull : Config.stopCredits dst ≤ tget 0 s.ring.used dst) :
    exec (.ringInject src dst line true) s = .next s :=
  congrArg Host.Outcome.next (if_pos (by rw [decide_eq_true hfull]; exact Bool.or_true _))

/-- The ring's books once the packet `p` has left for `stop`. -/
noncomputable def ejected (stop : Nat) (p : RingPkt) (s : State) : State :=
  { s with ring := { s.ring with
    used := if p.isReq && !(p.isReq && withholds s stop) then tset 0 s.ring.used stop (tget 0 s.ring.used stop - 1) else s.ring.used
    withheld := if p.isReq && withholds s stop then tset 0 s.ring.withheld stop (tget 0 s.ring.withheld stop + 1) else s.ring.withheld
    flight := s.ring.flight.erase p } }

theorem exec_ringEject {stop : Nat} {p : RingPkt} {rest : List RingPkt} (hflight : s.ring.flight = p :: rest) (hdst : p.dst = stop) :
    exec (.ringEject stop) s = .next (ejected stop p s) := by
  have hfind : s.ring.flight.find? (fun o => o.dst == stop) = some p := by
    rw [hflight]
    exact List.find?_cons_of_pos (beq_iff_eq.2 hdst)
  change Host.Outcome.next (match s.ring.flight.find? (fun o => o.dst == stop) with | none => s | some p => ejected stop p s) = _
  rw [hfind]

/-! ### The boot -/

/-- With no trial running and a valid active image, that image runs. -/
theorem chooseImage_active (htrial : s.fw.trial = false) (hvalid : imageValid s (slotOf s s.fw.active) = true) :
    chooseImage s = some { s with fw := { s.fw with running := slotOf s s.fw.active } } := by
  have hboot : trialBoot s = s := if_pos (by rw [htrial]; rfl)
  unfold chooseImage
  rw [hboot]
  exact if_pos hvalid

/-- The state in which a boot of the chosen image `t` begins. -/
noncomputable def booting (s t : State) : State :=
  { t with
    rst := { t.rst with inReset := false, step := 2, faultN := true, ready := false, bootMark := s.now }
    sah := { t.sah with coldBoots := s.sah.coldBoots + 1, fwChanges := s.sah.fwChanges + b2n (t.fw.active != s.fw.active) }
    car := { t.car with tiered := tget 1 s.store 0x380001 != 0 } }

theorem startBoot_chosen (hresetN : s.rst.resetN = true) (htripped : s.sah.tripped = false) (hpower : s.rst.vddAux = true)
    (hlocked : s.rst.pllLocked = true) (hinReset : s.rst.inReset = true) (himage : chooseImage s = some t) :
    startBoot s = booting s t := by
  refine (if_neg (by rw [hresetN, htripped, hpower, hlocked, hinReset]; exact Bool.false_ne_true)).trans ?_
  rw [himage]
  rfl

theorem exec_rootPllLockLoss (hlocked : s.rst.pllLocked = true) :
    exec .rootPllLockLoss s = .next (coldReset { s with rst := { s.rst with pllLocked := false, faultN := false } }) :=
  congrArg Host.Outcome.next (if_neg (by rw [hlocked]; exact Bool.false_ne_true))

theorem exec_rootPllRelock (hlost : s.rst.pllLocked = false) :
    exec .rootPllRelock s = .next (startBoot { s with rst := { s.rst with pllLocked := true, faultN := true } }) :=
  congrArg Host.Outcome.next (if_neg (by rw [hlost]; exact Bool.false_ne_true))

end Sys2Proof.Machine

namespace Sys2Proof.Claims
open Sys2Proof.Machine

/-- What leaves the ring for a stop gives its credit back, unless it was a response or the credit is withheld. -/
theorem ejected_credits {stop : Nat} {p : RingPkt} {s : State} :
    (p.isReq = false ∨ withholds s stop = true → (ejected stop p s).ring.used = s.ring.used) ∧
      (tsorted s.ring.used = true → p.isReq = true → withholds s stop = false →
        tget 0 (ejected stop p s).ring.used stop = tget 0 s.ring.used stop - 1 ∧ (ejected stop p s).ring.withheld = s.ring.withheld) ∧
      (tsorted s.ring.withheld = true → p.isReq = true → withholds s stop = true →
        tget 0 (ejected stop p s).ring.withheld stop = tget 0 s.ring.withheld stop + 1) := by
  refine ⟨fun h => ?_, fun hsorted hreq hgives => ⟨?_, ?_⟩, fun hsorted hreq hkeeps => ?_⟩ <;> dsimp only [ejected]
  · rcases h with hresponse | hkeeps
    · rw [hresponse]
      rfl
    · rw [hkeeps, Bool.and_true, Bool.and_not_self]
      rfl
  · rw [hreq, hgives]
    exact tget_tset_same hsorted
  · rw [hreq, hgives]
    rfl
  · rw [hreq, hkeeps, Bool.and_self, if_pos rfl]
    exact tget_tset_same hsorted

/-- Settles O6: injection and ejection change the ring's books alone; a loss of lock is a cold reset, and the relock boots the active image. -/
theorem ringAndClock : Obligations.RingAndClock := by
  refine ⟨fun src dst line isReq s hsrc hdst hcredit => ?_, fun src dst line s hfull => exec_ringInject_refused hfull,
    fun stop p rest s hflight hdst => ?_, fun s hlocked => ⟨_, exec_rootPllLockLoss hlocked, rfl, rfl, rfl, rfl, rfl, rfl, rfl⟩,
    fun s hlost hinReset hresetN hpower htripped htrial hvalid => ?_⟩
  · refine ⟨_, ringPacket src dst line isReq, exec_ringInject hsrc hdst hcredit, rfl, rfl, rfl, rfl, rfl, Nat.mod_lt _ (by decide),
      decide_eq_true_iff, ringPacket_arrives src dst line isReq, fun hresponse => ?_, rfl⟩
    rw [hresponse]
    rfl
  · obtain ⟨hkeeps, hgives, hwithholds⟩ := ejected_credits (stop := stop) (p := p) (s := s)
    have hrest : s.ring.flight.erase p = rest := by rw [hflight, List.erase_cons_head]
    exact ⟨_, exec_ringEject hflight hdst, hrest, hkeeps, hgives, hwithholds, by rw [← hrest]; rfl⟩
  · have himage := chooseImage_active (s := { s with rst := { s.rst with pllLocked := true, faultN := true } }) htrial hvalid
    refine ⟨_, (exec_rootPllRelock hlost).trans (congrArg _ (startBoot_chosen hresetN htripped hpower rfl hinReset himage)),
      rfl, rfl, rfl, rfl, rfl⟩

end Sys2Proof.Claims
end

section
/-! PROOFS. Clearing bits of a latch, decoders, Global Persistent Flush, viral, alerts and the safe throttle (R81, R82, R93, R107, R458, log 75). -/
namespace Sys2Proof.Machine
set_option Elab.async false

variable {s : State}

/-! ### Clearing bits -/

/-- Adding a power of two to a number whose bit is clear changes no higher bit. -/
theorem div_add_two_pow {m i : Nat} (hclear : m / 2 ^ i % 2 = 0) (d : Nat) : (m + 2 ^ i) / 2 ^ (i + 1 + d) = m / 2 ^ (i + 1 + d) := by
  have hnext : (m / 2 ^ i + 1) / 2 = m / 2 ^ i / 2 := Nat.succ_div_of_not_dvd fun hdvd => by
    rw [Nat.dvd_iff_mod_eq_zero, Nat.add_mod, hclear] at hdvd
    exact absurd hdvd (by decide)
  rw [Nat.pow_add, Nat.pow_succ, ← Nat.div_div_eq_div_mul, ← Nat.div_div_eq_div_mul, ← Nat.div_div_eq_div_mul, ← Nat.div_div_eq_div_mul,
    Nat.add_div_right _ (Nat.two_pow_pos i), hnext]

theorem bitOf_eq_testBit (n i : Nat) : bitOf n i = n.testBit i := by
  rw [bitOf, Nat.testBit_eq_decide_div_mod_eq]
  rfl

/-- Clearing a bit clears it and leaves the others. -/
theorem bitOf_clearBit (n i j : Nat) : bitOf (clearBit n i) j = (bitOf n j && j != i) := by
  unfold clearBit
  by_cases hset : bitOf n i = true
  · obtain ⟨m, rfl⟩ : ∃ m, n = m + 2 ^ i := by
      refine ⟨n - 2 ^ i, (Nat.sub_add_cancel ?_).symm⟩
      exact Nat.ge_two_pow_of_testBit (bitOf_eq_testBit n i ▸ hset)
    rw [if_pos hset, Nat.add_sub_cancel]
    have hclear : m.testBit i = false := by
      rw [bitOf_eq_testBit, Nat.add_comm, Nat.testBit_two_pow_add_eq] at hset
      exact Bool.not_eq_true' _ ▸ hset
    rcases Nat.lt_trichotomy j i with hlt | rfl | hgt
    · rw [bitOf_eq_testBit, bitOf_eq_testBit, Nat.add_comm, Nat.testBit_two_pow_add_gt hlt, bne_iff_ne.2 (Nat.ne_of_lt hlt), Bool.and_true]
    · rw [bitOf_eq_testBit, hclear, bne_self_eq_false, Bool.and_false]
    · obtain ⟨d, rfl⟩ := Nat.exists_eq_add_of_lt hgt
      have heven : m / 2 ^ i % 2 = 0 := by
        rw [← bitOf_eq_testBit, bitOf] at hclear
        exact (Nat.mod_two_eq_zero_or_one _).resolve_right (beq_eq_false_iff_ne.1 hclear)
      rw [bitOf, bitOf, Nat.add_right_comm i d 1, div_add_two_pow heven, bne_iff_ne.2 (Nat.add_right_comm i d 1 ▸ Nat.ne_of_gt hgt), Bool.and_true]
  · rw [if_neg hset]
    by_cases heq : j = i
    · rw [heq, Bool.eq_false_iff.2 hset, Bool.false_and]
    · rw [bne_iff_ne.2 heq, Bool.and_true]

/-- Clearing the bits of a list that `value` names leaves the others. -/
theorem bitOf_clearBits (value : Nat) (l : List Nat) (a j : Nat) :
    bitOf (l.foldl (fun a i => if bitOf value i then clearBit a i else a) a) j = (bitOf a j && !(decide (j ∈ l) && bitOf value j)) := by
  induction l generalizing a with
  | nil => rw [List.foldl_nil, decide_eq_false List.not_mem_nil, Bool.false_and, Bool.not_false, Bool.and_true]
  | cons i l ih =>
    rw [List.foldl_cons, ih]
    by_cases heq : j = i
    · subst heq
      by_cases hvalue : bitOf value j = true
      · rw [if_pos hvalue, bitOf_clearBit, bne_self_eq_false, hvalue, decide_eq_true List.mem_cons_self]
        simp only [Bool.and_false, Bool.false_and, Bool.and_self, Bool.not_true]
      · rw [if_neg hvalue, Bool.eq_false_iff.2 hvalue, Bool.and_false, Bool.and_false]
    · have hkeep : bitOf (if bitOf value i = true then clearBit a i else a) j = bitOf a j := by
        by_cases hvalue : bitOf value i = true
        · rw [if_pos hvalue, bitOf_clearBit, bne_iff_ne.2 heq, Bool.and_true]
        · rw [if_neg hvalue]
      rw [hkeep, decide_eq_decide.2 (List.mem_cons.trans (or_iff_right heq))]

/-- The four alerts. -/
theorem bitOf_clearAlerts {value a i : Nat} (hi : i < 4) :
    bitOf ([0, 1, 2, 3].foldl (fun a i => if bitOf value i then clearBit a i else a) a) i = (bitOf a i && !bitOf value i) := by
  have hmem : decide (i ∈ [0, 1, 2, 3]) = true := decide_eq_true (List.mem_range.2 hi : i ∈ List.range 4)
  rw [bitOf_clearBits, hmem, Bool.true_and]

/-! ### Logical devices -/

@[simp] theorem ldOf_setLd_same (k : Nat) (x : Ld) : ldOf (setLd k x s) k = x := by
  simp only [ldOf, setLd, tfind_tput_same, Option.getD_some]

theorem ldOf_setLd_other {k j : Nat} (x : Ld) (h : j ≠ k) : ldOf (setLd k x s) j = ldOf s j := by
  simp only [ldOf, setLd, tfind_tput_other h]

theorem fireIf_delivers {p : Prop} [Decidable p] (k vector : Nat) : Delivers s (if p then fireVector k vector s else s) :=
  .ite (fireVector_delivers k vector)

/-- How many records a device's log holds. -/
noncomputable def logLength (s : State) (k log : Nat) : Nat := ((tfind (ldOf s k).logs log).getD {}).records.length

/-- A log that is not full takes a record; the logs of other devices and what is not of the ports or the interrupts are as they were. -/
theorem logAdd_eq (k log : Nat) (body : Bytes) :
    (∃ x, Delivers (setLd k x s) (logAdd k log body s)) ∧
      (logLength s k log < 256 → logLength (logAdd k log body s) k log = logLength s k log + 1) := by
  unfold logAdd
  dsimp only
  refine ⟨⟨_, fireIf_delivers k 0⟩, fun hroom => ?_⟩
  refine ((fireIf_delivers k 0).read (fun u => logLength u k log) fun _ _ => rfl).trans ?_
  rw [logLength, ldOf_setLd_same, tfind_tput_same, Option.getD_some]
  exact (congrArg (fun l : EvLog => l.records.length) (if_neg (Nat.not_le.2 hroom))).trans List.length_append

/-- `t` is `s` but for the logical devices, the interrupts and what is sent. -/
def LogsOnly (s t : State) : Prop := t = { s with cxl := { s.cxl with lds := t.cxl.lds }, msix := t.msix, out := t.out }

theorem LogsOnly.trans {t u : State} (h : LogsOnly s t) (k : LogsOnly t u) : LogsOnly s u :=
  Eq.trans k (congrArg (fun v : State => { v with cxl := { v.cxl with lds := u.cxl.lds }, msix := u.msix, out := u.out }) h)

theorem LogsOnly.read {α : Type} {t : State} (h : LogsOnly s t) (f : State → α)
    (hf : ∀ lds msix out, f { s with cxl := { s.cxl with lds := lds }, msix := msix, out := out } = f s) : f t = f s :=
  (congrArg f h).trans (hf _ _ _)

theorem logAdd_logsOnly (k log : Nat) (body : Bytes) : LogsOnly s (logAdd k log body s) := by
  obtain ⟨⟨x, hdelivers⟩, -⟩ := logAdd_eq (s := s) k log body
  refine .trans (t := setLd k x s) rfl ?_
  rw [LogsOnly, hdelivers]

theorem logLength_logAdd_other {k j : Nat} (log : Nat) (body : Bytes) (h : j ≠ k) :
    logLength (logAdd k log body s) j log = logLength s j log := by
  obtain ⟨⟨x, hdelivers⟩, -⟩ := logAdd_eq (s := s) k log body
  refine (hdelivers.read (fun u => logLength u j log) fun _ _ => rfl).trans ?_
  rw [logLength, ldOf_setLd_other x h, logLength]

theorem ldKey_ne {port d ld : Nat} (h : ld ≠ d) : ldKey port ld ≠ ldKey port d :=
  fun heq => h (Nat.add_left_cancel heq)

theorem each_logAdd_other {log : Nat} {body : Bytes} {port ld : Nat} (lds : List Nat) (hmem : ld ∉ lds) :
    logLength (each lds (fun d => logAdd (ldKey port d) log body) s) (ldKey port ld) log = logLength s (ldKey port ld) log :=
  each_induct (P := fun t => logLength t (ldKey port ld) log = logLength s (ldKey port ld) log) rfl fun d hd _ ht =>
    (logLength_logAdd_other log body (ldKey_ne fun heq : ld = d => hmem (heq.symm ▸ hd))).trans ht

/-- A device that takes its turn once in a list gets one record. -/
theorem each_logAdd_length {log : Nat} {body : Bytes} {port ld : Nat} {lds : List Nat} (hnodup : lds.Nodup) (hmem : ld ∈ lds)
    (hroom : logLength s (ldKey port ld) log < 256) :
    logLength (each lds (fun d => logAdd (ldKey port d) log body) s) (ldKey port ld) log = logLength s (ldKey port ld) log + 1 := by
  obtain ⟨before, after, rfl⟩ := List.append_of_mem hmem
  obtain ⟨-, hafter, hdisjoint⟩ := List.nodup_append.1 hnodup
  have hbefore := each_logAdd_other (s := s) (log := log) (body := body) (port := port) before
    fun hin => hdisjoint ld hin ld List.mem_cons_self rfl
  unfold each at hbefore ⊢
  rw [List.foldl_append, List.foldl_cons]
  refine (each_logAdd_other after (List.nodup_cons.1 hafter).1).trans ?_
  obtain ⟨-, hadds⟩ := logAdd_eq (s := before.foldl (fun s d => logAdd (ldKey port d) log body s) s) (ldKey port ld) log body
  rw [hadds (hbefore ▸ hroom), hbefore]

/-! ### The commands -/

theorem exec_biDecoderProgram {port ld : Nat} {b : Option Nat} (hup : ldUp s port ld = true) (hlock : tdiLocked s (ldKey port ld) = false) :
    exec (.biDecoderProgram port ld b) s = .next (setLd (ldKey port ld) { ldOf s (ldKey port ld) with bi := b.map (· % 4096) } s) :=
  congrArg Host.Outcome.next ((if_neg (by rw [hup]; exact Bool.false_ne_true)).trans (if_neg (by rw [hlock]; exact Bool.false_ne_true)))

/-- The decoder that a commit programs. -/
noncomputable def programmed (x : Ld) (index : Nat) (d : DecoderArg) : Decoder :=
  { base := d.base, size := d.size, dpa := d.dpa, ways := d.ways, gran := d.gran, pos := d.pos
    committed := d.commit && decoderFits x index d, error := d.commit && !(d.commit && decoderFits x index d)
    locked := (d.commit && decoderFits x index d) && d.lock }

theorem exec_hdmDecoderCommit {port ld index : Nat} {d : DecoderArg} (hup : ldUp s port ld = true) (hindex : index < 8)
    (hlock : tdiLocked s (ldKey port ld) = false)
    (hfree : (((tfind (ldOf s (ldKey port ld)).decoders index).getD {}).committed &&
      ((tfind (ldOf s (ldKey port ld)).decoders index).getD {}).locked) = false) :
    exec (.hdmDecoderCommit port ld index d) s = .next (setLd (ldKey port ld) { ldOf s (ldKey port ld) with
      decoders := tput (ldOf s (ldKey port ld)).decoders index (programmed (ldOf s (ldKey port ld)) index d) } s) :=
  congrArg Host.Outcome.next ((if_neg (by rw [hup, decide_eq_false (Nat.not_le.2 hindex)]; exact Bool.false_ne_true)).trans
    ((if_neg (by rw [hlock]; exact Bool.false_ne_true)).trans (if_neg (by rw [hfree]; exact Bool.false_ne_true))))

end Sys2Proof.Machine

namespace Sys2Proof.Claims
open Sys2Proof.Machine

/-- Settles O12: each command is the branch that its hypotheses select; viral adds a record to the log of every device of the port, once. -/
theorem decodersAndAlertsRun : Obligations.DecodersAndAlertsRun := by
  refine ⟨fun port ld b s => exec_biDecoderProgram, fun port ld index d s hup hindex hlock hfree => ?_, fun port s => rfl,
    fun port s => ?_, fun value s hpriv => ?_, fun value s hpriv hthrottle => ?_⟩
  · refine ⟨_, programmed (ldOf s (ldKey port ld)) index d, exec_hdmDecoderCommit hup hindex hlock hfree, ?_, rfl, rfl, rfl, rfl, ?_, ?_, rfl⟩
    · rw [ldOf_setLd_same]
      exact tfind_tput_same _ _ _
    · dsimp only [programmed]
      cases d.commit <;> rfl
    · rw [ldOf_setLd_same]
  · have hlogs := each_induct (P := LogsOnly s) (s := s)
      (l := (ldsOf s port).filter fun ld => keyOf s (port % 32) ld == port && ldUp s (port % 32) ld)
      (f := fun ld => logAdd (ldKey (port % 32) ld) 0 (packLE [(8, 2), (8, port)])) rfl
      fun _ _ _ ht => ht.trans (logAdd_logsOnly _ _ _)
    refine ⟨_, rfl, hlogs.read State.mem fun _ _ _ => rfl, hlogs.read State.pga fun _ _ _ => rfl, hlogs.read State.ldg fun _ _ _ => rfl,
      hlogs.read State.cle fun _ _ _ => rfl,
      fun ld hld hsplit hport hup hroom => ?_⟩
    have hlds : ldsOf s port = List.range 16 := if_neg (by rw [Nat.mod_eq_of_lt hport, hsplit]; exact Bool.false_ne_true)
    have hkey : keyOf s port ld = port := if_neg (by rw [hsplit]; exact Bool.false_ne_true)
    rw [Nat.mod_eq_of_lt hport, hlds]
    refine each_logAdd_length (List.nodup_range.filter _) (List.mem_filter.2 ⟨List.mem_range.2 hld, ?_⟩) hroom
    rw [hkey, hup, beq_self_eq_true, Bool.and_self]
  · exact ⟨_, congrArg Host.Outcome.next (if_pos hpriv), fun i hi => bitOf_clearAlerts hi, rfl⟩
  · exact congrArg Host.Outcome.next (if_pos (by rw [hpriv, hthrottle, Bool.and_self]))

end Sys2Proof.Claims
end

section
/-! PROOFS. The control loop, thermal trips, stored values, alerts and the wall clock (R533 to R543, R551, log 50, log 82). -/
namespace Sys2Proof.Machine
set_option Elab.async false

variable {s : State}

/-- What a run of the loop reports, and the bytes of DRAM: nothing that the loop steers by. -/
noncomputable def loopView (s : State) : Nat × Nat × Bool × Nat × Tbl Byte :=
  (s.sah.power, s.sah.ticks, s.sah.isOver, s.wgh.loopRuns, s.mem.data)

theorem loopView_each {α : Type} {f : α → State → State} (l : List α) (hf : ∀ a t, loopView (f a t) = loopView t) :
    loopView (each l f s) = loopView s :=
  each_induct (P := fun t => loopView t = loopView s) rfl fun a _ t ht => (hf a t).trans ht

theorem loopView_ite {p : Prop} [Decidable p] {t u : State} (ht : loopView t = loopView s) (hu : loopView u = loopView s) :
    loopView (if p then t else u) = loopView s := by
  split
  · exact ht
  · exact hu

theorem loopView_loopLevel (k level : Nat) : loopView (loopLevel k level s) = loopView s := by
  refine loopView_ite rfl ?_
  unfold requestLevel
  exact loopView_ite rfl (loopView_ite rfl rfl)

theorem loopView_shed : loopView (loopShed s) = loopView s :=
  loopView_ite (s := gateIdle s) (loopView_each _ fun _ _ => loopView_ite (loopView_loopLevel _ _) rfl)
    (loopView_each _ fun _ _ => loopView_ite rfl rfl)

theorem loopView_restore : loopView (loopRestore s) = loopView s := by
  refine (loopView_ite rfl rfl : loopView (ungateWaiting _) = _).trans ?_
  exact loopView_ite (loopView_each _ fun _ _ => rfl) (loopView_each _ fun _ _ => loopView_ite (loopView_loopLevel _ _) rfl)

theorem loopView_heat (target : Int) : loopView (loopHeat target s) = loopView s :=
  loopView_each _ fun _ _ => loopView_ite (loopView_loopLevel _ _) rfl

/-- A run of the loop takes the readings, and the rest of the run keeps them. -/
theorem exec_loopTick {power : Nat} {temps : List Int} (hcore : bitOf s.sah.coresUp 1 = true) :
    ∃ t u : State, exec (.loopTick power temps) s = .next t ∧ t.wgh.loopRuns = u.wgh.loopRuns + 1 ∧
      (t.sah.power, t.sah.ticks, t.sah.isOver, u.wgh.loopRuns, t.mem.data) =
        (power, s.sah.ticks + 1, decide (rSahPowerCap s < power) || decide (tempOf (rSahTjTarget s) < hottest temps), s.wgh.loopRuns,
          s.mem.data) := by
  refine ⟨_, _, congrArg Host.Outcome.next (if_neg (by rw [hcore]; exact Bool.false_ne_true)), rfl, ?_⟩
  exact (loopView_heat _).trans (loopView_ite loopView_shed (loopView_ite loopView_restore rfl))

theorem exec_thermalCompare_trip {temps : List Int} (h : ∃ x ∈ temps, (120 : Int) ≤ x) :
    exec (.thermalCompare temps) s = .next (coldReset { s with
      sah := { s.sah with temps := (List.range temps.length).map fun i => (i, temps.getD i 0), tripped := true }
      rst := { s.rst with thermtripN := false, faultN := false, ready := false } }) := by
  obtain ⟨x, hx, htrip⟩ := h
  exact congrArg Host.Outcome.next (if_pos (List.any_eq_true.2 ⟨x, hx, decide_eq_true htrip⟩))

/-- A reading of 105 degrees without a trip latches the first alert. -/
theorem exec_thermalCompare_hot {temps : List Int} (h : ∃ x ∈ temps, (105 : Int) ≤ x) (hbelow : ∀ x ∈ temps, x < 120) :
    exec (.thermalCompare temps) s = .next (latchAlert 0 (assertSource 16
      { s with sah := { s.sah with temps := (List.range temps.length).map fun i => (i, temps.getD i 0) } })) := by
  obtain ⟨x, hx, hhot⟩ := h
  have hno : ¬ temps.any (fun t => decide (120 ≤ t)) = true := by
    rw [List.any_eq_true]
    exact fun ⟨y, hy, htrip⟩ => absurd (hbelow y hy) (Int.not_lt.2 (of_decide_eq_true htrip))
  exact congrArg Host.Outcome.next ((if_neg hno).trans (if_pos (List.any_eq_true.2 ⟨x, hx, decide_eq_true hhot⟩)))

/-- A bit that is set is set. -/
theorem bitOf_setBit_same (n i : Nat) : bitOf (setBit n i) i = true := by
  unfold setBit
  by_cases hset : bitOf n i = true
  · rw [if_pos hset]
    exact hset
  · rw [if_neg hset, bitOf_eq_testBit, Nat.add_comm, Nat.testBit_two_pow_add_eq, ← bitOf_eq_testBit, Bool.eq_false_iff.2 hset, Bool.not_false]

theorem afterStored_idle (h : s.fw.waiting = none) : afterStored s = s := by
  rw [afterStored, h]

end Sys2Proof.Machine

namespace Sys2Proof.Claims
open Sys2Proof.Machine

/-- The oldest stored write is kept in the store, and its request ends. -/
theorem exec_storedWriteComplete {w : StoredWrite} {rest : List StoredWrite} {s : State} (hstored : s.sah.stored = w :: rest)
    (hwaiting : s.fw.waiting = none) (hkey : w.key = 0x881002) :
    exec .storedWriteComplete s = .next (finish w.ask w.key stOk []
      { s with sah := { s.sah with stored := rest }, store := tput s.store (storeKey w.key w.sel) w.value }) := by
  have hvalue : ¬ (decide (w.key = 0x111001) || decide (w.key / 256 = 0x7004) || decide (w.key = 0x700500) || decide (w.key = 0x880101) ||
      decide (w.key = 0x880300) || decide (w.key = 0x480100)) = true := by
    rw [hkey]
    decide
  change execStoredWriteComplete s = _
  unfold execStoredWriteComplete
  rw [hstored]
  dsimp only
  rw [if_neg hvalue, afterStored_idle]
  exact ((finish_finishes ..).read (fun u => u.fw.waiting) fun _ _ _ _ => rfl).trans hwaiting

/-- The session `x` with the level that its host declared, and whether it is one that this node speaks. -/
noncomputable def declaring (major minor : Nat) (ok : Bool) (x : Session) : Session :=
  { x with declared := some (major, minor, if ok then 0 else 1) }

/-- Settles O38: the loop's steering keeps its readings, a trip is a cold reset, and the requests are answered at once. -/
theorem controllerRuns : Obligations.ControllerRuns := by
  refine ⟨fun power temps s hcore => ?_, fun temps s htrip => ⟨_, exec_thermalCompare_trip htrip, rfl, rfl, rfl, rfl, rfl, rfl, rfl⟩,
    fun temps s hhot hbelow => ⟨_, exec_thermalCompare_hot hhot hbelow, bitOf_setBit_same _ _, rfl⟩,
    fun w rest s hstored hwaiting hkey => ?_, fun q value s htaken hvalue => ?_, fun q major minor name s htaken hmajor hminor hname => ?_,
    fun q value s htaken hvalue => ?_⟩
  · obtain ⟨t, u, hrun, hruns, hview⟩ := exec_loopTick (power := power) (temps := temps) hcore
    exact ⟨t, hrun, congrArg (fun v => v.1) hview, congrArg (fun v => v.2.1) hview, congrArg (fun v => v.2.2.1) hview,
      hruns.trans (congrArg (fun v => v.2.2.2.1 + 1) hview), congrArg (fun v => v.2.2.2.2) hview⟩
  · have hfinish := finish_finishes (s := { s with sah := { s.sah with stored := rest }, store := tput s.store (storeKey w.key w.sel) w.value })
      w.ask w.key stOk []
    exact ⟨_, exec_storedWriteComplete hstored hwaiting hkey, hfinish.read (fun u => u.sah.stored) fun _ _ _ _ => rfl,
      (hfinish.read (fun u => tfind u.store (storeKey w.key w.sel)) fun _ _ _ _ => rfl).trans (tfind_tput_same _ _ _),
      hfinish.read State.regs fun _ _ _ _ => rfl, hfinish.read State.mem fun _ _ _ _ => rfl⟩
  · obtain ⟨x, t, h⟩ := exec_of_taken (c := .sahAlertClear q value) rfl htaken rfl
    refine ⟨_, h.exec_eq.trans (congrArg _ (if_neg (Nat.not_lt.2 hvalue))), fun i hi => ?_, finish_answered [] (h.awaits.of_update rfl rfl), ?_⟩
    · rw [← h.replies.answers.read (fun u => u.cxl.alerts) fun _ _ => rfl]
      exact ((finish_answers ..).read (fun u => bitOf u.cxl.alerts i) fun _ _ => rfl).trans (bitOf_clearAlerts hi)
    · exact ((finish_answers ..).read State.mem fun _ _ => rfl).trans (h.replies.answers.read State.mem fun _ _ => rfl)
  · obtain ⟨x, t, h⟩ := exec_of_taken (c := .fwHostDeclare q major minor name) rfl htaken rfl
    have hok : compatible t major minor = compatible s major minor := h.replies.answers.read (fun u => compatible u major minor) fun _ _ => rfl
    have hgood : ¬ (decide (255 < major) || decide (255 < minor) || decide (255 < name.length)) = true := by
      rw [decide_eq_false (Nat.not_lt.2 hmajor), decide_eq_false (Nat.not_lt.2 hminor), decide_eq_false (Nat.not_lt.2 hname)]
      exact Bool.false_ne_true
    obtain ⟨y, hy, hdeclared, -⟩ := sessionOf_finish (q := q) (key := 0x000201) (status := if compatible t major minor then stOk else stIncompatible)
      [] (sessionOf_setSession_same (s := t) q.sid (declaring major minor (compatible t major minor) x))
    have hawaits : Awaits q (setSession q.sid (declaring major minor (compatible t major minor) x) t) := by
      obtain ⟨x', hx', hruns⟩ := h.awaits
      obtain rfl := Option.some.inj (hx'.symm.trans h.open_eq)
      exact ⟨_, sessionOf_setSession_same _ _, hruns⟩
    refine ⟨_, y, h.exec_eq.trans (congrArg _ (if_neg hgood)), hy,
      hdeclared.trans (congrArg (fun ok : Bool => some (major, minor, if ok then 0 else 1)) hok), ?_⟩
    rw [← hok]
    exact finish_answered [] hawaits
  · obtain ⟨x, t, h⟩ := exec_of_taken (c := .sahWallTime q value) rfl htaken rfl
    refine ⟨_, h.exec_eq.trans (congrArg _ (if_neg (Nat.not_le.2 hvalue))), (finish_finishes ..).read (fun u => u.sah.wall) fun _ _ _ _ => rfl,
      ((finish_finishes ..).read (fun u => u.sah.wallAt) fun _ _ _ _ => rfl).trans h.replies.now_eq,
      finish_answered [] (h.awaits.of_update rfl rfl)⟩

end Sys2Proof.Claims
end

section
/-! PROOFS. Operations that arrive from other nodes (R356, R392, R413, log 77): a new one is entered in the acceptance record and served; a chunk
write is put together first. -/
namespace Sys2Proof.Claims
open Sys2Proof.Machine
set_option Elab.async false

variable {s : State} {p : Packet}

/-- `s` with a new operation entered in the acceptance record. -/
noncomputable def entered (p : Packet) (s : State) : State :=
  setAccept p.src p.tag (acceptTime s + 2 ^ 14 + (if isMulti p then 2 ^ 15 else 0)) s

theorem entered_eq : entered p s = { s with lnk := { s.lnk with accept := (entered p s).lnk.accept } } := rfl

/-- What is not the acceptance record is as it was. -/
theorem entered_read {α : Type} (f : State → α) (hf : ∀ a, f { s with lnk := { s.lnk with accept := a } } = f s) : f (entered p s) = f s :=
  (congrArg f entered_eq).trans (hf _)

theorem newHere_iff : newHere s p = true ↔ malformedPacket p = false ∧ acceptance p s = 0 := by
  rw [newHere, Bool.and_eq_true, beq_iff_eq, Bool.not_eq_eq_eq_not, Bool.not_true]

/-- A new operation is served in the state where it is entered. -/
theorem accepting_new (act : State → State) (h : newHere s p = true) : accepting p act s = act (entered p s) := by
  obtain ⟨hformed, hnew⟩ := newHere_iff.1 h
  refine (if_neg (by rw [hformed]; exact Bool.false_ne_true)).trans ?_
  rw [hnew]
  rfl

/-- An operation on a range without a twin is served here. -/
theorem twinned_alone (act : State → State) (h : twinRange s (pgaDpa p.pga) = none) : twinned p act s = act s := by
  rw [twinned, h]

theorem stampOther_alone (h : twinRange s (pgaDpa p.pga) = none) : stampOther p s = s := by
  rw [stampOther, h]

/-- Which range has a twin is a matter of the lending book and the twins alone. -/
theorem twinRange_of_eq {t : State} {d : Nat} (hpga : t.pga = s.pga) (htwn : t.twn = s.twn) : twinRange t d = twinRange s d := by
  unfold twinRange homeAt twinOf
  rw [hpga, htwn]

theorem twinRange_entered (d : Nat) : twinRange (entered p s) d = twinRange s d :=
  twinRange_of_eq (entered_read State.pga fun _ => rfl) (entered_read State.twn fun _ => rfl)

theorem isOp_eq {o : Nat} (h : p.opcode = o) : isOp p o = true := beq_iff_eq.2 h

theorem servePacket_new {o : Nat} (hop : p.opcode = o) (hnew : newHere s p = true) (halone : twinRange s (pgaDpa p.pga) = none) :
    servePacket o p s = settle (arriveRequest (requestOf p) (entered p s)) :=
  (if_pos (isOp_eq hop)).trans (congrArg settle ((accepting_new _ hnew).trans (twinned_alone _ ((twinRange_entered _).trans halone))))

/-- The commands of operations that are served as one request each. -/
theorem exec_serves {c : Instr} {o : Nat}
    (h : (c, o) ∈ [(.read p, 0x01), (.write p, 0x02), (.cleanEvict p, 0x04), (.atomic p, 0x05), (.append p, 0x06)]) :
    exec c s = .next (servePacket o p s) ∧ o ≠ 0x03 ∧ o ≠ 0x0B := by
  simp only [List.mem_cons, Prod.mk.injEq, List.not_mem_nil, or_false] at h
  rcases h with ⟨rfl, rfl⟩ | ⟨rfl, rfl⟩ | ⟨rfl, rfl⟩ | ⟨rfl, rfl⟩ | ⟨rfl, rfl⟩ <;> exact ⟨rfl, by decide, by decide⟩

/-- One packet stays open no longer than its request. -/
theorem isMulti_eq_false (hchunk : p.opcode ≠ 0x03) (hmanage : p.opcode ≠ 0x0B) : isMulti p = false := by
  rw [isMulti, beq_eq_false_iff_ne.2 hchunk, beq_eq_false_iff_ne.2 hmanage]
  rfl

theorem acceptEntry_entered (hmulti : isMulti p = false) : acceptEntry (entered p s) p.src p.tag = acceptTime s + 2 ^ 14 := by
  have hset : tset 0 s.lnk.accept (p.src * 65536 + p.tag) (acceptTime s + 2 ^ 14) =
      tput s.lnk.accept (p.src * 65536 + p.tag) (acceptTime s + 2 ^ 14) := if_neg (by omega)
  unfold acceptEntry entered setAccept
  rw [hmulti]
  exact (congrArg (fun t => tget 0 t _) hset).trans (congrArg (fun o => o.getD 0) (tfind_tput_same _ _ _))

/-! ### Chunk writes -/

theorem or_true_of_left {a b : Bool} (h : a = true) : (a || b) = true := Bool.or_eq_true_iff.2 (.inl h)

theorem or_true_of_right {a b : Bool} (h : b = true) : (a || b) = true := Bool.or_eq_true_iff.2 (.inr h)

/-- A well-formed chunk write carries no further stretches and at most 1024 bytes (R356). -/
theorem chunk_of_formed (hformed : malformedPacket p = false) (hop : p.opcode = 0x03) : p.more = [] ∧ p.payload.length ≤ 1024 := by
  have hrange : (payloadRange p).2 = 1024 := by
    unfold payloadRange
    rw [hop]
    rfl
  have hno (h : malformedPacket p = true) : False := Bool.false_ne_true (hformed.symm.trans h)
  constructor
  · refine List.isEmpty_iff.1 (Bool.not_eq_false _ ▸ fun hmore => hno ?_)
    exact or_true_of_left (or_true_of_left (or_true_of_left (or_true_of_left (or_true_of_left (or_true_of_left (or_true_of_left (or_true_of_left (or_true_of_left (or_true_of_left (or_true_of_left (or_true_of_left (or_true_of_right (by rw [hmore]; rfl)))))))))))))
  · refine Nat.not_lt.1 fun hlong => hno ?_
    exact or_true_of_left (or_true_of_left (or_true_of_left (or_true_of_left (or_true_of_left (or_true_of_left (or_true_of_right (decide_eq_true (hrange ▸ hlong))))))))

/-- A chunk in one packet is that packet. -/
theorem joinedChunk_single (hmore : p.more = []) : joinedChunk [p] = p := by
  change { p with payload := p.payload, more := [] } = p
  rw [← hmore]

theorem requestOf_chunk_op (hop : p.opcode = 0x03) : (requestOf p).op ≠ 6 := by
  unfold requestOf
  rw [hop]
  change (ite (p.mval = 64) _ _ : MReq).op ≠ 6
  split
  · exact Nat.ne_of_beq_eq_false rfl
  · exact Nat.ne_of_beq_eq_false rfl

/-- A chunk in one packet asks for what the packet spells: it is too short to fill a granted frame. -/
theorem wholeChunk_single (hformed : malformedPacket p = false) (hop : p.opcode = 0x03) : wholeChunk s [p] = requestOf p := by
  obtain ⟨hmore, hlen⟩ := chunk_of_formed hformed hop
  unfold wholeChunk
  rw [joinedChunk_single hmore]
  refine if_neg ?_
  rw [beq_eq_false_iff_ne.2 (by omega : p.payload.length ≠ 65536), Bool.and_false]
  exact Bool.false_ne_true

/-- What a chunk's first packet finds: nothing collected. -/
noncomputable def firstPart (npk : Nat) (p : Packet) (s : State) : PartialOp :=
  { got := [0], npk := npk, parts := [(0, p)], due := s.now + msec (rCleLostTimeout s) }

theorem joinOp_first {npk : Nat} {act : List Packet → State → State} (hnone : tfind s.mar.chunks (p.src * 65536 + p.tag) = none)
    (hmore : 1 < npk) : joinOp p 0 npk act s =
      { s with mar := { s.mar with chunks := tput s.mar.chunks (p.src * 65536 + p.tag) (firstPart npk p s) } } := by
  simp only [joinOp, hnone, Option.getD_none, List.not_mem_nil, ↓reduceIte, List.length_singleton, if_pos hmore]
  rfl

theorem joinOp_only {act : List Packet → State → State} (hnone : tfind s.mar.chunks (p.src * 65536 + p.tag) = none) :
    joinOp p 0 1 act s = act [p] { s with mar := { s.mar with chunks := tdel s.mar.chunks (p.src * 65536 + p.tag) } } := by
  simp only [joinOp, hnone, Option.getD_none, List.not_mem_nil, ↓reduceIte, List.length_singleton, Nat.lt_irrefl]
  rfl

theorem exec_chunkWrite_new (hop : p.opcode = 0x03) (hnew : newHere s p = true) :
    exec (.chunkWrite p) s = .next (settle (joinOp p (bits p.aux 0 6) (bits p.aux 6 6 + 1) (fun ps s =>
      let r := wholeChunk s ps
      if ps.any fun q => q.opcode == 0x0B then unitArrived p.tag ps s
      else if r.op = 6 then homeRequest r s
      else twinned (joinedChunk ps) (arriveRequest r) s) (entered p s))) :=
  congrArg Host.Outcome.next ((if_neg (by rw [isOp_eq hop]; exact Bool.false_ne_true)).trans (congrArg settle (accepting_new _ hnew)))

theorem exec_commit_new (hop : p.opcode = 0x07) (hnew : newHere s p = true) (halone : twinRange s (pgaDpa p.pga) = none) :
    exec (.commit p) s = .next (settle (commitHere (.nodeEngine p.src p.tag) (pgaDpa p.pga) (leAt p.payload 0 8) p.partition
      (bitOf (leAt p.payload 8 8) 0) p.twin (entered p s))) := by
  have hentered := (twinRange_entered (p := p) (s := s) (pgaDpa p.pga)).trans halone
  refine congrArg Host.Outcome.next ((if_pos (isOp_eq hop)).trans (congrArg settle ((accepting_new _ hnew).trans
    ((twinned_alone _ hentered).trans ?_))))
  rw [stampOther_alone hentered]

theorem exec_stage_new (hop : p.opcode = 0x09) (hnew : newHere s p = true) (halone : twinRange s (pgaDpa p.pga) = none) :
    exec (.stage p) s = .next (stageFrom p true (entered p s)) := by
  have hentered := (twinRange_entered (p := p) (s := s) (pgaDpa p.pga)).trans halone
  refine congrArg Host.Outcome.next ((if_pos (isOp_eq hop)).trans ((accepting_new _ hnew).trans ((twinned_alone _ hentered).trans ?_)))
  rw [stampOther_alone hentered]

/-- Where a node keeps the packets of its chunk writes that it has not whole. -/
noncomputable def withChunks (chunks : Tbl PartialOp) (s : State) : State := { s with mar := { s.mar with chunks := chunks } }

theorem withChunks_read {α : Type} (chunks : Tbl PartialOp) (f : State → α)
    (hf : f { s with mar := { s.mar with chunks := chunks } } = f s) : f (withChunks chunks s) = f s := hf

theorem withChunks_alone {d : Nat} (chunks : Tbl PartialOp) (h : twinRange s d = none) : twinRange (withChunks chunks s) d = none :=
  (twinRange_of_eq rfl rfl).trans h

/-- The first of several packets of a chunk write waits for the rest. -/
theorem exec_chunkWrite_first (hop : p.opcode = 0x03) (hnew : newHere s p = true) (hindex : bits p.aux 0 6 = 0) (hcount : bits p.aux 6 6 = 1)
    (hnone : tfind s.mar.chunks (p.src * 65536 + p.tag) = none) : exec (.chunkWrite p) s = .next (settle (withChunks
      (tput (entered p s).mar.chunks (p.src * 65536 + p.tag) (firstPart 2 p (entered p s))) (entered p s))) := by
  refine (exec_chunkWrite_new hop hnew).trans (congrArg (fun u => Host.Outcome.next (settle u)) ?_)
  rw [hindex, hcount]
  exact joinOp_first ((entered_read (fun u => tfind u.mar.chunks (p.src * 65536 + p.tag)) fun _ => rfl).trans hnone) (by decide)

/-- A chunk write in one packet is served. -/
theorem exec_chunkWrite_only (hop : p.opcode = 0x03) (hnew : newHere s p = true) (hindex : bits p.aux 0 6 = 0) (hcount : bits p.aux 6 6 = 0)
    (hnone : tfind s.mar.chunks (p.src * 65536 + p.tag) = none) (halone : twinRange s (pgaDpa p.pga) = none) :
    exec (.chunkWrite p) s = .next (settle (arriveRequest (requestOf p) (withChunks
      (tdel (entered p s).mar.chunks (p.src * 65536 + p.tag)) (entered p s)))) := by
  obtain ⟨hformed, -⟩ := newHere_iff.1 hnew
  obtain ⟨hmore, -⟩ := chunk_of_formed hformed hop
  have hfirst : ¬ ([p].any fun q => q.opcode == 0x0B) = true := by
    rw [List.any_cons, hop]
    exact Bool.false_ne_true
  have hwhole : twinRange (withChunks (tdel (entered p s).mar.chunks (p.src * 65536 + p.tag)) (entered p s)) (pgaDpa p.pga) = none :=
    withChunks_alone _ ((twinRange_entered _).trans halone)
  refine (exec_chunkWrite_new hop hnew).trans (congrArg (fun u => Host.Outcome.next (settle u)) ?_)
  rw [hindex, hcount]
  refine (joinOp_only ((entered_read (fun u => tfind u.mar.chunks (p.src * 65536 + p.tag)) fun _ => rfl).trans hnone)).trans
    ((if_neg hfirst).trans ?_)
  rw [wholeChunk_single hformed hop, joinedChunk_single hmore]
  exact (if_neg (requestOf_chunk_op hop)).trans (twinned_alone _ hwhole)

theorem exec_chunkWriteDiscard_due {src tag : Nat} {x : PartialOp} (hfound : tfind s.mar.chunks (src * 65536 + tag) = some x)
    (hdue : x.due ≤ s.now) : exec (.chunkWriteDiscard src tag) s =
      .next (acceptClosed src tag { s with mar := { s.mar with chunks := tdel s.mar.chunks (src * 65536 + tag) } }) := by
  change execChunkWriteDiscard src tag s = _
  rw [execChunkWriteDiscard, hfound]
  exact congrArg _ (if_neg (Nat.not_lt.2 hdue))

/-- Settles O26: every operation is new, so that it is entered and served; where its range has no twin, it is served here. -/
theorem requestsArrive : Obligations.RequestsArrive := by
  refine ⟨fun c o p s hc hop hnew halone => ?_, fun p s hop hnew halone => ⟨_, exec_commit_new hop hnew halone, entered_read State.mem fun _ => rfl, entered_read State.pga fun _ => rfl,
      entered_read State.car fun _ => rfl⟩,
    fun p s hop hnew halone => ⟨_, exec_stage_new hop hnew halone, entered_read State.mem fun _ => rfl, entered_read State.pga fun _ => rfl,
      entered_read State.car fun _ => rfl⟩,
    fun p s hop hnew hindex hcount hnone => ⟨_, firstPart 2 p (entered p s), exec_chunkWrite_first hop hnew hindex hcount hnone, tfind_tput_same _ _ _,
      rfl, rfl, rfl, (withChunks_read _ State.mem rfl).trans (entered_read State.mem fun _ => rfl)⟩,
    fun p s hop hnew hindex hcount hnone halone => ⟨_, exec_chunkWrite_only hop hnew hindex hcount hnone halone,
      (withChunks_read _ State.mem rfl).trans (entered_read State.mem fun _ => rfl),
      (withChunks_read _ State.pga rfl).trans (entered_read State.pga fun _ => rfl),
      (withChunks_read _ State.ldg rfl).trans (entered_read State.ldg fun _ => rfl)⟩,
    fun src tag x s hfound hdue hsorted => ⟨_, exec_chunkWriteDiscard_due hfound hdue, tfind_tdel_same hsorted, rfl⟩,
    fun p s hop hformed => congrArg Host.Outcome.next ((if_neg (by rw [hformed]; exact Bool.false_ne_true)).trans
      (if_neg (by rw [isOp_eq hop]; exact Bool.false_ne_true)))⟩
  obtain ⟨hexec, hchunk, hmanage⟩ := exec_serves (s := s) hc
  exact ⟨entered p s, hexec.trans (congrArg _ (servePacket_new hop hnew halone)), entered_eq,
    acceptEntry_entered (isMulti_eq_false (hop ▸ hchunk) (hop ▸ hmanage))⟩

end Sys2Proof.Claims
end

section
/-! PROOFS. The weigh-house schedulers (R432 to R448): which head is served, refills, wheels and gates, and the warden's settings. -/
namespace Sys2Proof.Machine
set_option Elab.async false

variable {s : State} {sched cls : Nat}

@[simp] theorem schedOf_setSched_same (k : Nat) (x : Sched) : schedOf (setSched k x s) k = x := by
  simp only [schedOf, setSched, tfind_tput_same, Option.getD_some]

theorem classOf_setClass_same (k c : Nat) (w : WClass) : classOf (schedOf (setClass k c w s) k) c = w := by
  simp only [setClass, schedOf_setSched_same, classOf, tfind_tput_same, Option.getD_some]

/-- A request's end leaves the schedulers. -/
theorem schedOf_finish {q : Ask} {key status : Nat} {body : Bytes} (k : Nat) : schedOf (finish q key status body s) k = schedOf s k :=
  (finish_answers ..).read (fun u => schedOf u k) fun _ _ => rfl

theorem exec_schedulerSelect_first (hsched : sched < 47) (hfirst : strictReady s sched 0 = true) :
    exec (.schedulerSelect sched) s = .next (returnCredits (takeHead sched 0 s)) :=
  congrArg (fun u => Host.Outcome.next (returnCredits u)) ((if_neg (Nat.not_le.2 hsched)).trans (if_pos hfirst))

theorem exec_schedulerSelect_second (hsched : sched < 47) (hfirst : strictReady s sched 0 = false) (hsecond : strictReady s sched 1 = true) :
    exec (.schedulerSelect sched) s = .next (returnCredits (takeHead sched 1 s)) :=
  congrArg (fun u => Host.Outcome.next (returnCredits u)) ((if_neg (Nat.not_le.2 hsched)).trans
    ((if_neg (by rw [hfirst]; exact Bool.false_ne_true)).trans (if_pos hsecond)))

theorem exec_schedulerSelect_weighted {c : Nat} {x : Sched} (hsched : sched < 47) (hfirst : strictReady s sched 0 = false)
    (hsecond : strictReady s sched 1 = false) (hweighed : weighLoop s sched 6 (schedOf s sched) = (some c, x)) :
    exec (.schedulerSelect sched) s = .next (returnCredits (takeHead sched c (setSched sched x s))) := by
  refine congrArg (fun u => Host.Outcome.next (returnCredits u)) ((if_neg (Nat.not_le.2 hsched)).trans
    ((if_neg (by rw [hfirst]; exact Bool.false_ne_true)).trans ((if_neg (by rw [hsecond]; exact Bool.false_ne_true)).trans ?_)))
  rw [hweighed]

/-- A wheel's slot that has come finds no head. -/
theorem exec_wheelSlot_empty {slot : Nat} (hwheel : (classOf (schedOf s sched) cls).wheel = some slot) (hslot : slot ≤ s.now / 64)
    (hqueue : (classOf (schedOf s sched) cls).queue = []) :
    exec (.wheelSlot sched cls) s = .next (setClass sched cls { classOf (schedOf s sched) cls with wheel := none } s) := by
  change execWheelSlot sched cls s = _
  simp only [execWheelSlot, hwheel, if_neg (Nat.not_lt.2 hslot), hqueue]

/-- A scheduler with its waiting gate list in force. -/
noncomputable def gatesTaken (g : List Nat × Nat) (x : Sched) : Sched := { x with gates := g.1, gateBase := g.2, nextGates := none }

theorem exec_gateEntry_due {g : List Nat × Nat} (hnext : (schedOf s sched).nextGates = some g) (hdue : (schedOf s sched).nextAt ≤ s.now) :
    exec (.gateEntry sched) s = .next (setSched sched { gatesTaken g (schedOf s sched) with
      gateIdx := (gateAt g.1 0 (gatePhase g.1 g.2 s.now)).1 } s) := by
  change execGateEntry sched s = _
  simp only [execGateEntry, hnext, if_pos hdue]
  rfl

/-! ### Refills -/

/-- One scheduler's refill: unless its slot has been served, the classes are refilled and the slot is served. -/
noncomputable def refilled (s : State) (p : Nat × Sched) : Nat × Sched :=
  let x := p.2
  let n := s.now / 64 - x.lastSlot
  if n = 0 then p
  else
    let x := { x with cls := x.cls.map fun q => (q.1, if q.1 < 2 then q.2 else refillClass s n q.2), lastSlot := s.now / 64 }
    let per := refillOf (resourceRate s p.1) * throttleOf s x / 100
    (p.1, if throttleOf s x < 100 then { x with tcredit := min (x.tcredit + n * per) (credits (4 * longestOf p.1 x)) } else x)

theorem refilled_fst (p : Nat × Sched) : (refilled s p).1 = p.1 := by
  unfold refilled
  exact (apply_ite Prod.fst _ _ _).trans (ite_self _)

/-- A refill serves every slot up to now. -/
theorem refilled_lastSlot (p : Nat × Sched) : s.now / 64 ≤ (refilled s p).2.lastSlot := by
  unfold refilled
  by_cases hserved : s.now / 64 - p.2.lastSlot = 0
  · exact le_of_le_of_eq (Nat.le_of_sub_eq_zero hserved) (congrArg (fun p : Nat × Sched => p.2.lastSlot) (if_pos hserved)).symm
  · refine Nat.le_of_eq (Eq.symm ((congrArg (fun p : Nat × Sched => p.2.lastSlot) (if_neg hserved)).trans ?_))
    exact (apply_ite Sched.lastSlot _ _ _).trans (ite_self _)

theorem exec_refill : exec .refill s =
    .next { refillSafe s with wgh := { (refillSafe s).wgh with sched := (refillTable (refillSafe s)).map (refilled (refillSafe s)) } } := rfl

end Sys2Proof.Machine

namespace Sys2Proof.Claims
open Sys2Proof.Machine

variable {s : State} {q : Ask} {cls value : Nat}

/-- A warden's setting of the class `cls` of the scheduler it selected: refused for a strict class or a value that is `bad`. -/
noncomputable def classSetting (q : Ask) (key cls : Nat) (bad : Nat → WClass → Bool) (set : WClass → WClass) (x : Session) (s : State) : State :=
  let k := selectOf x 0x600000 0
  let w := classOf (schedOf s k) cls
  if cls < 2 || 7 < cls then finish q key stAbsent [] s
  else if bad k w then finish q key stBadValue [] s
  else finish q key stOk [] (setClass k cls (set w) s)

/-- A setting of a weighted class that is not bad answers OK and is kept. -/
theorem exec_classSetting {cmd : Instr} {key k : Nat} {bad : Nat → WClass → Bool} {set : WClass → WClass}
    (hexec : exec cmd s = .next (ask q 1 key true (classSetting q key cls bad set) s)) (htaken : taken s q 1 = true)
    (hk : k = selected s q 0x600000) (hlow : 2 ≤ cls) (hhigh : cls ≤ 7) (hgood : bad k (classOf (schedOf s k) cls) = false) :
    ∃ t, exec cmd s = .next t ∧ classOf (schedOf t k) cls = set (classOf (schedOf s k) cls) ∧ answered t q stOk = true := by
  obtain ⟨x, t, h⟩ := exec_of_taken hexec htaken rfl
  obtain rfl := hk.trans (h.select_eq 0x600000).symm
  rw [← h.replies.answers.read (fun u => schedOf u (selectOf x 0x600000 0)) fun _ _ => rfl] at hgood ⊢
  refine ⟨_, h.exec_eq.trans (congrArg _ ((if_neg ?_).trans (if_neg ?_))), ?_, finish_answered [] (h.awaits.of_update rfl rfl)⟩
  · rw [decide_eq_false (Nat.not_lt.2 hlow), decide_eq_false (Nat.not_lt.2 hhigh)]
    exact Bool.false_ne_true
  · rw [hgood]
    exact Bool.false_ne_true
  · rw [schedOf_finish, classOf_setClass_same]

/-- A value that is at most `most`, and for which `low` is at most `high`, passes a setting's check. -/
theorem setting_good {most low high : Nat} (hmost : value ≤ most) (hroom : low ≤ high) : (decide (most < value) || decide (high < low)) = false := by
  rw [decide_eq_false (Nat.not_lt.2 hmost), decide_eq_false (Nat.not_lt.2 hroom)]
  rfl

/-- A gate list that a warden sets waits for its time. -/
theorem exec_wghGateList {list : Bytes} (htaken : taken s q 1 = true) (hlen : list.length = 257) (hcount : leAt list 0 1 ≤ 64)
    (hentries : ∀ e ∈ gateEntries list, bits e 0 16 ≠ 0) :
    ∃ t x, exec (.wghGateList q list) s = .next t ∧ answered t q stOk = true ∧ schedOf t (selected s q 0x600000) = x ∧
      x.setGates = gateEntries list ∧
      x.nextGates = some (gateEntries list, (schedOf s (selected s q 0x600000)).setBase) ∧
      x.gates = (gatesOf s (schedOf s (selected s q 0x600000))).1 := by
  obtain ⟨x, t, h⟩ := exec_of_taken (c := .wghGateList q list) rfl htaken rfl
  have hsched := h.replies.answers.read (fun u => schedOf u (selected s q 0x600000)) fun _ _ => rfl
  have hgates := h.replies.answers.read (fun u => gatesOf u (schedOf u (selected s q 0x600000))) fun _ _ => rfl
  rw [← hgates, ← hsched, ← h.select_eq]
  refine ⟨_, _, h.exec_eq.trans (congrArg _ (if_neg ?_)), finish_answered [] (h.awaits.of_update rfl rfl),
    (schedOf_finish _).trans (schedOf_setSched_same _ _), rfl, rfl, rfl⟩
  have hgood : (gateEntries list).any (fun e => bits e 0 16 == 0) = false :=
    List.any_eq_false.2 fun e he hzero => hentries e he (beq_iff_eq.1 hzero)
  rw [hgood, hlen, decide_eq_false (Nat.not_lt.2 hcount)]
  exact Bool.false_ne_true

/-- Settles O30: each scheduler command is the branch that its hypotheses select, and the warden's settings change one scheduler. -/
theorem weighHouseRuns : Obligations.WeighHouseRuns := by
  refine ⟨fun sched s => exec_schedulerSelect_first, fun sched s => exec_schedulerSelect_second,
    fun sched c x s => exec_schedulerSelect_weighted, fun s => ?_, fun sched cls slot s => exec_wheelSlot_empty,
    fun sched g s hnext hdue => ?_, fun q cls value k s htaken hk hlow hhigh hmost hroom => ?_,
    fun q cls value k s htaken hk hlow hhigh hmost hroom => ?_,
    fun q list k s htaken hk hlen hcount hentries => ?_, fun q s htaken => ?_⟩
  · refine ⟨_, exec_refill, fun e he => ?_, ?_, rfl, rfl, rfl⟩
    · obtain ⟨p, -, rfl⟩ := List.mem_map.1 he
      exact refilled_lastSlot (s := refillSafe s) p
    · by_cases hsafe : (refillSafe s).wgh.safeInForce = true
      · exact .inl hsafe
      · refine .inr ?_
        have htable : refillTable (refillSafe s) = s.wgh.sched := if_neg hsafe
        dsimp only
        rw [htable, List.map_map]
        exact List.map_congr_left fun p _ => refilled_fst p
  · refine ⟨_, exec_gateEntry_due hnext hdue, ?_⟩
    rw [schedOf_setSched_same]
    exact ⟨rfl, rfl, rfl, rfl⟩
  · exact exec_classSetting (bad := fun k w => 16777216 < value || value < longestPayload k + w.nextOverhead)
      (set := fun w => { w with nextBurst := value }) rfl htaken hk hlow hhigh (setting_good hmost hroom)
  · exact exec_classSetting (bad := fun k w => 255 < value || w.nextBurst < longestPayload k + value)
      (set := fun w => { w with nextOverhead := value }) rfl htaken hk hlow hhigh (setting_good hmost hroom)
  · subst hk
    obtain ⟨t, x, ht, hanswer, rfl, hset, hnext, hgates⟩ := exec_wghGateList htaken hlen hcount hentries
    exact ⟨t, ht, hset, hnext, hgates, hanswer⟩
  · obtain ⟨x, t, h⟩ := exec_of_taken (c := .wghSafeClear q 1) rfl htaken rfl
    exact ⟨_, h.exec_eq, (finish_answers ..).read (fun u => u.wgh.watchdogCause) fun _ _ => rfl,
      (finish_answers ..).read (fun u => u.wgh.privCause) fun _ _ => rfl, (finish_answers ..).read (fun u => u.wgh.clearEvent) fun _ _ => rfl,
      finish_answered [] (h.awaits.of_update rfl rfl)⟩

end Sys2Proof.Claims
end

section
/-! PROOFS. The general commands of a mailbox (R99, R101, R107, log 72): what is sent, and what a command leaves. -/
namespace Sys2Proof.Machine
set_option Elab.async false

variable {s u : State} {port ld code : Nat} {payload : Bytes}

/-- A vector that fires is sent at most once. -/
theorem fireVector_out (k vector : Nat) :
    (fireVector k vector s).out = s.out ∨ ∃ addr data, (fireVector k vector s).out = .msix (k / 16) (k % 16) vector addr data :: s.out := by
  unfold fireVector
  dsimp only
  split
  case isTrue hpending => exact .inl rfl
  case isFalse hclear =>
    split
    case isTrue hsend => exact .inr ⟨_, _, rfl⟩
    case isFalse hheld => exact .inl rfl

theorem mailboxDone_delivers : Delivers s (mailboxDone port ld code payload s) :=
  .trans (t := emit (.mailbox port ld code payload) s) rfl (.ite (fireVector_delivers _ _))

/-! ### Fields of one byte -/

/-- A byte of packed byte fields. -/
theorem bits_packBits_bytes {l : List (Nat × Nat)} (hbytes : ∀ e ∈ l, e.1 = 8) {i : Nat} (hi : i < l.length) :
    bits (packBits l) (8 * i) 8 = l[i].2 % 2 ^ 8 := by
  induction l generalizing i with
  | nil => exact absurd hi (Nat.not_lt_zero i)
  | cons e l ih =>
    obtain ⟨w, v⟩ := e
    obtain rfl : w = 8 := hbytes _ List.mem_cons_self
    cases i with
    | zero =>
      change (v % 2 ^ 8 + 2 ^ 8 * packBits l) / 1 % 2 ^ 8 = v % 2 ^ 8
      rw [Nat.div_one, Nat.add_mul_mod_self_left, Nat.mod_mod]
    | succ i =>
      have hrest := ih (fun e he => hbytes e (List.mem_cons_of_mem _ he)) (Nat.lt_of_succ_lt_succ hi)
      rw [List.getElem_cons_succ, ← hrest, bits, bits, Nat.mul_succ, Nat.add_comm, Nat.pow_add, ← Nat.div_div_eq_div_mul]
      congr 2
      change (v % 2 ^ 8 + 2 ^ 8 * packBits l) / 2 ^ 8 = packBits l
      rw [Nat.add_mul_div_left _ _ (by decide), Nat.div_eq_of_lt (Nat.mod_lt _ (by decide)), Nat.zero_add]

theorem bits_lt (n lo w : Nat) : bits n lo w < 2 ^ w := Nat.mod_lt _ (Nat.two_pow_pos w)

theorem length_mboxRecord (r : Nat × Bytes) : (mboxRecord r).length = 128 := by
  rw [mboxRecord, List.length_take, List.length_append, zeros, List.length_replicate]
  exact Nat.min_eq_left (Nat.le_add_left _ _)

theorem length_flatMap_mboxRecord (rs : List (Nat × Bytes)) : (rs.flatMap mboxRecord).length = 128 * rs.length := by
  induction rs with
  | nil => rfl
  | cons r rs ih => rw [List.flatMap_cons, List.length_append, ih, length_mboxRecord, List.length_cons, Nat.mul_succ, Nat.add_comm]

end Sys2Proof.Machine

namespace Sys2Proof.Claims
open Sys2Proof.Machine

variable {s u : State} {port ld code : Nat} {payload : Bytes}

/-- A command that leaves what was sent sends its return code and payload, and the vector of its device at most. -/
theorem mailed_mailboxDone (hout : u.out = s.out) : mailed s (mailboxDone port ld code payload u) port ld code payload := by
  unfold mailboxDone
  dsimp only
  by_cases hvector : ld < 16
  · rw [if_pos hvector]
    have hkey : ldKey port ld / 16 = port ∧ ldKey port ld % 16 = ld := by
      rw [ldKey, Nat.mul_add_mod_of_lt hvector, Nat.mul_comm, Nat.mul_add_div (by decide), Nat.div_eq_of_lt hvector]
      exact ⟨rfl, rfl⟩
    rcases fireVector_out (s := emit (.mailbox port ld code payload) u) (ldKey port ld) 0 with hquiet | ⟨addr, data, hsent⟩
    · exact .inl (hquiet.trans (congrArg (List.cons _) hout))
    · refine .inr ⟨0, addr, data, hsent.trans ?_⟩
      rw [hkey.1, hkey.2, ← hout]
      rfl
  · rw [if_neg hvector]
    exact .inl (congrArg (List.cons _) hout)

/-- What a mailbox command that answers `code` and `payload` in the state `u` ends with. -/
structure Mails (c : Instr) (s u t : State) (port ld code : Nat) (payload : Bytes) : Prop where
  exec_eq : exec c s = .next t
  sent : mailed s t port ld code payload
  delivers : Delivers u t

theorem exec_mailbox {c : Instr} {act : State → Nat × Bytes × State} (hup : mboxUp s port ld = true)
    (hexec : exec c s = .next (mailbox port ld act s)) (hact : act s = (code, payload, u)) (hout : u.out = s.out) :
    ∃ t, Mails c s u t port ld code payload := by
  refine ⟨mailboxDone port ld code payload u, hexec.trans (congrArg _ ((if_pos hup).trans ?_)), mailed_mailboxDone hout, mailboxDone_delivers⟩
  rw [hact]

/-- The policies that a host sets. -/
noncomputable def policyFields (keep : Nat) (b : Bytes) : List (Nat × Nat) :=
  (List.range 5).map fun i => (8, if i < b.length then bits (leAt b i 1) 0 2 else keep)

theorem bits_policyFields {keep i : Nat} {b : Bytes} (hi : i < 5) :
    bits (packBits (policyFields keep b)) (8 * i) 8 = (if i < b.length then bits (leAt b i 1) 0 2 else keep) % 2 ^ 8 := by
  have hlen : (policyFields keep b).length = 5 := by rw [policyFields, List.length_map, List.length_range]
  rw [bits_packBits_bytes (fun e he => ?_) (hlen ▸ hi)]
  · simp only [policyFields, List.getElem_map, List.getElem_range]
  · obtain ⟨i, -, rfl⟩ := List.mem_map.1 he
    rfl

/-- A log once all its records have been cleared. -/
noncomputable def clearedLog (l : EvLog) : EvLog := { l with records := [], overflow := 0, first := 0, last := 0 }

/-- A device with all records of a log cleared. -/
noncomputable def logCleared (k log : Nat) (s : State) : State :=
  let l := (tfind (ldOf s k).logs log).getD {}
  setLd k { ldOf s k with logs := tput (ldOf s k).logs log (clearedLog l) } s

/-- Settles O13: each command answers in the state that its action leaves. -/
theorem mailboxesRun : Obligations.MailboxesRun := by
  refine ⟨fun port ld s hup => ?_, fun port ld s hup => ?_, fun port ld log s hup hlog => ?_, fun port ld log hs s hup hlog => ?_,
    fun port ld s hup => ?_, fun port ld b s hup hlen => ?_, fun port ld s hup => ?_, fun port ld stamp s hup => ?_, fun port ld s hup => ?_,
    fun port ld offset length s hup hlen => ?_, fun port ld opcode s hup hfm => ?_⟩
  · obtain ⟨t, h⟩ := exec_mailbox (c := .identify port ld) hup rfl rfl rfl
    exact ⟨t, _, h.exec_eq, h.sent, rfl, (congrArg fromLE (rfl : _ = toLE 2 0x4800)).trans (by decide),
      h.delivers.read State.cxl fun _ _ => rfl, h.delivers.read State.mem fun _ _ => rfl⟩
  · obtain ⟨t, h⟩ := exec_mailbox (c := .backgroundOperationStatus port ld) hup rfl rfl rfl
    exact ⟨t, h.exec_eq, h.sent, h.delivers.read State.cxl fun _ _ => rfl, h.delivers.read State.mem fun _ _ => rfl⟩
  · obtain ⟨t, h⟩ := exec_mailbox (c := .getEventRecords port ld log) hup rfl (if_neg (Nat.not_le.2 hlog)) rfl
    refine ⟨t, _, h.exec_eq, h.sent, ?_, h.delivers.read State.cxl fun _ _ => rfl, h.delivers.read State.mem fun _ _ => rfl⟩
    rw [List.length_append, length_flatMap_mboxRecord, List.length_take]
    rfl
  · obtain ⟨t, h⟩ := exec_mailbox (c := .clearEventRecords port ld log true hs)
      (u := logCleared (mboxKey port ld) log s) hup rfl (if_neg (Nat.not_le.2 hlog)) rfl
    have hld := (h.delivers.read (fun u => ldOf u (mboxKey port ld)) fun _ _ => rfl).trans (ldOf_setLd_same _ _)
    refine ⟨t, h.exec_eq, h.sent, ?_, ?_, fun i hi => ?_, h.delivers.read State.mem fun _ _ => rfl⟩
    · rw [hld, tfind_tput_same]
      rfl
    · rw [hld, tfind_tput_same]
      rfl
    · rw [hld, tfind_tput_other hi]
  · obtain ⟨t, h⟩ := exec_mailbox (c := .getEventInterruptPolicy port ld) hup rfl rfl rfl
    exact ⟨t, h.exec_eq, h.sent, h.delivers.read State.cxl fun _ _ => rfl⟩
  · have hgood : ¬ (b.length != 4 && b.length != 5) = true := by
      rw [hlen]
      exact Bool.false_ne_true
    obtain ⟨t, h⟩ := exec_mailbox (c := .setEventInterruptPolicy port ld b) hup rfl (if_neg hgood) rfl
    have hld := (h.delivers.read (fun u => (ldOf u (mboxKey port ld)).policy) fun _ _ => rfl).trans
      (congrArg Ld.policy (ldOf_setLd_same _ _))
    refine ⟨t, h.exec_eq, h.sent, fun i hi => ?_, ?_⟩
    · rw [hld]
      refine (bits_policyFields (Nat.lt_succ_of_lt hi)).trans ?_
      rw [if_pos (hlen ▸ hi), Nat.mod_eq_of_lt (Nat.lt_trans (bits_lt _ 0 2) (by decide))]
    · rw [hld]
      refine (bits_policyFields (i := 4) (by decide)).trans ?_
      rw [hlen, if_neg (Nat.lt_irrefl 4), Nat.mod_eq_of_lt (bits_lt _ 32 8)]
  · obtain ⟨t, h⟩ := exec_mailbox (c := .getTimestamp port ld) hup rfl rfl rfl
    exact ⟨t, h.exec_eq, h.sent, h.delivers.read State.cxl fun _ _ => rfl⟩
  · obtain ⟨t, h⟩ := exec_mailbox (c := .setTimestamp port ld stamp) hup rfl rfl rfl
    have hld := (h.delivers.read (fun u => ldOf u (mboxKey port ld)) fun _ _ => rfl).trans (ldOf_setLd_same _ _)
    refine ⟨t, h.exec_eq, h.sent, ?_⟩
    rw [hld]
    exact ⟨rfl, rfl, rfl⟩
  · obtain ⟨t, h⟩ := exec_mailbox (c := .getSupportedLogs port ld) hup rfl rfl rfl
    exact ⟨t, _, h.exec_eq, h.sent, rfl, rfl, h.delivers.read State.cxl fun _ _ => rfl⟩
  · have hcel : ¬ (celUuid != celUuid) = true := by
      rw [bne_self_eq_false]
      exact Bool.false_ne_true
    obtain ⟨t, h⟩ := exec_mailbox (c := .getLog port ld celUuid offset length) hup rfl
      ((if_neg hcel).trans (if_neg (Nat.not_lt.2 hlen))) rfl
    exact ⟨t, h.exec_eq, h.sent, h.delivers.read State.cxl fun _ _ => rfl⟩
  · obtain ⟨t, h⟩ := exec_mailbox (c := .unsupportedMailbox port ld opcode) hup rfl
      (if_neg (by rw [hfm]; exact Bool.false_ne_true)) rfl
    exact ⟨t, h.exec_eq, h.sent, h.delivers.read State.cxl fun _ _ => rfl, h.delivers.read State.mem fun _ _ => rfl⟩

end Sys2Proof.Claims
end

section
/-! PROOFS. Contexts of the Clerks and their doorbells (R272 to R277, R635): what each command leaves of the context it selects. -/
namespace Sys2Proof.Machine
set_option Elab.async false

variable {s : State} {q : Ask} {n key : Nat}

theorem ctxOf_setCtx_same (c : Ctx) : ctxOf (setCtx n c s) n = c :=
  congrArg (fun o : Option Ctx => o.getD {}) (tfind_tput_same s.cle.ctxs n c)

/-- The context `c` with the fields of a record of R364 as the warden writes them. -/
noncomputable def writtenCtx (record : Bytes) (c : Ctx) : Ctx :=
  { c with
    pasid := bits (leAt record 4 4) 0 20
    port := bits (leAt record 4 4) 20 5
    ld := bits (leAt record 4 4) 25 4
    sqBase := leAt record 8 8
    cqBase := leAt record 16 8
    sqOrder := bits (leAt record 24 4) 0 8
    cqOrder := bits (leAt record 24 4) 8 8
    vector := bits (leAt record 24 4) 16 11
    jobLimit := bits (leAt record 28 4) 0 7
    fabric := packBits [(14, leAt record 48 16), (2, 0), (13, bits (leAt record 48 16) 16 13), (35, 0), (64, bits (leAt record 48 16) 64 64)] }

/-- The context `c` once it is bound without a slice of ranks. -/
noncomputable def boundCtx (c : Ctx) : Ctx :=
  { c with
    state := 0, haltCode := 0, completed := 0, slice := 0, sliceLen := 0, sqTail := 0, cqHead := 0, sqHead := 0
    cqIndex := 0, phase := true, fetching := false, fetched := none, ranks := none, rankBuf := [], chainOpen := none
    chainOk := none, n := 0, timerAt := none, records := [], recordBusy := false, recordStuck := false, inval := 0 }

/-- The context `c` once its unbind has ended. -/
noncomputable def unboundCtx (c : Ctx) : Ctx :=
  { c with state := 3, waiting := none, haltCode := 0, sqTail := 0, slice := 0, sliceLen := 0, n := 0, timerAt := none, inval := 0 }

/-- The context `c` once its reset has ended. -/
noncomputable def resetCtx (c : Ctx) : Ctx :=
  { c with state := 0, n := 0, timerAt := none, haltCode := 0, waiting := none, sqHead := 0, sqTail := 0, cqIndex := 0, phase := true }

/-- `s` without the jobs of the context `n`. -/
noncomputable def withoutJobs (n : Nat) (s : State) : State :=
  { s with cle := { s.cle with jobs := tkeep s.cle.jobs fun _ x => x.ctx != n } }

/-- A request's end leaves the contexts. -/
theorem ctxOf_finish_setCtx (c : Ctx) : ctxOf (finish q key stOk [] (setCtx n c s)) n = c :=
  ((finish_finishes ..).read (fun u => ctxOf u n) fun _ _ _ _ => rfl).trans (ctxOf_setCtx_same c)

/-- A field that a context's fetch does not concern is kept when the fetch is stopped. -/
theorem stopFetch_field {α : Type} (all : Bool) (f : Ctx → α) (hf : f { ctxOf s n with fetching := false, fetched := none } = f (ctxOf s n)) :
    f (ctxOf (stopFetch n all s) n) = f (ctxOf s n) :=
  (congrArg f (ctxOf_setCtx_same _)).trans hf

theorem stopFetch_fetching (all : Bool) : (ctxOf (stopFetch n all s) n).fetching = false :=
  congrArg Ctx.fetching (ctxOf_setCtx_same _)

/-- The check for idleness keeps a field that neither the end of a fetch nor the context's state concerns. -/
theorem idleCheck_field {α : Type} (f : Ctx → α) (hf : f { ctxOf s n with fetching := false, fetched := none } = f (ctxOf s n))
    (hstate : ∀ c : Ctx, f { c with state := 0 } = f c) : f (ctxOf (idleCheck n s) n) = f (ctxOf s n) := by
  unfold idleCheck
  dsimp only
  split
  case isTrue hidle => exact (congrArg f (ctxOf_setCtx_same _)).trans ((hstate _).trans (stopFetch_field false f hf))
  case isFalse hbusy => rfl

theorem idleCheck_mem : (idleCheck n s).mem = s.mem :=
  (apply_ite State.mem _ _ _).trans (ite_self _)

theorem each_setJob_mem (jobs : List (Nat × Job)) (f : Nat × Job → Job) :
    (each jobs (fun p u => setJob p.1 (f p) u) s).mem = s.mem :=
  each_induct (P := fun u : State => u.mem = s.mem) rfl fun _ _ _ h => h

end Sys2Proof.Machine

namespace Sys2Proof.Claims
open Sys2Proof.Machine

variable {s : State} {q : Ask}

/-- `c` ran `act` on the context `n` in the state `t`, which differs from `s` in its sessions and what is sent only, and where the request
awaits its answer. -/
structure RunsOnCtx (c : Instr) (q : Ask) (n : Nat) (act : Nat → Ctx → State → State) (s t : State) : Prop where
  awaits : Awaits q t
  replies : Replies s t
  exec_eq : exec c s = .next (act n (ctxOf s n) t)

theorem RunsOnCtx.mem_eq {c : Instr} {n : Nat} {act : Nat → Ctx → State → State} {t : State} (h : RunsOnCtx c q n act s t) :
    t.mem = s.mem :=
  h.replies.answers.read State.mem fun _ _ => rfl

/-- The warden's command on the context it selected runs. -/
theorem exec_onCtx {c : Instr} {key roles : Nat} {act : Nat → Ctx → State → State} {n : Nat}
    (hexec : exec c s = .next (onCtx q key roles act s)) (htaken : taken s q 1 = true) (hrole : bitOf roles 0 = true)
    (hn : n = selected s q 0x500200) : ∃ t, RunsOnCtx c q n act s t := by
  obtain ⟨x, t, h⟩ := exec_of_taken hexec htaken hrole
  have hsel : selectOf x keyCtxSelect 0 = n := (h.select_eq keyCtxSelect).trans hn.symm
  have hctx : ctxOf t n = ctxOf s n := h.replies.answers.read (fun u => ctxOf u n) fun _ _ => rfl
  refine ⟨t, h.awaits, h.replies, h.exec_eq.trans (congrArg _ ?_)⟩
  dsimp only
  rw [hsel, hctx, h.role_eq]
  exact if_neg Bool.false_ne_true

variable {n : Nat}

/-- A command that ends at once with the context `c` answers OK and leaves that context. -/
theorem ends_with {cmd : Instr} {act : Nat → Ctx → State → State} {t : State} {key : Nat} {c : Ctx} (h : RunsOnCtx cmd q n act s t)
    (hact : act n (ctxOf s n) t = finish q key stOk [] (setCtx n c t)) :
    ∃ t, exec cmd s = .next t ∧ ctxOf t n = c ∧ answered t q stOk = true :=
  ⟨_, h.exec_eq.trans (congrArg _ hact), ctxOf_finish_setCtx c, finish_answered [] (h.awaits.of_update rfl rfl)⟩

theorem exec_contextAssign {part : Nat} (htaken : taken s q 1 = true) (hn : n = selected s q 0x500200) (hpart : part ≤ 63)
    (hfree : (ctxOf s n).assigned = false) : ∃ t, exec (.contextAssign q part) s = .next t ∧
      ctxOf t n = { ctxOf s n with assigned := true, part := part } ∧ answered t q stOk = true := by
  obtain ⟨t, h⟩ := exec_onCtx (c := .contextAssign q part) rfl htaken rfl hn
  exact ends_with h ((if_neg (Nat.not_lt.2 hpart)).trans (if_neg (by rw [hfree]; exact Bool.false_ne_true)))

/-- An unbound context that no bind waits on is not busy. -/
theorem unbound_not_busy {c : Ctx} (hunbound : c.state = 3) (hranks : c.ranks = none) : ¬(c.state != 3 || c.ranks.isSome) = true := by
  rw [hunbound, hranks]
  exact Bool.false_ne_true

/-- A bound context that no unbind or reset waits on is not busy. -/
theorem bound_not_busy {c : Ctx} (hbound : c.state ≠ 3) (hwaiting : c.waiting = none) : ¬(c.state = 3 || c.waiting.isSome) = true := by
  rw [hwaiting, decide_eq_false hbound]
  exact Bool.false_ne_true

theorem exec_contextRelease (htaken : taken s q 1 = true) (hn : n = selected s q 0x500200) (hunbound : (ctxOf s n).state = 3)
    (hranks : (ctxOf s n).ranks = none) : ∃ t, exec (.contextRelease q) s = .next t ∧
      ctxOf t n = { ctxOf s n with assigned := false, part := 0 } ∧ answered t q stOk = true := by
  obtain ⟨t, h⟩ := exec_onCtx (c := .contextRelease q) rfl htaken rfl hn
  exact ends_with h (if_neg (unbound_not_busy hunbound hranks))

theorem exec_cleContext {record : Bytes} (htaken : taken s q 1 = true) (hn : n = selected s q 0x500200) (hunbound : (ctxOf s n).state = 3)
    (hranks : (ctxOf s n).ranks = none) (hlen : record.length = 64) (hpos : 0 < bits (leAt record 28 4) 0 7)
    (hmost : bits (leAt record 28 4) 0 7 ≤ 64) :
    ∃ t, exec (.cleContext q record) s = .next t ∧ (ctxOf t n).pasid = bits (leAt record 4 4) 0 20 ∧
      (ctxOf t n).port = bits (leAt record 4 4) 20 5 ∧ (ctxOf t n).ld = bits (leAt record 4 4) 25 4 ∧
      (ctxOf t n).sqBase = leAt record 8 8 ∧ (ctxOf t n).cqBase = leAt record 16 8 ∧ (ctxOf t n).jobLimit = bits (leAt record 28 4) 0 7 ∧
      (ctxOf t n).state = 3 ∧ (ctxOf t n).part = (ctxOf s n).part ∧ answered t q stOk = true := by
  obtain ⟨t, h⟩ := exec_onCtx (c := .cleContext q record) rfl htaken rfl hn
  have hgood : ¬(record.length != 64 || decide (bits (leAt record 28 4) 0 7 = 0) || decide (64 < bits (leAt record 28 4) 0 7)) = true := by
    rw [hlen, decide_eq_false (Nat.ne_of_gt hpos), decide_eq_false (Nat.not_lt.2 hmost)]
    exact Bool.false_ne_true
  obtain ⟨t, ht, hctx, hanswer⟩ := ends_with (c := writtenCtx record (ctxOf s n)) h
    ((if_neg (unbound_not_busy hunbound hranks)).trans (if_neg hgood))
  exact ⟨t, ht, congrArg Ctx.pasid hctx, congrArg Ctx.port hctx, congrArg Ctx.ld hctx, congrArg Ctx.sqBase hctx, congrArg Ctx.cqBase hctx,
    congrArg Ctx.jobLimit hctx, (congrArg Ctx.state hctx).trans hunbound, (congrArg Ctx.part hctx).trans rfl, hanswer⟩

theorem unbound_free {c : Ctx} (hunbound : c.state = 3) (hwaiting : c.waiting = none) (hranks : c.ranks = none) :
    ¬(c.state != 3 || c.waiting.isSome || c.ranks.isSome) = true := by
  rw [hunbound, hwaiting, hranks]
  exact Bool.false_ne_true

theorem exec_bind (htaken : taken s q 1 = true) (hn : n = selected s q 0x500200) (hunbound : (ctxOf s n).state = 3)
    (hwaiting : (ctxOf s n).waiting = none) (hranks : (ctxOf s n).ranks = none) (hgood : bindRefusal s (ctxOf s n) = 0)
    (hlocal : bitOf (ctxOf s n).fabric 0 = false) :
    ∃ t, exec (.bind q) s = .next t ∧ (ctxOf t n).state = 0 ∧ (ctxOf t n).sqHead = 0 ∧ (ctxOf t n).cqIndex = 0 ∧
      (ctxOf t n).phase = true ∧ (ctxOf t n).completed = 0 ∧ answered t q stOk = true := by
  obtain ⟨t, h⟩ := exec_onCtx (c := .bind q) rfl htaken rfl hn
  have hrefusal : bindRefusal t (ctxOf s n) = 0 :=
    (h.replies.answers.read (fun u => bindRefusal u (ctxOf s n)) fun _ _ => rfl).trans hgood
  obtain ⟨t, ht, hctx, hanswer⟩ := ends_with (c := boundCtx (ctxOf t n)) h ((if_neg (unbound_free hunbound hwaiting hranks)).trans
    ((if_neg (by rw [hrefusal]; exact Bool.false_ne_true)).trans (if_pos (by rw [hlocal]; rfl))))
  exact ⟨t, ht, congrArg Ctx.state hctx, congrArg Ctx.sqHead hctx, congrArg Ctx.cqIndex hctx, congrArg Ctx.phase hctx,
    congrArg Ctx.completed hctx, hanswer⟩

theorem exec_unbind (htaken : taken s q 1 = true) (hn : n = selected s q 0x500200) (hbound : (ctxOf s n).state ≠ 3)
    (hwaiting : (ctxOf s n).waiting = none) :
    ∃ u, exec (.unbind q) s = .next (runQueues u) ∧ (ctxOf u n).waiting = some (2, q) ∧ (ctxOf u n).fetching = false ∧ u.mem = s.mem := by
  obtain ⟨t, h⟩ := exec_onCtx (c := .unbind q) rfl htaken rfl hn
  refine ⟨_, h.exec_eq.trans (congrArg _ (if_neg (bound_not_busy hbound hwaiting))), congrArg Ctx.waiting (ctxOf_setCtx_same _),
    (congrArg Ctx.fetching (ctxOf_setCtx_same _)).trans (stopFetch_fetching false), h.mem_eq⟩

theorem exec_resume (htaken : taken s q 1 = true) (hn : n = selected s q 0x500200) (hhalted : (ctxOf s n).state = 2)
    (hwaiting : (ctxOf s n).waiting = none) :
    ∃ u, exec (.resume q) s = .next (runQueues u) ∧ (ctxOf u n).haltCode = 0 ∧ (ctxOf u n).state = b2n (pendingSlots (ctxOf s n)) ∧
      answered u q stOk = true := by
  obtain ⟨t, h⟩ := exec_onCtx (c := .resume q) rfl htaken rfl hn
  refine ⟨_, h.exec_eq.trans (congrArg _ ((if_neg (bound_not_busy (by rw [hhalted]; decide) hwaiting)).trans
    (if_neg (by rw [hhalted]; exact Bool.false_ne_true)))), congrArg Ctx.haltCode (ctxOf_finish_setCtx _),
    congrArg Ctx.state (ctxOf_finish_setCtx _), finish_answered [] (h.awaits.of_update rfl rfl)⟩

theorem exec_contextReset (htaken : taken s q 1 = true) (hn : n = selected s q 0x500200) (hbound : (ctxOf s n).state ≠ 3)
    (hwaiting : (ctxOf s n).waiting = none) :
    ∃ u, exec (.contextReset q) s = .next (runQueues u) ∧ (ctxOf u n).waiting = some (4, q) ∧ (ctxOf u n).records = [] ∧ u.mem = s.mem := by
  obtain ⟨t, h⟩ := exec_onCtx (c := .contextReset q) rfl htaken rfl hn
  refine ⟨_, h.exec_eq.trans (congrArg _ (if_neg (bound_not_busy hbound hwaiting))), congrArg Ctx.waiting (ctxOf_setCtx_same _),
    congrArg Ctx.records (ctxOf_setCtx_same _), (each_setJob_mem _ _).trans h.mem_eq⟩

theorem exec_unbindComplete {ctx : Nat} (hwaiting : (ctxOf (runQueues s) ctx).waiting = some (2, q))
    (hinval : (ctxOf (runQueues s) ctx).inval = 2) (hjobs : jobsOf (runQueues s) ctx = [])
    (hlocal : bitOf (ctxOf (runQueues s) ctx).fabric 0 = false) :
    exec (.unbindComplete ctx) s = .next (finish q keyCtxControl stOk []
      (setCtx ctx (unboundCtx (ctxOf (runQueues s) ctx)) (firePending ctx (runQueues s)))) := by
  change execUnbindComplete ctx s = _
  unfold execUnbindComplete
  dsimp only
  rw [hwaiting]
  exact congrArg Host.Outcome.next ((if_pos (by rw [hinval, hjobs]; rfl)).trans (by rw [hlocal]; rfl))

theorem exec_contextResetComplete {ctx : Nat} (hwaiting : (ctxOf (runQueues s) ctx).waiting = some (4, q))
    (hjobs : jobsOf (runQueues s) ctx = []) (haccess : ∀ p ∈ (runQueues s).cle.access, p.2.ctx = ctx → openCounter p.2 = false) :
    exec (.contextResetComplete ctx) s = .next (runQueues (finish q keyCtxControl stOk []
      (setCtx ctx (resetCtx (ctxOf (runQueues s) ctx)) (firePending ctx (withoutJobs ctx (runQueues s)))))) := by
  change execContextResetComplete ctx s = _
  unfold execContextResetComplete
  dsimp only
  rw [hwaiting, hjobs]
  refine congrArg Host.Outcome.next (if_neg fun hopen => ?_)
  obtain ⟨p, hp, hcounter⟩ := List.any_eq_true.1 ((Bool.or_eq_true_iff.1 hopen).resolve_left Bool.false_ne_true)
  obtain ⟨hctx, hopen⟩ := Bool.and_eq_true_iff.1 hcounter
  exact absurd hopen (by rw [haccess p hp (beq_iff_eq.1 hctx)]; exact Bool.false_ne_true)

/-- A doorbell of a live page of a logical device that is up. -/
theorem doorbell_taken {port ld page : Nat} (hup : ldUp s port ld = true) (hlive : pageLive s port ld page = true) :
    (¬(!ldUp s port ld) = true) ∧ ¬(!true || !pageLive s port ld page) = true := by
  rw [hup, hlive]
  exact ⟨Bool.false_ne_true, Bool.false_ne_true⟩

theorem exec_sqTail {port ld page value : Nat} (hup : ldUp s port ld = true) (hlive : pageLive s port ld page = true)
    (hroom : value % 2 ^ 32 < 2 ^ (ctxOf s page).sqOrder) :
    ∃ u, exec (.sqTail port ld page value true) s = .next (runQueues u) ∧ (ctxOf u page).sqTail = value % 2 ^ 32 ∧
      (ctxOf u page).sqHead = (ctxOf s page).sqHead ∧ u.mem = s.mem := by
  obtain ⟨hfirst, hsecond⟩ := doorbell_taken hup hlive
  refine ⟨_, congrArg Host.Outcome.next ((if_neg hfirst).trans ((if_neg hsecond).trans (if_neg (Nat.not_le.2 hroom)))), ?_⟩
  exact ⟨(idleCheck_field Ctx.sqTail rfl fun _ => rfl).trans ((congrArg Ctx.sqTail (ctxOf_setCtx_same _)).trans
      ((apply_ite Ctx.sqTail _ _ _).trans (ite_self _))),
    (idleCheck_field Ctx.sqHead rfl fun _ => rfl).trans ((congrArg Ctx.sqHead (ctxOf_setCtx_same _)).trans
      ((apply_ite Ctx.sqHead _ _ _).trans (ite_self _))), idleCheck_mem⟩

theorem exec_cqHead {port ld page value : Nat} (hup : ldUp s port ld = true) (hlive : pageLive s port ld page = true) :
    exec (.cqHead port ld page value true) s = .next (runQueues (setCtx page { ctxOf s page with cqHead := value % 2 ^ 32 } s)) := by
  obtain ⟨hfirst, hsecond⟩ := doorbell_taken hup hlive
  exact congrArg Host.Outcome.next ((if_neg hfirst).trans (if_neg hsecond))

/-- Settles O22: each command is the branch that its hypotheses select, and writes the context it selected. -/
theorem contextsRun : Obligations.ContextsRun := by
  refine ⟨fun _ _ _ _ => exec_contextAssign, fun _ _ _ => exec_contextRelease, fun _ _ _ _ => exec_cleContext, fun _ _ _ => exec_bind,
    fun _ _ _ => exec_unbind, fun _ _ _ => exec_resume, fun _ _ _ => exec_contextReset,
    fun q ctx s hwaiting hinval hjobs hlocal => ?_, fun q ctx s hwaiting hjobs haccess => ?_, fun _ _ _ _ _ => exec_sqTail,
    fun _ _ _ _ _ => exec_cqHead⟩
  · have hctx := ctxOf_finish_setCtx (s := firePending ctx (runQueues s)) (q := q) (key := keyCtxControl) (n := ctx)
      (unboundCtx (ctxOf (runQueues s) ctx))
    exact ⟨_, exec_unbindComplete hwaiting hinval hjobs hlocal, congrArg Ctx.state hctx, congrArg Ctx.waiting hctx,
      congrArg Ctx.sqTail hctx⟩
  · have hctx := ctxOf_finish_setCtx (s := firePending ctx (withoutJobs ctx (runQueues s))) (q := q) (key := keyCtxControl) (n := ctx)
      (resetCtx (ctxOf (runQueues s) ctx))
    exact ⟨_, exec_contextResetComplete hwaiting hjobs haccess, congrArg Ctx.state hctx, congrArg Ctx.waiting hctx,
      congrArg Ctx.sqHead hctx, congrArg Ctx.sqTail hctx, congrArg Ctx.cqIndex hctx⟩

end Sys2Proof.Claims
end

section
/-! PROOFS. The frames of boundary scan and of admission commands (R472 to R475, R627 to R631). -/
namespace Sys2Proof.Machine
set_option Elab.async false

/-- `t` is `s` but for the test access port and its output. -/
noncomputable def Scans (s t : State) : Prop := t = { s with jtag := t.jtag, out := t.out }

/-- `t` is `s` but for the security state of logical devices, the log, the draws taken and what is sent. -/
noncomputable def Admits (s t : State) : Prop :=
  t = { s with lck := { s.lck with tdis := t.lck.tdis }, evt := t.evt, out := t.out, fresh := t.fresh }

/-- A next state stands in the relation `R`. -/
noncomputable def NextKeeps (R : State → Prop) : Host.Outcome State Fault Refusal → Prop
  | .next t => R t
  | _ => True

theorem ite_keeps {R : State → Prop} {p : Prop} [Decidable p] {a b : State} (ha : R a) (hb : R b) : R (if p then a else b) := by
  split
  · exact ha
  · exact hb

variable {s t : State} {port ld : Nat}

theorem tap_scans {always : Bool} {act : State → State} (h : Scans s (act s)) : NextKeeps (Scans s) (tap always act s) :=
  ite_keeps (R := Scans s) rfl (ite_keeps (R := Scans s) rfl h)

theorem Admits.trans {u : State} (h : Admits s t) (k : Admits t u) : Admits s u :=
  Eq.trans k (congrArg (fun v : State => { v with
    lck := { v.lck with tdis := u.lck.tdis }, evt := u.evt, out := u.out, fresh := u.fresh }) h)

theorem raise_admits (code sev : Nat) (part : Option Nat) (detail : Bytes) : Admits s (raise code sev part detail s) := by
  obtain ⟨_, h⟩ := raise_eq (s := s) code sev part detail
  rw [h]
  rfl

theorem each_admits {α : Type} {f : α → State → State} (l : List α) (h : Admits s t) (hf : ∀ a t, Admits t (f a t)) :
    Admits s (each l f t) :=
  each_induct h fun a _ t h => h.trans (hf a t)

theorem tdiError_admits (k : Nat) : Admits s (tdiError k s) :=
  ite_keeps (R := Admits s) (.trans (t := setTdi k _ s) rfl (raise_admits ..)) rfl

theorem stopStream_admits (stream : Nat) (keys : Bool) : Admits s (stopStream port ld stream keys s) :=
  each_admits _ rfl fun d t => .trans (t := setTdi (ldKey port d) _ t) rfl (ite_keeps (R := Admits _) (tdiError_admits _) rfl)

theorem reply_admits {code : Nat} {payload : Bytes} (h : Admits s t) : Admits s (spdmReply port ld code payload t) :=
  ite_keeps (R := Admits s) (h.trans rfl) (h.trans rfl)

theorem spdm_admits {ready : Spdm → Bool} {act : Spdm → State → State} (h : ∀ x, Admits s (act x s)) : Admits s (spdm port ld ready act s) :=
  ite_keeps (R := Admits s) rfl (ite_keeps (R := Admits s) rfl (ite_keeps (R := Admits s) (h _) rfl))

theorem inSession_admits {session : Nat} {act : Spdm → State → State} (h : ∀ x, Admits s (act x s)) :
    Admits s (inSession port ld session act s) := by
  refine spdm_admits fun x => ?_
  split
  · exact h x
  · rfl
  · rfl

end Sys2Proof.Machine

namespace Sys2Proof.Claims
open Sys2Proof.Machine

variable {s : State} {c : Instr}

/-- `exec c s` keeps `R`, if the command is of the kind that `kind` names. -/
noncomputable def KindKeeps (kind : Instr → Bool) (R : State → State → Prop) (c : Instr) (s : State) : Prop :=
  bif kind c then NextKeeps (R s) (exec c s) else True

theorem KindKeeps.next {kind : Instr → Bool} {R : State → State → Prop} {t : State} (h : KindKeeps kind R c s) (hc : kind c = true)
    (ht : exec c s = .next t) : R s t := by
  unfold KindKeeps at h
  rw [hc, ht] at h
  exact h

/-- Every boundary-scan instruction loads a register or does nothing; every admission command answers its request, and sets the TDIs it
names. -/
theorem exec_keeps : KindKeeps isScan Scans c s ∧ KindKeeps isAdmission Admits c s := by
  set_option tactic.hygienic false in
  induction c with
  | extest | samplePreload | idcode | usercode | clamp | highz | extestPulse | extestTrain => exact ⟨tap_scans rfl, trivial⟩
  | bypass opcode => exact ⟨tap_scans (act := fun s => if opcode < 8 || 256 ≤ opcode then s else loadBypass s) (ite_keeps (R := Scans s) rfl rfl), trivial⟩
  | getVersion | getCapabilities | negotiateAlgorithms | getDigests => exact ⟨trivial, spdm_admits fun x => reply_admits rfl⟩
  | getCertificate | challenge | getMeasurements | keyExchange | chunkSend =>
    exact ⟨trivial, spdm_admits fun x => ite_keeps rfl (reply_admits rfl)⟩
  | finish =>
    refine ⟨trivial, spdm_admits fun x => ?_⟩
    split
    · exact reply_admits rfl
    · rfl
    · rfl
  | chunkGet => exact ⟨trivial, spdm_admits fun x => ite_keeps rfl rfl⟩
  | keyUpdate => exact ⟨trivial, inSession_admits fun x => ite_keeps rfl (reply_admits (ite_keeps rfl rfl))⟩
  | keyProg => exact ⟨trivial, inSession_admits fun x => ite_keeps rfl (reply_admits (each_admits _ rfl fun d t => rfl))⟩
  | kSetGo => exact ⟨trivial, inSession_admits fun x => ite_keeps (reply_admits (each_admits _ (ite_keeps rfl rfl) fun d t => rfl)) rfl⟩
  | kSetStop => exact ⟨trivial, inSession_admits fun x => ite_keeps rfl (reply_admits (stopStream_admits _ _))⟩
  | lockInterfaceRequest | getDeviceInterfaceReport | startInterfaceRequest =>
    exact ⟨trivial, inSession_admits fun x => ite_keeps rfl (ite_keeps rfl (reply_admits rfl))⟩
  | spdmHeartbeat | endSession | query | getTdispVersion | getTdispCapabilities | getDeviceInterfaceState | stopInterfaceRequest =>
    exact ⟨trivial, inSession_admits fun x => reply_admits rfl⟩
  | lockedRegisterWrite => exact ⟨trivial, ite_keeps (R := Admits s) (tdiError_admits _) rfl⟩
  | _ => exact (⟨trivial, trivial⟩ : True ∧ True)

/-- Settles O46: both kinds of command run inside one wrapper, and each branch of it changes only what the frame allows. -/
theorem attachmentFrame : Obligations.AttachmentFrame := by
  refine ⟨fun c s t hc ht => ?_, fun c s t hc ht => ?_⟩
  · exact exec_keeps.1.next hc ht
  · have h := exec_keeps.2.next hc ht
    have hlck : t.lck = { s.lck with tdis := t.lck.tdis } := congrArg State.lck h
    refine ⟨Eq.trans h (congrArg (fun l => { s with lck := l, evt := t.evt, out := t.out, fresh := t.fresh }) hlck.symm),
      (congrArg Lck.table hlck).trans rfl, (congrArg Lck.tenants hlck).trans rfl, fun p => ?_⟩
    have hpart : partOf t p = partOf s p := (congrArg (fun l : Lck => (tfind l.parts p).getD {}) hlck).trans rfl
    rw [hpart]
    exact ⟨rfl, rfl, rfl, rfl⟩

end Sys2Proof.Claims
end

section
namespace Sys2Proof.Claims
open Sys2Proof.Machine
set_option Elab.async false

/-- Refutes O16: `slice < nStacks s` does not bound the slice by 16 where the assembly counts 17 stacks, and the dictionary has
LDG_CHANNEL_READMIT for slices 0 to 15 only (R144), so a readmission of slice 16 answers ABSENT. -/
theorem not_ledgerRuns : ¬ Obligations.LedgerRuns := by
  rintro ⟨-, -, -, hreadmit, -⟩
  obtain ⟨t, hexec, -, -, hanswered, -⟩ := hreadmit Tests.q1 16
    { Tests.node with asm := { hbmStacks := 17 }, ldg := { slices := [(16, { fenced := [0] })] } }
    (by decide) (by decide) (by decide) (by decide) rfl
  cases hexec
  exact absurd hanswered (by decide)

end Sys2Proof.Claims
end

section
namespace Sys2Proof.Claims
open Sys2Proof.Machine
set_option Elab.async false

/-- A swap that waits begins, and `swapped` says so, or the state is as it was. -/
theorem swapped_trySwap_or_eq_self (u : State) : (trySwap u).twn.swapped = true ∨ trySwap u = u := by
  unfold trySwap
  cases u.twn.swap with
  | none => exact .inr rfl
  | some asked =>
    exact iteInduction (motive := fun t : State => t.twn.swapped = true ∨ t = u) (fun _ => .inr rfl) (fun _ => .inl rfl)

/-- Refutes O29: TWN_SWAP gives its ranges a state in the lending book, so the book's generation and its critical word change (R55, R208),
and memory with them. The swap itself waits here for a firmware update. -/
theorem not_twinsRun : ¬ Obligations.TwinsRun := by
  rintro ⟨-, -, -, -, hswap, -⟩
  obtain ⟨u, hexec, -, -, hmem⟩ := hswap Tests.q1 0
    { Tests.booked [(0, Tests.home0)] with regs := [(0x100001, 0x111), (0x100002, 127), (0x100003, 1)], fw := { update := 1 },
                                           twn := { recs := [(0, { role := 1, state := 2 })], named := true } }
    (by decide) (by decide) (by decide) (by decide) (by decide)
  have hnext := Host.Outcome.next.inj hexec
  rcases swapped_trySwap_or_eq_self u with hswapped | hself
  · rw [← hnext] at hswapped
    exact absurd hswapped (by decide)
  · rw [← hself, ← hnext] at hmem
    exact absurd (congrArg (fun m => m.crit.length) hmem) (by decide)

end Sys2Proof.Claims
end
